-- ==== Sys2Proof/Word.lean ====
section
/-! DEFINITION. The words of the part's interfaces: bytes of the panel and drive links, halves (the ring indices and
the 16-bit fields), and the 32-bit words of an upstream access (spec/11, "Every word below is 32 bits"). -/

namespace Sys2Proof

/-- A byte of a word, of a panel line or of a drive link. -/
abbrev Byte := BitVec 8

/-- A half word: bytes 0–1 or 2–3 (spec/11); also a free-running ring index (spec/00, "Ring indices"). -/
abbrev Half := BitVec 16

/-- A memory word of 32 bits (spec/11). -/
abbrev Word := BitVec 32

/-- The byte enables within the aligned word of an access (R184): bit i enables byte i. -/
abbrev Enables := BitVec 4

end Sys2Proof
end

