-- ==== Sys2Proof/Syntax.lean ====
section
/-! DEFINITION. The commands of the part: one constructor for each row of spec/opcode_table.json, in the table's order.
Operands are what the outside brings with the event: the line it comes on, the access, the bytes of a message, the
sample. The parameters of a request stand in the request ring in memory (R173), so the request rows have none. -/

namespace Sys2Proof

/-- The five keys of an operator panel (R76, R87). -/
inductive Key where
  | bay0 | bay1 | bay2 | plus | minus
deriving DecidableEq, Repr, Inhabited

/-- Which bytes of a two-byte panel message arrive in one step (R83): its first byte alone, its second byte alone
(the byte that completes it), or both in a row. -/
inductive MessagePart where
  | opening | closing | whole
deriving DecidableEq, Repr, Inhabited

/-- The commands. -/
inductive Instr where
  /-- POWER_UP (R193): `wordsWritten` words of the transfer in progress had reached memory when power was lost. -/
  | powerUp (wordsWritten : Nat)
  /-- CONFIGURATION_CHECK (R193). -/
  | configurationCheck
  /-- ARTICLE_IMAGE_LOAD (R25). -/
  | articleImageLoad
  /-- CARRIER_IMAGE_LOAD (R26). -/
  | carrierImageLoad
  /-- START_UP_LOAD_END (R194). -/
  | startUpLoadEnd
  /-- LINK_RESET (R183, R195). -/
  | linkReset
  /-- UPSTREAM_READ (R184); the byte enables of a read are not held: DESIGN CHOICE, log 37. -/
  | upstreamRead (address : Word)
  /-- PASSED_READ_END (R187). -/
  | passedReadEnd
  /-- UPSTREAM_WRITE (R187). -/
  | upstreamWrite (address : Word) (enables : Enables) (data : Word)
  /-- OWNER_WRITE (R171): a write to word 0 of a request entry with the OWNER byte enabled. -/
  | ownerWrite (entry : Fin 32) (enables : Enables) (data : Word)
  /-- CONSUME_INDEX_WRITE (R177). -/
  | consumeIndexWrite (enables : Enables) (data : Word)
  /-- ATTENTION_ENABLE_WRITE (R182). -/
  | attentionEnableWrite (enables : Enables) (data : Word)
  /-- PROBE_SELECT_WRITE (R191). -/
  | probeSelectWrite (enables : Enables) (data : Word)
  /-- PROBE_SNAPSHOT (R191): a read of probe data word 0. -/
  | probeSnapshot
  /-- PROBE_DATA_READ (R191): a read of probe data word 1 to 7. -/
  | probeDataRead (word : Fin 8)
  /-- DOWNSTREAM_GRANT (R192). -/
  | downstreamGrant
  /-- POSTED_WRITE_END (R187). -/
  | postedWriteEnd
  /-- WRITE_BACK_BURST_END (R189). -/
  | writeBackBurstEnd
  /-- INTAKE_TAKE (R172). -/
  | intakeTake
  /-- ARTICLE_DEFINE (R12). -/
  | articleDefine
  /-- ARTICLE_REMOVE (R13). -/
  | articleRemove
  /-- RECEIVE (R120). -/
  | receive
  /-- ORDER_OPEN (R93). -/
  | orderOpen
  /-- ORDER_CANCEL (R111). -/
  | orderCancel
  /-- AUDIT (R155). -/
  | audit
  /-- SLOT_BLOCK (R22). -/
  | slotBlock
  /-- SLOT_UNBLOCK (R23). -/
  | slotUnblock
  /-- HOME (R48). -/
  | home
  /-- LANE_ACCEPT (R146). -/
  | laneAccept
  /-- LANE_RELEASE (R147). -/
  | laneRelease
  /-- PANEL_RESTART (R82). -/
  | panelRestart
  /-- UNKNOWN_KIND (R174). -/
  | unknownKind
  /-- GIVE_BACK_END (R175). -/
  | giveBackEnd
  /-- INTAKE_INDEX_WRITE_END (R175). -/
  | intakeIndexWriteEnd
  /-- REPORT_WRITE_BEGIN (R178). -/
  | reportWriteBegin
  /-- REPORT_ENTRY_WRITE_END (R176). -/
  | reportEntryWriteEnd
  /-- PRODUCE_INDEX_WRITE_END (R176). -/
  | produceIndexWriteEnd
  /-- ARRIVED (R41): the three bytes of an ARRIVED message come on a drive link (R197). -/
  | arrived (carousel : Fin 4) (position : Byte)
  /-- STOPPED (R42). -/
  | stopped (carousel : Fin 4) (position : Byte)
  /-- HOMED (R49); its parameter is not read (R197). -/
  | homed (carousel : Fin 4) (parameter : Byte)
  /-- FAULT (R46). -/
  | fault (carousel : Fin 4) (code : Byte)
  /-- DRIVE_MESSAGE_DISCARDED (R197): bytes on a drive link that make no report. -/
  | driveMessageDiscarded (carousel : Fin 4) (bytes : List Byte)
  /-- GATE_OPENS (R44). -/
  | gateOpens (carousel : Fin 4)
  /-- GATE_CLOSES (R44). -/
  | gateCloses (carousel : Fin 4)
  /-- DEADLINE (R43). -/
  | deadline (carousel : Fin 4)
  /-- ACK (R79). -/
  | ack (panel : Fin 8)
  /-- NAK (R79). -/
  | nak (panel : Fin 8)
  /-- IDENT (R80): the IDENT response and its type byte, or one of the two. -/
  | ident (panel : Fin 8) (part : MessagePart) (type : Byte)
  /-- KEY_MAKE (R87). -/
  | keyMake (panel : Fin 8) (key : Key)
  /-- KEY_BREAK (R87): the break prefix and its key code, or one of the two. -/
  | keyBreak (panel : Fin 8) (part : MessagePart) (key : Key)
  /-- PARITY_FRAMING_FAILURE (R85): a byte with one of the failures or both. -/
  | parityFramingFailure (panel : Fin 8) (parity framing : Bool)
  /-- ANSWER_TIMER (R79). -/
  | answerTimer (panel : Fin 8)
  /-- DISPLAY_AGREEMENT (R86). -/
  | displayAgreement (panel : Fin 8)
  /-- BAY_KEY_MAKE (R61): the Face Controller takes a bay key make from the holder of this panel. -/
  | bayKeyMake (panel : Fin 8)
  /-- PLUS (R61). -/
  | plus (panel : Fin 8)
  /-- MINUS (R61). -/
  | minus (panel : Fin 8)
  /-- PLUS_MINUS_BREAK (R61). -/
  | plusMinusBreak (panel : Fin 8)
  /-- BAY_KEY_BREAK (R62). -/
  | bayKeyBreak (panel : Fin 8)
  /-- SCAN_TIMER (R135): the scale input presents `raw`, valid or not. -/
  | scanTimer (lane : Fin 16) (raw : Half) (valid : Bool)
  /-- ARRIVAL_TIMER (R143). -/
  | arrivalTimer (lane : Fin 16)
  /-- MESSAGE_ABANDONED (R84): a byte that begins nothing when it is taken afresh. -/
  | messageAbandoned (panel : Fin 8) (byte : Byte)
  /-- CONTROL_WORD_WRITE_END (R183, R194). -/
  | controlWordWriteEnd
deriving DecidableEq, Repr, Inhabited

end Sys2Proof
end

