-- ==== Sys2Proof/Decode.lean ====
section
/-! DEFINITION. The commands of the table that bits spell: spec/opcode_table.json gives no row any bits, so no word
spells a command. -/

namespace Sys2Proof

/-- The command a word of the table's bits spells: none, since no row of the table gives bits. -/
def decodeTableWord (_nbits _w : Nat) : Option Instr := none

end Sys2Proof
end

