-- ==== Sys2Proof/Config.lean ====
section
/-! DEFINITION. What an implementation fixes: the fixed sizes and codes of the part (spec/10, spec/11) and the
values the configuration block gives, which hold until the next power-up (R3, R27, R76, R132, R185, R196). -/

namespace Sys2Proof

/-- The eight windows of the window map, in the order of configuration words 1–8 (R185, spec/11). -/
inductive Window where
  | request | report | control | carrier | article | order | lane | status
deriving DecidableEq, Repr, Inhabited

namespace Config

/-- The windows in the configuration block's order. -/
def windows : List Window :=
  [.request, .report, .control, .carrier, .article, .order, .lane, .status]

/-- The number of a window in that order. -/
def windowIndex : Window → Nat
  | .request => 0
  | .report => 1
  | .control => 2
  | .carrier => 3
  | .article => 4
  | .order => 5
  | .lane => 6
  | .status => 7

/-- The fixed size of a window in bytes (R185). -/
def windowSize : Window → Nat
  | .request => 2048
  | .report => 2048
  | .control => 256
  | .carrier => 6144
  | .article => 8192
  | .order => 4096
  | .lane => 512
  | .status => 768

/-- The size rounded up to a power of two, to which the base is aligned (R185). -/
def windowAlignment : Window → Nat
  | .request => 2048
  | .report => 2048
  | .control => 256
  | .carrier => 8192
  | .article => 8192
  | .order => 4096
  | .lane => 512
  | .status => 1024

/-- The address of the configuration block (R193). -/
def blockAddress : Nat := 0xF000
/-- Its size in bytes (R193). -/
def blockSize : Nat := 256
/-- Its format code (R193). -/
def blockFormat : Nat := 0x21
/-- The format codes of the article and carrier images and of a request entry (spec/11). -/
def articleFormat : Nat := 0x2A
def carrierFormat : Nat := 0x2C
def requestFormat : Nat := 0x10

/-- The ring and buffer sizes (R171, R176, R187, R14, R30). -/
def requestEntries : Nat := 32
def reportEntries : Nat := 64
def postedCapacity : Nat := 8
def reservationCapacity : Nat := 256
def queueCapacity : Nat := 8

/-- Control window offsets (spec/11, Control window). -/
def offConsume : Nat := 0x00
def offAttention : Nat := 0x04
def offProbeSelect : Nat := 0x08
def offProduce : Nat := 0x0C
def offIntake : Nat := 0x10
def offArticleHeader : Nat := 0x14
def offCarrierHeader : Nat := 0x18
def offProbeData : Nat := 0x20

/-- The answer timer of the panel link (R79), in ms. -/
def answerTime : Nat := 50

end Config

/-- The configuration of one carousel place (R3, R27, spec/11 words 9–17). -/
structure CarouselConfig where
  fitted : Bool
  bayDepth : Nat
  sizeClasses : Vector Nat 3
  stepTime : Nat
  settleAllowance : Nat
deriving DecidableEq, Repr, Inhabited

/-- The configuration of one lane place (R132, spec/11 words 9, 20–35). -/
structure LaneConfig where
  fitted : Bool
  capacity : Nat
  tare : Int
deriving DecidableEq, Repr, Inhabited

/-- The values of the configuration block (spec/11, Configuration block). -/
structure Configuration where
  /-- The window bases, words 1–8. -/
  bases : Vector Nat 8
  carousels : Vector CarouselConfig 4
  loadLimit : Nat
  imbalanceLimit : Nat
  /-- Word 19 byte 0: 0 for 9,600 and 1 for 19,200 baud (R76). -/
  panelRate : Nat
  /-- Word 19 byte 1: the REPEAT byte (R78). -/
  repeatByte : Byte
  lanes : Vector LaneConfig 16
  scanInterval : Nat
  settleBand : Nat
  emptyThreshold : Nat
  /-- In seconds (R132). -/
  arrivalWindow : Nat
  /-- Word 37 byte 1: 0 or 1 (R182). -/
  attention : Nat
deriving DecidableEq, Repr, Inhabited

namespace Configuration

/-- A carousel place before the block is read. -/
def blankCarousel : CarouselConfig :=
  ⟨false, 0, #v[0, 0, 0], 0, 0⟩

/-- A lane place before the block is read, and every unfitted one (R134). -/
def blankLane : LaneConfig := ⟨false, 0, 0⟩

/-- The configuration before the block is read (log 31). -/
def blank : Configuration where
  bases := Vector.replicate 8 0
  carousels := Vector.replicate 4 blankCarousel
  loadLimit := 0
  imbalanceLimit := 0
  panelRate := 0
  repeatByte := 0
  lanes := Vector.replicate 16 blankLane
  scanInterval := 0
  settleBand := 0
  emptyThreshold := 0
  arrivalWindow := 0
  attention := 0

/-- The base address of a window. -/
def base (c : Configuration) (w : Window) : Nat :=
  (c.bases[Config.windowIndex w]?).getD 0

/-- Whether an address lies in a window: the window covers its size from its base (R185). -/
def covers (c : Configuration) (w : Window) (a : Nat) : Bool :=
  c.base w ≤ a && a < c.base w + Config.windowSize w

/-- The configuration of a carousel place. -/
def carousel (c : Configuration) (n : Nat) : CarouselConfig :=
  (c.carousels[n]?).getD blankCarousel

/-- The configuration of a lane place. -/
def lane (c : Configuration) (l : Nat) : LaneConfig :=
  (c.lanes[l]?).getD blankLane

/-- The maximum size class of a bay position of a carousel (R3). -/
def maxClass (c : Configuration) (n b : Nat) : Nat :=
  ((c.carousel n).sizeClasses[b]?).getD 0

/-- Whether the configured attention enable allows attention (R182). -/
def allowsAttention (c : Configuration) : Bool := c.attention == 1

end Configuration

end Sys2Proof
end

