-- ==== Sys2Proof/Machine/State.lean ====
section
/-! DEFINITION. The state of the part: every record, list, counter, flag and line spec/ gives it, as plain data.
The job blocks' records (spec/01 to spec/08), the notice list and the write-back list they feed make the `Store`;
the Path Unit (spec/10), the Intake and the Report Writer (spec/09) stand beside it, with the working memory. -/

namespace Sys2Proof.Machine

open Sys2Proof

/-! ## The Stock Map (spec/01) -/

/-- Why a slot takes no new claims (R7). -/
inductive BlockReason where
  | request | disputed | foreign | imageFault
deriving DecidableEq, Repr, Inhabited

/-- A slot record (R2). Its state is STOCKED while count + incoming > 0 and EMPTY otherwise, so it is not stored. -/
structure Slot where
  blockReason : Option BlockReason
  article : Option Nat
  lotWeek : Option Nat
  count : Nat
  reserved : Nat
  incoming : Nat
deriving DecidableEq, Repr

/-- An EMPTY slot with no block reason (R1). -/
def Slot.empty : Slot := ⟨none, none, none, 0, 0, 0⟩

/-- A carrier record (R1). -/
structure Carrier where
  suspect : Bool
  auditWanted : Bool
  faceOpen : Bool
  frozen : Bool
  load : Nat
  bays : Vector Slot 3
deriving DecidableEq, Repr

/-- The fixed values of a carrier record (R1). -/
def Carrier.blank : Carrier :=
  ⟨false, false, false, false, 0, #v[Slot.empty, Slot.empty, Slot.empty]⟩

/-- A DEFINED entry of the article table (R11); an UNDEFINED one is `none`. -/
structure Article where
  catalogue : Word
  sizeClass : Nat
  weight : Nat
  tolerance : Nat
deriving DecidableEq, Repr

/-- What a reservation is for (R14): a PICK names an order and a line, a PUT a batch. -/
inductive Claim where
  | pick (order line : Nat)
  | put (batch : Nat)
deriving DecidableEq, Repr, Inhabited

/-- A reservation's state, with the face in QUEUED and PRESENTED (R14, R16). -/
inductive ReservationState where
  | reserved
  | queued (face : Nat)
  | presented (face : Nat)
deriving DecidableEq, Repr, Inhabited

/-- An entry of the reservation list (R14). -/
structure Reservation where
  number : Nat
  claim : Claim
  slot : Nat
  quantity : Nat
  state : ReservationState
deriving DecidableEq, Repr, Inhabited

/-! ## The Motion Controller (spec/02) -/

/-- The carousel states (R27). -/
inductive ChannelState where
  | unhomed | homing | idle | moving | held | fenced
deriving DecidableEq, Repr, Inhabited

/-- The direction of a travel (R28). -/
inductive Direction where
  | forward | back
deriving DecidableEq, Repr, Inhabited

/-- The level of the gate line as the channel has taken it (R27). -/
inductive Gate where
  | opened | closed
deriving DecidableEq, Repr, Inhabited

/-- The causes of a fence (R27, R47). -/
inductive FenceCause where
  | driveFault | deadline | unsolicited | wrongPosition | homingStopped
deriving DecidableEq, Repr, Inhabited

/-- What a motion queue entry brings to a face (R30): its attached reservations by number, or a count. -/
inductive QueueWork where
  | reservations (numbers : List Nat)
  | count (audit : Nat)
deriving DecidableEq, Repr, Inhabited

/-- A motion queue entry (R30). -/
structure QueueEntry where
  carrier : Nat
  face : Nat
  work : QueueWork
deriving DecidableEq, Repr, Inhabited

/-- A channel (R27), with the receive window of its drive link (R197) and the bytes it last sent there (R40). -/
structure Channel where
  state : ChannelState
  position : Option Nat
  target : Option (Nat × Direction)
  /-- Running with the tenths of a second it was started at, or stopped (R40). -/
  deadline : Option Nat
  queue : List QueueEntry
  /-- The audit index and the carrier of the pending count (R34). -/
  pendingCount : Option (Nat × Nat)
  gate : Gate
  fenceCause : Option FenceCause
  faultCode : Option Nat
  window : List Byte
  sent : List Byte
deriving DecidableEq, Repr

/-- A channel at power-up, before its gate line is sampled (R27). -/
def Channel.powerUp : Channel where
  state := .unhomed
  position := none
  target := none
  deadline := none
  queue := []
  pendingCount := none
  gate := .opened
  fenceCause := none
  faultCode := none
  window := []
  sent := []

/-! ## The Face Controller (spec/03) -/

/-- The face states (R54). -/
inductive FaceState where
  | idle | presenting | halted
deriving DecidableEq, Repr, Inhabited

/-- The presentation kinds (R53). -/
inductive PresentationKind where
  | work | count
deriving DecidableEq, Repr, Inhabited

/-- What an item refers to (R55): a reservation by number, or an audit entry. -/
inductive ItemRef where
  | pick (reservation : Nat)
  | put (reservation : Nat)
  | count (audit : Nat)
deriving DecidableEq, Repr, Inhabited

/-- An item of a bay list (R55). -/
structure Item where
  ref : ItemRef
  expected : Option Nat
  displayed : Nat
deriving DecidableEq, Repr, Inhabited

/-- The notes of a display record (R70). -/
inductive DisplayNote where
  | blank | wait | fault | count
deriving DecidableEq, Repr, Inhabited

/-- The modes of a bay display (R70). -/
inductive DisplayMode where
  | off | pick | put | count
deriving DecidableEq, Repr, Inhabited

/-- A bay display (R70). -/
structure BayDisplay where
  mode : DisplayMode
  quantity : Nat
  lane : Option Nat
deriving DecidableEq, Repr, Inhabited

/-- The bay display of a bay with no head item (R71). -/
def BayDisplay.off : BayDisplay := ⟨.off, 0, none⟩

/-- A display record: the desired one of a face (R70) or the sent one of a panel (R75). -/
structure Display where
  enabled : Bool
  note : DisplayNote
  bays : Vector BayDisplay 3
deriving DecidableEq, Repr

/-- Disabled with note FAULT and every bay OFF (R72). -/
def Display.fault : Display :=
  ⟨false, .fault, #v[BayDisplay.off, BayDisplay.off, BayDisplay.off]⟩

/-- What the panel shows after IDENTIFY: disabled, note blank, every bay OFF (R77, R80). -/
def Display.panelReset : Display :=
  ⟨false, .blank, #v[BayDisplay.off, BayDisplay.off, BayDisplay.off]⟩

/-- A face (R53). -/
structure Face where
  state : FaceState
  carrier : Option Nat
  kind : Option PresentationKind
  bays : Vector (List Item) 3
  held : List Nat
  selected : Option Nat
  lastSuspended : Option Nat
  desired : Display
deriving DecidableEq, Repr

/-- A face at power-up (R53). -/
def Face.powerUp : Face where
  state := .halted
  carrier := none
  kind := none
  bays := #v[[], [], []]
  held := []
  selected := none
  lastSuspended := none
  desired := Display.fault

/-! ## The Panel Link Unit (spec/04) -/

/-- The line states (R75). -/
inductive LineState where
  | offline | identifying | ready
deriving DecidableEq, Repr, Inhabited

/-- The identification steps (R75). -/
inductive IdentStep where
  | awaitAck | awaitIdent | awaitRepeatAck
deriving DecidableEq, Repr, Inhabited

/-- The six commands to a panel, with their parameters (R77). -/
inductive PanelCommand where
  | identify
  | enable
  | halt
  | showBay (bay : Nat) (content : BayDisplay)
  | note (note : DisplayNote)
  | repeatTiming (code : Byte)
deriving DecidableEq, Repr, Inhabited

/-- The pending received message (R83). -/
inductive PendingMessage where
  | none | breakPrefix | ident
deriving DecidableEq, Repr, Inhabited

/-- A key event: the key and whether it is a make or a break (R87). -/
structure KeyEvent where
  key : Key
  make : Bool
deriving DecidableEq, Repr, Inhabited

/-- A panel record (R75), with the bytes last sent on its line (R76). -/
structure Panel where
  line : LineState
  step : Option IdentStep
  outstanding : Option PanelCommand
  attempt : Option Nat
  /-- Running with the ms it was started at, or stopped (R79). -/
  timer : Option Nat
  received : PendingMessage
  shown : Option Display
  holder : Option KeyEvent
  inhibit : Bool
  overrun : Bool
  parity : Bool
  framing : Bool
  wrongType : Bool
  sentBytes : List Byte
deriving DecidableEq, Repr

/-- A panel of a carousel that is not fitted (R75). -/
def Panel.unfitted : Panel where
  line := .offline
  step := none
  outstanding := none
  attempt := none
  timer := none
  received := .none
  shown := none
  holder := none
  inhibit := false
  overrun := false
  parity := false
  framing := false
  wrongType := false
  sentBytes := []

/-- A panel of a fitted carousel from the start-up load until its line begins its identification (R75, R194; log 14). -/
def Panel.powerUp : Panel :=
  { Panel.unfitted with
    line := .identifying, step := some .awaitAck, outstanding := some .identify, attempt := some 1 }

/-! ## The Order Table (spec/05) -/

/-- The states of an order in use (R91). -/
inductive OrderState where
  | admitting | active | cancelling | complete | abandoned
deriving DecidableEq, Repr, Inhabited

/-- A line record (R92). The line is FILLED when filled equals quantity, so the line state is not stored. -/
structure Line where
  article : Nat
  quantity : Nat
  setFlag : Bool
  filled : Nat
  reservedFor : Nat
  setWeek : Option Nat
deriving DecidableEq, Repr, Inhabited

/-- An order record in use (R91); a free record is `none`. -/
structure Order where
  tag : Word
  urgency : Nat
  state : OrderState
  passOver : Nat
  admissionSequence : Option Half
  lane : Option Nat
  lines : List Line
deriving DecidableEq, Repr, Inhabited

/-! ## The Put-away Planner (spec/06) -/

/-- The fields of an OPEN or DONE batch record (R118). -/
structure Batch where
  tag : Word
  article : Nat
  lotWeek : Nat
  quantity : Nat
  planned : Nat
  placed : Nat
  unplaced : Nat
deriving DecidableEq, Repr, Inhabited

/-- A batch record (R118). -/
inductive BatchRecord where
  | free
  | opened (batch : Batch)
  | done (batch : Batch)
deriving DecidableEq, Repr, Inhabited

/-! ## The Lane Controller (spec/07) -/

/-- The lane states (R133). -/
inductive LaneState where
  | unsettled | free | occupied | assigned | done | abandoned
deriving DecidableEq, Repr, Inhabited

/-- The weight states (R141). -/
inductive WeightState where
  | matched | arriving | mismatch
deriving DecidableEq, Repr, Inhabited

/-- The scale states (R132). -/
inductive ScaleState where
  | good | fault
deriving DecidableEq, Repr, Inhabited

/-- A lane record (R132). The capacity is the configuration's. -/
structure Lane where
  state : LaneState
  order : Option Nat
  weight : Option WeightState
  expected : Int
  tolerance : Nat
  tare : Int
  samples : List Int
  settled : Option Int
  scale : ScaleState
  /-- Running with the seconds it was started at, or stopped (R141). -/
  arrival : Option Nat
  /-- Running with the ms it was started at, or stopped (R134). -/
  scan : Option Nat
deriving DecidableEq, Repr

/-- A lane at power-up with its starting tare offset (R132, R134). -/
def Lane.powerUp (tare : Int) : Lane where
  state := .unsettled
  order := none
  weight := none
  expected := 0
  tolerance := 0
  tare := tare
  samples := []
  settled := none
  scale := .good
  arrival := none
  scan := none

/-! ## The Audit Unit (spec/08) -/

/-- What created an audit entry (R152). -/
inductive AuditOrigin where
  | request | shortPick | suspect
deriving DecidableEq, Repr, Inhabited

/-- The count stage of a COUNTING entry (R152). -/
inductive CountStage where
  | requested
  | presented (face : Nat)
deriving DecidableEq, Repr, Inhabited

/-- The entry states, COUNTING with its stage (R152). -/
inductive EntryState where
  | waiting
  | ready
  | counting (stage : CountStage)
deriving DecidableEq, Repr, Inhabited

/-- The result of a bay (R152). -/
inductive BayResult where
  | verified
  | adjusted (value : Nat)
  | disputed
  | foreign
deriving DecidableEq, Repr, Inhabited

/-- The fields of one bay of an audit entry (R152). -/
structure BayCount where
  book : Option Nat
  counts : List Nat
  result : Option BayResult
deriving DecidableEq, Repr, Inhabited

/-- A bay not yet counted (R152). -/
def BayCount.blank : BayCount := ⟨none, [], none⟩

/-- An audit entry (R152). -/
structure AuditEntry where
  carousel : Nat
  carrier : Nat
  origin : AuditOrigin
  state : EntryState
  bays : Vector BayCount 3
deriving DecidableEq, Repr

/-- An audit record (R152). -/
inductive AuditRecord where
  | free
  | listed (entry : AuditEntry)
  | committed (entry : AuditEntry)
deriving DecidableEq, Repr

/-! ## Notices and image records (spec/09, spec/10) -/

/-- The 126 notice sources (R179). -/
inductive Source where
  | device
  | path
  | carousel (n : Nat)
  | face (i : Nat)
  | lane (l : Nat)
  | order (k : Nat)
  | batch (b : Nat)
  | audit (a : Nat)
deriving DecidableEq, Repr, Inhabited

/-- A pending notice: its source and its gathered flags (R179; the flag set is a half of the report entry, spec/11). -/
structure Notice where
  source : Source
  flags : Half
deriving DecidableEq, Repr, Inhabited

/-- The 700 image records (R185). -/
inductive ImageRecord where
  | carrier (r : Nat)
  | article (a : Nat)
  | order (k : Nat)
  | lane (l : Nat)
  | status (n : Nat)
deriving DecidableEq, Repr, Inhabited

/-! ## The store: the job blocks -/

/-- The records of the job blocks, with the notice list and the write-back list that they feed. -/
structure Store where
  cfg : Configuration
  /-- Carrier c of carousel n is record n × 24 + c (R1). -/
  carriers : Vector Carrier 96
  articles : Vector (Option Article) 512
  /-- Oldest first (R14). -/
  reservations : List Reservation
  channels : Vector Channel 4
  /-- Face f of carousel n is face index n × 2 + f (spec/03). -/
  faces : Vector Face 8
  panels : Vector Panel 8
  orders : Vector (Option Order) 64
  /-- Order indices, the head first (R95). -/
  admission : List Nat
  /-- (order, line) entries, the head first (R99). -/
  waiting : List (Nat × Nat)
  admissionCounter : Half
  /-- The orders that hold a lane, in the order of their admission (R99; log 19). -/
  admitted : List Nat
  batches : Vector BatchRecord 16
  lanes : Vector Lane 16
  audits : Vector AuditRecord 16
  /-- Audit indices in order of creation (R152). -/
  auditList : List Nat
  /-- Oldest first (R179). -/
  notices : List Notice
  /-- Oldest listing first (R189). -/
  writeBack : List ImageRecord
  /-- An allocation pass is due at the end of the event (R100; log 6). -/
  passDue : Bool
deriving DecidableEq, Repr

/-! ## The Path Unit (spec/10) -/

/-- The reads of the start-up load, and its wait for the write-backs (R193, R194). -/
inductive LoadStage where
  | configuration | articles | carriers | writeBack
deriving DecidableEq, Repr, Inhabited

/-- The Path Unit's condition (R184). -/
inductive Condition where
  | loading (stage : LoadStage)
  | passOnly
  | working
deriving DecidableEq, Repr, Inhabited

/-- A write of the posted write buffer (R187). -/
structure PostedWrite where
  address : Nat
  enables : Enables
  data : Word
deriving DecidableEq, Repr, Inhabited

/-- How the last upstream access ended (R184). -/
inductive Ending where
  | retry
  | done
  | data (word : Word)
deriving DecidableEq, Repr, Inhabited

/-- A transfer on the downstream port, or a claim to one (R192). -/
inductive Transfer where
  /-- The oldest posted write (class 1). -/
  | postedWrite
  /-- An upstream read passed through (class 2). -/
  | passedRead (address : Nat)
  /-- The Intake's read of a request entry (class 3). -/
  | entryRead (entry : Nat)
  /-- The give-back of word 0 of an entry (class 3). -/
  | giveBack (entry : Nat) (word : Word)
  /-- A write of the intake index word (class 3); `closing` when it is step 2 of R175. -/
  | intakeIndex (value : Half) (closing : Bool)
  /-- The start-up load's reads (class 3). -/
  | load (stage : LoadStage)
  /-- The Report Writer's entry write at a ring entry (class 4). -/
  | reportEntry (entry : Nat) (words : List Word)
  /-- A write of the produce index word (class 4); `closing` when it ends a report write (R176). -/
  | produceIndex (value : Half) (closing : Bool)
  /-- A write of another control word, at its offset (class 4). -/
  | controlWord (offset : Nat) (value : Word)
  /-- A write-back burst with its version (class 5). -/
  | burst (record : ImageRecord) (words : List Word)
deriving DecidableEq, Repr, Inhabited

/-- A grant of the port (R192). `dropped`: a link reset took the transfer's purpose away, and it only completes (R183, R195). -/
structure Grant where
  transfer : Transfer
  dropped : Bool
deriving DecidableEq, Repr, Inhabited

/-- The refusal record (R181). -/
structure RefusalRecord where
  first : Option Nat
  count : Nat
deriving DecidableEq, Repr, Inhabited

/-- The Path Unit. -/
structure PathUnit where
  condition : Condition
  posted : List PostedWrite
  /-- The passed read in flight upstream (R184). -/
  inFlight : Option Nat
  ending : Option Ending
  /-- The commit marks (R171). -/
  marks : Vector Bool 32
  changeCounts : Vector Byte 700
  probeSelect : Word
  snapshot : Option (Vector Word 8)
  /-- The claims of classes 2 to 4 that wait, the longest waiting first (R192). -/
  claims : List Transfer
  port : Option Grant
  refusals : RefusalRecord
  attention : Bool
  articlesDiscarded : Bool
  carriersDiscarded : Bool
  faultedRecords : Nat
deriving DecidableEq, Repr

/-! ## The Intake and the Report Writer (spec/09) -/

/-- The Intake's state with the entry in hand (R172, R173); in RETURNING also the word 0 to give back and the
completion formed (R175). -/
inductive IntakeState where
  | waiting
  | reading (entry : Nat)
  | returning (entry : Nat) (completion : List Word)
deriving DecidableEq, Repr, Inhabited

/-- The Intake (R172). -/
structure Intake where
  index : Half
  state : IntakeState
deriving DecidableEq, Repr, Inhabited

/-- What a report write in flight writes (R178); a PATH notice holds the address and count it took (R181). -/
inductive ReportContent where
  | completion
  | notice (notice : Notice) (taken : RefusalRecord)
deriving DecidableEq, Repr, Inhabited

/-- The Report Writer (R178); its notice list is in the `Store`. -/
structure ReportWriter where
  produce : Half
  consume : Half
  completion : Option (List Word)
  writing : Option ReportContent
deriving DecidableEq, Repr, Inhabited

/-! ## The machine -/

/-- The state of the machine. -/
structure State where
  /-- The commands that wait, the next at the head. -/
  pending : List Instr
  /-- The working memory on the downstream port: bytes by address (log 2). -/
  mem : List Host.Cell
  /-- The gate lines of the floor, true while high (R44). -/
  gateLines : Vector Bool 4
  path : PathUnit
  intake : Intake
  report : ReportWriter
  store : Store
deriving DecidableEq, Repr

/-- The reasons a step can stop with a fault: there are none, since the part of spec/ goes on from every event. -/
inductive Fault where
deriving DecidableEq, Repr

/-- The reasons a step can be refused. -/
inductive Refusal where
  /-- Raised by exec's arm of a command that has no meaning yet: none (safe). -/
  | notModelled (mnemonic : String)
deriving DecidableEq, Repr, Inhabited

/-- The job blocks at power-up, before the configuration block is read (R1, R11, R14, R27, R53, R75, R91, R118, R132, R152). -/
def Store.powerUp : Store where
  cfg := Configuration.blank
  carriers := Vector.replicate 96 Carrier.blank
  articles := Vector.replicate 512 none
  reservations := []
  channels := Vector.replicate 4 Channel.powerUp
  faces := Vector.replicate 8 Face.powerUp
  panels := Vector.replicate 8 Panel.unfitted
  orders := Vector.replicate 64 none
  admission := []
  waiting := []
  admissionCounter := 0
  admitted := []
  batches := Vector.replicate 16 .free
  lanes := Vector.replicate 16 (Lane.powerUp 0)
  audits := Vector.replicate 16 .free
  auditList := []
  notices := []
  writeBack := []
  passDue := false

/-- The Path Unit at power-up: the start-up load has begun, and the port carries the read of the configuration
block (R193; R187, R188, R189, R191 for the values). -/
def PathUnit.powerUp : PathUnit where
  condition := .loading .configuration
  posted := []
  inFlight := none
  ending := none
  marks := Vector.replicate 32 false
  changeCounts := Vector.replicate 700 0
  probeSelect := 0
  snapshot := none
  claims := []
  port := some ⟨.load .configuration, false⟩
  refusals := ⟨none, 0⟩
  attention := false
  articlesDiscarded := false
  carriersDiscarded := false
  faultedRecords := 0

/-- The machine right after reset, which is power-up (log 1): nothing listed in memory, the gates closed, no command
waiting. -/
def State.reset : State where
  pending := []
  mem := []
  gateLines := Vector.replicate 4 true
  path := PathUnit.powerUp
  intake := ⟨0, .waiting⟩
  report := ⟨0, 0, none, none⟩
  store := Store.powerUp

end Sys2Proof.Machine
end

