-- ==== Sys2Proof/Machine/Ops.lean ====
section
/-! DEFINITION. The named operations every family uses: entries of a table, bytes and words, the working memory,
the write-back list, the notice list, and one accessor and one update for each record. -/

namespace Sys2Proof.Machine

open Sys2Proof

/-! ## Tables -/

/-- Entry `i` of a table, `d` where there is none. -/
def look {α : Type} {n : Nat} (t : Vector α n) (d : α) (i : Nat) : α :=
  (t[i]?).getD d

/-- A table with entry `i` replaced; unchanged where there is none. -/
def put {α : Type} {n : Nat} (t : Vector α n) (i : Nat) (x : α) : Vector α n :=
  t.setIfInBounds i x

/-- The least number below `n` with a property. -/
def firstBelow (n : Nat) (p : Nat → Bool) : Option Nat :=
  (List.range n).find? p

/-! ## Bytes, halves and words (spec/11) -/

/-- Byte `i` of a word, byte 0 the least significant. -/
def byteAt (w : Word) (i : Nat) : Byte := w.extractLsb' (8 * i) 8

/-- Byte `i` of a word as a number. -/
def byteNat (w : Word) (i : Nat) : Nat := w.toNat / 2 ^ (8 * i) % 256

/-- Bytes 0–1 of a word as a number. -/
def lowHalf (w : Word) : Nat := w.toNat % 65536

/-- Bytes 2–3 of a word as a number. -/
def highHalf (w : Word) : Nat := w.toNat / 65536 % 65536

/-- The two's-complement value of a half (R196). -/
def signedHalf (n : Nat) : Int := (BitVec.ofNat 16 n).toInt

/-- The half that carries a signed value (R196). -/
def halfOfInt (i : Int) : Nat := (BitVec.ofInt 16 i).toNat

/-- The word with these four bytes. -/
def wordOfBytes (b0 b1 b2 b3 : Nat) : Word :=
  BitVec.ofNat 32 (b0 % 256 + 256 * (b1 % 256) + 65536 * (b2 % 256) + 16777216 * (b3 % 256))

/-- The word with these two halves. -/
def wordOfHalves (lo hi : Nat) : Word :=
  BitVec.ofNat 32 (lo % 65536 + 65536 * (hi % 65536))

/-- A word whose enabled bytes are taken from `new` and whose other bytes from `old` (R177, R191). -/
def mergeBytes (old new : Word) (en : Enables) : Word :=
  let pick (i : Nat) : Nat := if en.getLsbD i then byteNat new i else byteNat old i
  wordOfBytes (pick 0) (pick 1) (pick 2) (pick 3)

/-- A signed value brought to the nearer end of −32768..32767 (R135, R147). -/
def clampHalf (i : Int) : Int := max (-32768) (min 32767 i)

/-! ## The working memory (log 2) -/

namespace Memory

/-- What a byte that nothing has written reads as (log 2: DESIGN CHOICE). -/
def unwritten : Byte := 0

/-- One byte. -/
def read : List Host.Cell → Nat → Byte
  | [], _ => unwritten
  | (k, v) :: t, a => if k = a then v else read t a

/-- One byte written, in the canonical form. -/
def write : List Host.Cell → Nat → Byte → List Host.Cell
  | [], a, v => if v = unwritten then [] else [(a, v)]
  | (k, w) :: t, a, v =>
    if a < k then (if v = unwritten then (k, w) :: t else (a, v) :: (k, w) :: t)
    else if a = k then (if v = unwritten then t else (a, v) :: t)
    else (k, w) :: write t a v

/-- The canonical form: addresses strictly rising, and no entry equal to what an unlisted address reads as. -/
def wf : List Host.Cell → Bool
  | [] => true
  | (k, v) :: t => v != unwritten && t.all (fun c => decide (k < c.1)) && wf t

/-- The word at an address: byte i of the word is the byte at the address plus i (log 2). -/
def readWord (m : List Host.Cell) (a : Nat) : Word :=
  wordOfBytes (read m a).toNat (read m (a + 1)).toNat (read m (a + 2)).toNat (read m (a + 3)).toNat

/-- One enabled byte of a word written. -/
def writeByte (m : List Host.Cell) (a : Nat) (en : Enables) (d : Word) (i : Nat) : List Host.Cell :=
  if en.getLsbD i then write m (a + i) (byteAt d i) else m

/-- A word written under its byte enables (R187). -/
def writeMasked (m : List Host.Cell) (a : Nat) (en : Enables) (d : Word) : List Host.Cell :=
  writeByte (writeByte (writeByte (writeByte m a en d 0) a en d 1) a en d 2) a en d 3

/-- A whole word written. -/
def writeWord (m : List Host.Cell) (a : Nat) (d : Word) : List Host.Cell :=
  writeMasked m a 15 d

/-- Words written in order from an address (R189). -/
def writeWords : List Host.Cell → Nat → List Word → List Host.Cell
  | m, _, [] => m
  | m, a, w :: ws => writeWords (writeWord m a w) (a + 4) ws

/-- `n` words read in order from an address. -/
def readWords (m : List Host.Cell) (a n : Nat) : List Word :=
  (List.range n).map fun i => readWord m (a + 4 * i)

end Memory

/-- Word `i` of a record, 0 beyond its end. -/
def wordAt (ws : List Word) (i : Nat) : Word := ws.getD i 0

/-! ## What the STATUS and LANE image records carry -/

/-- The fields of a channel that its carousel record carries (R52). -/
structure ChannelStatus where
  state : ChannelState
  position : Option Nat
  target : Option (Nat × Direction)
  gate : Gate
  queued : Nat
  headCarrier : Option Nat
  headFace : Option Nat
  countPending : Bool
  fenceCause : Option FenceCause
  faultCode : Option Nat
deriving DecidableEq, Repr

/-- The fields of a face that its face record carries (R74). -/
structure FaceStatus where
  state : FaceState
  carrier : Option Nat
  kind : Option PresentationKind
  bays : List (Nat × Option Item)
  held : List Nat
  selected : Option Nat
  desired : Display
deriving DecidableEq, Repr

/-- The fields of a lane that its lane record carries (R149). -/
structure LaneStatus where
  state : LaneState
  weight : Option WeightState
  order : Option Nat
  expected : Int
  tolerance : Nat
  tare : Int
  settled : Option Int
  scale : ScaleState
  timer : Bool
deriving DecidableEq, Repr

/-! ## The write-back list (R189) and the notice list (R179) -/

namespace Store

/-- A changed image record is listed for write-back; a record already listed keeps its place (R189). -/
def list (s : Store) (r : ImageRecord) : Store :=
  if s.writeBack.contains r then s else { s with writeBack := s.writeBack ++ [r] }

/-- Records listed in order. -/
def listAll (s : Store) (rs : List ImageRecord) : Store := rs.foldl list s

/-- A flag raised in a notice list: it merges into the source's pending notice, or a new notice joins the tail (R179). -/
def raiseIn : List Notice → Source → Half → List Notice
  | [], src, f => [⟨src, f⟩]
  | n :: ns, src, f =>
    if n.source = src then ⟨src, n.flags ||| f⟩ :: ns else n :: raiseIn ns src f

/-- A source raises its notice with a flag (R179). -/
def raise (s : Store) (src : Source) (f : Half) : Store :=
  { s with notices := raiseIn s.notices src f }

/-! ## Accessors and updates, one for each record -/

def carrier (s : Store) (r : Nat) : Carrier := look s.carriers Carrier.blank r
def article (s : Store) (a : Nat) : Option Article := look s.articles none a
def channel (s : Store) (n : Nat) : Channel := look s.channels Channel.powerUp n
def face (s : Store) (i : Nat) : Face := look s.faces Face.powerUp i
def panel (s : Store) (p : Nat) : Panel := look s.panels Panel.unfitted p
def order (s : Store) (k : Nat) : Option Order := look s.orders none k
def batch (s : Store) (b : Nat) : BatchRecord := look s.batches .free b
def lane (s : Store) (l : Nat) : Lane := look s.lanes (Lane.powerUp 0) l
def audit (s : Store) (a : Nat) : AuditRecord := look s.audits .free a

/-- The carousel of a slot, its carrier on that carousel, its carrier record and its bay (R1). -/
def slotCarousel (q : Nat) : Nat := q / 72
def slotCarrier (q : Nat) : Nat := q / 3 % 24
def slotRecord (q : Nat) : Nat := q / 3
def slotBay (q : Nat) : Nat := q % 3

/-- Slot `q` (R1). -/
def slot (s : Store) (q : Nat) : Slot := look (s.carrier (slotRecord q)).bays Slot.empty (slotBay q)

/-- A carrier record replaced. -/
def setCarrier (s : Store) (r : Nat) (c : Carrier) : Store := { s with carriers := put s.carriers r c }

/-- A change of a carrier record, listed for write-back (R24). -/
def updCarrier (s : Store) (r : Nat) (f : Carrier → Carrier) : Store :=
  (s.setCarrier r (f (s.carrier r))).list (.carrier r)

/-- A carrier with one of its slots changed. -/
def onBay (b : Nat) (f : Slot → Slot) (c : Carrier) : Carrier :=
  { c with bays := put c.bays b (f (look c.bays Slot.empty b)) }

/-- An article entry replaced and listed for write-back (R24). -/
def setArticle (s : Store) (a : Nat) (x : Option Article) : Store :=
  { s with articles := put s.articles a x }.list (.article a)

/-- What the carousel status record carries of a channel (R52). -/
def statusOf (c : Channel) : ChannelStatus where
  state := c.state
  position := c.position
  target := c.target
  gate := c.gate
  queued := c.queue.length
  headCarrier := c.queue.head?.map (fun e => e.carrier)
  headFace := c.queue.head?.map (fun e => e.face)
  countPending := c.pendingCount.isSome
  fenceCause := c.fenceCause
  faultCode := c.faultCode

/-- A channel replaced, for a rule that lists its record itself, later in its order of effects. -/
def putChannel (s : Store) (n : Nat) (c : Channel) : Store := { s with channels := put s.channels n c }

/-- A channel replaced; a change of anything the carousel record carries lists that record (R52). -/
def setChannel (s : Store) (n : Nat) (c : Channel) : Store :=
  let s' := s.putChannel n c
  if statusOf (s.channel n) = statusOf c then s' else s'.list (.status n)

/-- What the face record carries of a bay list: the number of items, and the head (R74). -/
def bayStatus (items : List Item) : Nat × Option Item := (items.length, items.head?)

/-- What the face record carries of a face (R74). -/
def faceStatus (f : Face) : FaceStatus where
  state := f.state
  carrier := f.carrier
  kind := f.kind
  bays := f.bays.toList.map bayStatus
  held := f.held
  selected := f.selected
  desired := f.desired

/-- A face replaced, for a rule that lists its record itself, later in its order of effects. -/
def putFace (s : Store) (i : Nat) (f : Face) : Store := { s with faces := put s.faces i f }

/-- A face replaced; a change of anything the face record carries lists that record (R74). -/
def setFace (s : Store) (i : Nat) (f : Face) : Store :=
  let s' := s.putFace i f
  if faceStatus (s.face i) = faceStatus f then s' else s'.list (.status (4 + i))

/-- A panel replaced, for a rule that lists the face record itself, later in its order of effects. -/
def putPanel (s : Store) (p : Nat) (x : Panel) : Store := { s with panels := put s.panels p x }

/-- A panel replaced; a change of the line state or of a flag lists the face record (R89). -/
def setPanel (s : Store) (p : Nat) (x : Panel) : Store :=
  let s' := s.putPanel p x
  let old := s.panel p
  if old.line = x.line ∧ old.overrun = x.overrun ∧ old.parity = x.parity ∧ old.framing = x.framing ∧
      old.wrongType = x.wrongType then s' else s'.list (.status (4 + p))

/-- An order record replaced, for a rule that lists it itself, later in its order of effects. -/
def putOrder (s : Store) (k : Nat) (o : Option Order) : Store := { s with orders := put s.orders k o }

/-- An order record replaced and listed for write-back (R117). -/
def setOrder (s : Store) (k : Nat) (o : Option Order) : Store := (s.putOrder k o).list (.order k)

/-- A batch record replaced; the batch table has no image (R131). -/
def setBatch (s : Store) (b : Nat) (x : BatchRecord) : Store := { s with batches := put s.batches b x }

/-- What the lane record carries of a lane (R149). -/
def laneStatus (l : Lane) : LaneStatus where
  state := l.state
  weight := l.weight
  order := l.order
  expected := l.expected
  tolerance := l.tolerance
  tare := l.tare
  settled := l.settled
  scale := l.scale
  timer := l.arrival.isSome

/-- A lane replaced, for a rule that lists its record itself, later in its order of effects. -/
def putLane (s : Store) (l : Nat) (x : Lane) : Store := { s with lanes := put s.lanes l x }

/-- A lane replaced; a change of anything the lane record carries lists that record (R149). -/
def setLane (s : Store) (l : Nat) (x : Lane) : Store :=
  let s' := s.putLane l x
  if laneStatus (s.lane l) = laneStatus x then s' else s'.list (.lane l)

/-- An audit record replaced; the audit list has no image (R169). -/
def setAudit (s : Store) (a : Nat) (x : AuditRecord) : Store := { s with audits := put s.audits a x }

/-- An allocation pass is triggered; it runs once, at the end of the event (R100). -/
def triggerPass (s : Store) : Store := { s with passDue := true }

/-- A reservation of the list, by its number (R14). -/
def reservation (s : Store) (n : Nat) : Option Reservation := s.reservations.find? (fun r => r.number == n)

/-- The state of the reservation with a number changed; it is not written back (R16). -/
def setReservationState (s : Store) (n : Nat) (st : ReservationState) : Store :=
  { s with reservations := s.reservations.map fun r => if r.number == n then { r with state := st } else r }

end Store

end Sys2Proof.Machine
end

