-- ==== Sys2Proof/Machine/Flags.lean ====
section
/-! DEFINITION. The flag bits of the notices (spec/11, Report entries) and the codes of the enumerations, statuses,
request kinds and link bytes (spec/11). -/

namespace Sys2Proof.Machine

open Sys2Proof

namespace Flag

def devicePowerUp : Half := 1
def deviceImageDiscarded : Half := 2
def deviceLinkReset : Half := 4
def pathWriteRefused : Half := 1
def carouselFenced : Half := 1
def carouselHomed : Half := 2
def carouselHeld : Half := 4
def carouselResumed : Half := 8
def carouselGateOpened : Half := 16
def carouselGateClosed : Half := 32
def faceHalted : Half := 1
def faceResumed : Half := 2
def faceSuspended : Half := 4
def laneFree : Half := 1
def laneOccupied : Half := 2
def laneMismatch : Half := 4
def laneMatchRestored : Half := 8
def laneScaleFault : Half := 16
def laneScaleRestored : Half := 32
def orderAdmitted : Half := 1
def orderPassLimit : Half := 2
def orderShort : Half := 4
def orderComplete : Half := 8
def orderAbandoned : Half := 16
def orderFreed : Half := 32
def batchUnplaced : Half := 1
def batchDone : Half := 2
def auditCreated : Half := 1
def auditRestarted : Half := 2
def auditCommitted : Half := 4

end Flag

/-- Whether a flag set carries a flag. -/
def hasFlag (set flag : Half) : Bool := set &&& flag != 0

/-- The statuses of a completion (R174). -/
inductive Status where
  | accepted | partialDone | merged
  | badField | unknownKind | notFound | inUse | unknownArticle | duplicate | tooLarge | noRoom | noSpace
  | wrongState | notFitted | frozen | gateOpen | unsettled | notEmpty
deriving DecidableEq, Repr, Inhabited

namespace Code

/-- The status codes (spec/11). -/
def status : Status → Nat
  | .accepted => 0x00
  | .partialDone => 0x01
  | .merged => 0x02
  | .badField => 0x10
  | .unknownKind => 0x11
  | .notFound => 0x12
  | .inUse => 0x13
  | .unknownArticle => 0x14
  | .duplicate => 0x16
  | .tooLarge => 0x17
  | .noRoom => 0x18
  | .noSpace => 0x19
  | .wrongState => 0x1A
  | .notFitted => 0x1B
  | .frozen => 0x1C
  | .gateOpen => 0x1D
  | .unsettled => 0x1E
  | .notEmpty => 0x1F

/-- The request kinds (R174). -/
def articleDefine : Nat := 0x01
def articleRemove : Nat := 0x02
def receive : Nat := 0x03
def orderOpen : Nat := 0x04
def orderCancel : Nat := 0x05
def audit : Nat := 0x06
def slotBlock : Nat := 0x07
def slotUnblock : Nat := 0x08
def home : Nat := 0x09
def laneAccept : Nat := 0x0A
def laneRelease : Nat := 0x0B
def panelRestart : Nat := 0x0C

/-- The code an absent value takes in a byte field and in a half field (R196). -/
def absentByte : Nat := 0xFF
def absentHalf : Nat := 0xFFFF

def byteOr (o : Option Nat) : Nat := o.getD absentByte
def halfOr (o : Option Nat) : Nat := o.getD absentHalf

/-- A bit of a layout. -/
def bit (b : Bool) : Nat := if b then 1 else 0

def blockReason : Option BlockReason → Nat
  | none => 0
  | some .request => 1
  | some .disputed => 2
  | some .foreign => 3
  | some .imageFault => 4

/-- The block reason a code of the carrier image names, if it names one or none (R26, R196). -/
def blockReasonOf : Nat → Option (Option BlockReason)
  | 0 => some none
  | 1 => some (some .request)
  | 2 => some (some .disputed)
  | 3 => some (some .foreign)
  | 4 => some (some .imageFault)
  | _ => none

def orderState : OrderState → Nat
  | .admitting => 0
  | .active => 1
  | .cancelling => 2
  | .complete => 3
  | .abandoned => 4

def laneState : LaneState → Nat
  | .unsettled => 0
  | .free => 1
  | .occupied => 2
  | .assigned => 3
  | .done => 4
  | .abandoned => 5

def weightState : Option WeightState → Nat
  | none => 0
  | some .matched => 1
  | some .arriving => 2
  | some .mismatch => 3

def channelState : ChannelState → Nat
  | .unhomed => 0
  | .homing => 1
  | .idle => 2
  | .moving => 3
  | .held => 4
  | .fenced => 5

def fenceCause : Option FenceCause → Nat
  | none => 0
  | some .driveFault => 1
  | some .deadline => 2
  | some .unsolicited => 3
  | some .wrongPosition => 4
  | some .homingStopped => 5

def direction : Direction → Nat
  | .forward => 0
  | .back => 1

def gate : Gate → Nat
  | .opened => 0
  | .closed => 1

def faceState : FaceState → Nat
  | .idle => 0
  | .presenting => 1
  | .halted => 2

def presentationKind : Option PresentationKind → Nat
  | none => 0
  | some .work => 1
  | some .count => 3

/-- The head kind of a bay list (spec/11). -/
def headKind : Option ItemRef → Nat
  | none => 0
  | some (.pick _) => 1
  | some (.put _) => 2
  | some (.count _) => 3

def lineState : LineState → Nat
  | .offline => 0
  | .identifying => 1
  | .ready => 2

def entryState : EntryState → Nat
  | .waiting => 0
  | .ready => 1
  | .counting _ => 2

def countStage : EntryState → Nat
  | .counting .requested => 1
  | .counting (.presented _) => 2
  | _ => 0

def stageFace : EntryState → Option Nat
  | .counting (.presented f) => some f
  | _ => none

def displayMode : DisplayMode → Nat
  | .off => 0
  | .pick => 1
  | .put => 2
  | .count => 3

def displayNote : DisplayNote → Nat
  | .blank => 0
  | .wait => 1
  | .fault => 2
  | .count => 3

def reservationKind : Claim → Nat
  | .pick _ _ => 1
  | .put _ => 2

def reservationState : ReservationState → Nat
  | .reserved => 0
  | .queued _ => 1
  | .presented _ => 2

def auditOrigin : AuditOrigin → Nat
  | .request => 0
  | .shortPick => 1
  | .suspect => 2

def bayResult : Option BayResult → Nat
  | none => 0
  | some .verified => 1
  | some (.adjusted _) => 2
  | some .disputed => 3
  | some .foreign => 4

def identStep : Option IdentStep → Nat
  | none => 0
  | some .awaitAck => 1
  | some .awaitIdent => 2
  | some .awaitRepeatAck => 3

def pendingMessage : PendingMessage → Nat
  | .none => 0
  | .breakPrefix => 1
  | .ident => 2

/-- The key codes (spec/11, Panel link bytes). -/
def key : Key → Nat
  | .bay0 => 0x01
  | .bay1 => 0x02
  | .bay2 => 0x03
  | .plus => 0x04
  | .minus => 0x05

/-- The key a byte names, if it is a key code. -/
def keyOf (b : Byte) : Option Key :=
  if b = 0x01 then some .bay0
  else if b = 0x02 then some .bay1
  else if b = 0x03 then some .bay2
  else if b = 0x04 then some .plus
  else if b = 0x05 then some .minus
  else none

/-- A key event in the holder (spec/11): a break has bit 7 set. -/
def keyEvent : Option KeyEvent → Nat
  | none => 0
  | some e => key e.key + (if e.make then 0 else 128)

/-- The response bytes, the break prefix and the three-bay panel type (spec/11). -/
def byteAck : Byte := 0xE0
def byteNak : Byte := 0xE1
def byteIdent : Byte := 0xE2
def byteBreak : Byte := 0xF0
def threeBayType : Byte := 0x31

/-- Whether a byte is a parameter byte (spec/11: 0x00–0xBF). -/
def isParameter (b : Byte) : Bool := b.toNat ≤ 0xBF

/-- The command byte of a panel command (spec/11). -/
def panelCommand : PanelCommand → Byte
  | .identify => 0xC1
  | .enable => 0xC2
  | .halt => 0xC3
  | .showBay _ _ => 0xC4
  | .note _ => 0xC5
  | .repeatTiming _ => 0xC6

/-- The parameter bytes of a panel command in the order sent (spec/11); 0x7F for no lane. -/
def panelParameters : PanelCommand → List Byte
  | .identify => []
  | .enable => []
  | .halt => []
  | .showBay b d =>
    [BitVec.ofNat 8 b, BitVec.ofNat 8 (displayMode d.mode), BitVec.ofNat 8 d.quantity,
      BitVec.ofNat 8 (d.lane.getD 0x7F)]
  | .note n => [BitVec.ofNat 8 (displayNote n)]
  | .repeatTiming c => [c]

/-- The bytes of a panel command: its command byte and its parameter bytes in one run (R76). -/
def panelBytes (c : PanelCommand) : List Byte := panelCommand c :: panelParameters c

end Code

end Sys2Proof.Machine
end

