-- ==== Sys2Proof/Machine/Operands.lean ====
section
/-! DEFINITION. Reading the operands: the configuration block, the article and carrier images, the request entries
(all from memory words, spec/11) and the messages of the drive links (R197). -/

namespace Sys2Proof.Machine

open Sys2Proof

/-! ## The configuration block (spec/11) -/

/-- The carousel place `n` of the configuration block. -/
def carouselConfigOf (ws : List Word) (n : Nat) : CarouselConfig :=
  let a := wordAt ws (10 + n)
  let t := wordAt ws (14 + n)
  { fitted := (byteNat (wordAt ws 9) 0).testBit n
    bayDepth := byteNat a 0
    sizeClasses := #v[byteNat a 1 % 8, byteNat a 1 / 8 % 8, byteNat a 2 % 8]
    stepTime := lowHalf t
    settleAllowance := highHalf t }

/-- The lane place `l` of the configuration block; capacity and tare 0 where it is not fitted (R134). -/
def laneConfigOf (ws : List Word) (l : Nat) : LaneConfig :=
  if (highHalf (wordAt ws 9)).testBit l then
    ⟨true, byteNat (wordAt ws (20 + l)) 0, signedHalf (highHalf (wordAt ws (20 + l)))⟩
  else Configuration.blankLane

/-- The values of the configuration block. -/
def configurationOf (ws : List Word) : Configuration where
  bases := Vector.ofFn fun i : Fin 8 => (wordAt ws (1 + i.val)).toNat
  carousels := Vector.ofFn fun i : Fin 4 => carouselConfigOf ws i.val
  loadLimit := lowHalf (wordAt ws 18)
  imbalanceLimit := highHalf (wordAt ws 18)
  panelRate := byteNat (wordAt ws 19) 0
  repeatByte := byteAt (wordAt ws 19) 1
  lanes := Vector.ofFn fun i : Fin 16 => laneConfigOf ws i.val
  scanInterval := lowHalf (wordAt ws 36)
  settleBand := byteNat (wordAt ws 36) 2
  emptyThreshold := byteNat (wordAt ws 36) 3
  arrivalWindow := byteNat (wordAt ws 37) 0
  attention := byteNat (wordAt ws 37) 1

/-- Whether a value lies in a range. -/
def inRange (lo hi v : Nat) : Bool := lo ≤ v && v ≤ hi

/-- Whether the spans [a, a+m) and [b, b+n) have a byte in common. -/
def spansMeet (a m b n : Nat) : Bool := a < b + n && b < a + m

/-- The window bases are aligned, no two windows overlap, and none covers a byte of the configuration block (R185, R193). -/
def windowsSound (c : Configuration) : Bool :=
  (Config.windows.all fun w => c.base w % Config.windowAlignment w == 0) &&
  (Config.windows.all fun w => Config.windows.all fun v =>
    w == v || !spansMeet (c.base w) (Config.windowSize w) (c.base v) (Config.windowSize v)) &&
  (Config.windows.all fun w =>
    !spansMeet (c.base w) (Config.windowSize w) Config.blockAddress Config.blockSize)

/-- A fitted carousel's values lie in their ranges (R3, R27). -/
def carouselSound (c : CarouselConfig) : Bool :=
  !c.fitted || (inRange 1 12 c.bayDepth && inRange 2 50 c.stepTime && inRange 5 100 c.settleAllowance &&
    c.sizeClasses.toList.all (fun k => inRange 0 7 k))

/-- A fitted lane's values lie in their ranges (R132); every half is a tare offset. -/
def laneSound (l : LaneConfig) : Bool := !l.fitted || inRange 4 32 l.capacity

/-- The checks of the configuration block (R193). -/
def configurationSound (ws : List Word) : Bool :=
  let c := configurationOf ws
  byteNat (wordAt ws 0) 0 == Config.blockFormat &&
  windowsSound c &&
  c.carousels.toList.any (fun k => k.fitted) && c.lanes.toList.any (fun l => l.fitted) &&
  c.carousels.toList.all carouselSound && c.lanes.toList.all laneSound &&
  inRange 1 6000 c.loadLimit && inRange 0 6000 c.imbalanceLimit &&
  inRange 0 1 c.panelRate && inRange 0 63 c.repeatByte.toNat &&
  inRange 50 1000 c.scanInterval && inRange 1 50 c.settleBand && inRange 0 200 c.emptyThreshold &&
  inRange 2 60 c.arrivalWindow && inRange 0 1 c.attention

/-! ## The images loaded at power-up (R25, R26) -/

/-- The article entry an article image record gives (R25): UNDEFINED when its change counts differ or a DEFINED
record has a value outside its range. -/
def articleOf (ws : List Word) : Option Article :=
  let w0 := wordAt ws 0
  let w2 := wordAt ws 2
  if byteNat w0 0 ≠ byteNat (wordAt ws 3) 0 then none
  else if !(byteNat w0 1).testBit 0 then none
  else if inRange 0 7 (byteNat w0 2) && inRange 1 1000 (lowHalf w2) && inRange 0 100 (byteNat w2 2) then
    some ⟨wordAt ws 1, byteNat w0 2, lowHalf w2, byteNat w2 2⟩
  else none

/-- Whether a carrier image record was being written when power was lost: its change counts differ (R26). -/
def carrierTorn (ws : List Word) : Bool := byteNat (wordAt ws 0) 0 != byteNat (wordAt ws 15) 0

/-- The slot of bay `b` in a carrier image record, or none where the record is faulty there (R26; a code outside its
table is a value outside its range, R196, log 25). `defined` says which articles the loaded table defines. -/
def slotOf (depth : Nat) (defined : Nat → Bool) (ws : List Word) (b : Nat) : Option Slot :=
  let a := wordAt ws (2 + 4 * b)
  let w := wordAt ws (3 + 4 * b)
  let count := byteNat (wordAt ws (4 + 4 * b)) 0
  let article := if highHalf a = Code.absentHalf then none else some (highHalf a)
  if byteNat a 0 > 1 then none
  else if count > depth then none
  else if (article.map defined).getD true = false then none
  else if count > 0 ∧ article = none then none
  else
    match Code.blockReasonOf (byteNat a 1) with
    | none => none
    | some reason =>
      if count = 0 then some { Slot.empty with blockReason := reason }
      else some ⟨reason, article, if w.toNat.testBit 16 then some (lowHalf w) else none, count, 0, 0⟩

/-! ## Request entries (spec/11) -/

namespace Req

/-- Word 0: the kind code and the format code. -/
def kind (ws : List Word) : Nat := byteNat (wordAt ws 0) 1
def format (ws : List Word) : Nat := byteNat (wordAt ws 0) 2
/-- Word 1: the processor's tag. -/
def tag (ws : List Word) : Word := wordAt ws 1
/-- A parameter that is a whole word, as its unsigned value (R196). -/
def whole (ws : List Word) (i : Nat) : Nat := (wordAt ws i).toNat
/-- A parameter in a byte of a word. -/
def byte (ws : List Word) (i b : Nat) : Nat := byteNat (wordAt ws i) b

/-- One line descriptor of ORDER_OPEN, words 4–11. -/
def line (ws : List Word) (l : Nat) : Line :=
  let w := wordAt ws (4 + l)
  ⟨lowHalf w, byteNat w 2, (byteNat w 3).testBit 0, 0, 0, none⟩

/-- The line descriptors up to the line count; those beyond it are not read (R93). -/
def lines (ws : List Word) : List Line := (List.range (byte ws 3 1)).map (line ws)

/-- Word 0 as the give-back writes it: OWNER 0, the kind code and the format code as read (R175). -/
def giveBack (ws : List Word) : Word := wordOfBytes 0 (kind ws) (format ws) 0

end Req

/-! ## The drive link (R197) -/

/-- A report of a drive (R40). -/
inductive DriveReport where
  | arrived (position : Nat)
  | stopped (position : Nat)
  | homed
  | fault (code : Nat)
deriving DecidableEq, Repr

/-- The kind bytes and the check byte of the drive link (R197). -/
def driveKindMove : Byte := 0xA1
def driveKindHome : Byte := 0xA2
def driveKindArrived : Byte := 0xB1
def driveKindStopped : Byte := 0xB2
def driveKindHomed : Byte := 0xB3
def driveKindFault : Byte := 0xB4
def driveCheck (kind parameter : Byte) : Byte := kind ^^^ parameter ^^^ 0x5A

/-- A drive link message: kind, parameter and check byte (R197). -/
def driveMessage (kind parameter : Byte) : List Byte := [kind, parameter, driveCheck kind parameter]

/-- The report a message with a good check byte makes, or none where it is discarded (R197). -/
def driveReport (kind parameter : Byte) : Option DriveReport :=
  let v := parameter.toNat
  if kind = driveKindArrived then (if v ≤ 23 then some (.arrived v) else none)
  else if kind = driveKindStopped then (if v ≤ 23 then some (.stopped v) else none)
  else if kind = driveKindHomed then some .homed
  else if kind = driveKindFault then (if 1 ≤ v ∧ v ≤ 15 then some (.fault v) else none)
  else none

/-- One byte gathered into the window of up to three bytes (R197): the window after it, and the report it completes. -/
def driveGather (window : List Byte) (b : Byte) : List Byte × Option DriveReport :=
  match window ++ [b] with
  | [k, p, c] => if c = driveCheck k p then ([], driveReport k p) else ([p, c], none)
  | w => (w, none)

/-- Whether a run of bytes, from a given window, completes no report. -/
def driveSilent : List Byte → List Byte → Bool
  | _, [] => true
  | w, b :: bs => (driveGather w b).2.isNone && driveSilent (driveGather w b).1 bs

/-- The MOVE command: the target position in bits 0–4 and bit 7 set for BACK (R197). -/
def moveMessage (target : Nat) (d : Direction) : List Byte :=
  driveMessage driveKindMove (BitVec.ofNat 8 (target + (if d = .back then 128 else 0)))

/-- The HOME command, with parameter 0 (R197). -/
def homeMessage : List Byte := driveMessage driveKindHome 0

end Sys2Proof.Machine
end

