-- ==== Sys2Proof/Machine/Stock.lean ====
section
/-! DEFINITION. The Stock Map's own records: loads, eligibility, slot changes and the reservation list (R2 to R6, R14). -/

namespace Sys2Proof.Machine

open Sys2Proof

/-- A slot whose count + incoming is 0 is EMPTY, with article and lot week absent (R2). -/
def Slot.settle (q : Slot) : Slot :=
  if q.count + q.incoming = 0 then { q with article := none, lotWeek := none } else q

namespace Store

/-- The nominal weight of an article, 0 where it is UNDEFINED. -/
def weightOf (s : Store) (a : Nat) : Nat := ((s.article a).map fun x => x.weight).getD 0

/-- The per-tyre tolerance of an article, 0 where it is UNDEFINED. -/
def toleranceOf (s : Store) (a : Nat) : Nat := ((s.article a).map fun x => x.tolerance).getD 0

/-- What one slot adds to its carrier's load (R5). -/
def slotLoad (s : Store) (q : Slot) : Nat :=
  (q.count + q.incoming) * ((q.article.map s.weightOf).getD 0)

/-- A carrier's load: the sum over its three bays (R5). -/
def loadOf (s : Store) (c : Carrier) : Nat := (c.bays.toList.map s.slotLoad).sum

/-- A carrier with its load recomputed (R5). -/
def reload (s : Store) (c : Carrier) : Carrier := { c with load := s.loadOf c }

/-- A change of a slot's article, lot week, count, reserved or incoming: the slot settles (R2), the load is
recomputed (R5) and the carrier record is listed (R24). -/
def changeSlot (s : Store) (q : Nat) (f : Slot → Slot) : Store :=
  s.updCarrier (slotRecord q) fun c => s.reload (onBay (slotBay q) (fun x => (f x).settle) c)

/-- A slot's block reason set or cleared (R7). -/
def setReason (s : Store) (q : Nat) (reason : Option BlockReason) : Store :=
  s.updCarrier (slotRecord q) (onBay (slotBay q) fun x => { x with blockReason := reason })

/-- The carrier record number of a carrier of a carousel (R1). -/
def recordOf (n c : Nat) : Nat := n * 24 + c

/-- Whether a carousel place is fitted. -/
def fitted (s : Store) (n : Nat) : Bool := (s.cfg.carousel n).fitted

/-- Whether a carousel is in service: IDLE, MOVING or HELD (R29). -/
def inService (s : Store) (n : Nat) : Bool :=
  match (s.channel n).state with
  | .idle => true
  | .moving => true
  | .held => true
  | .unhomed => false
  | .homing => false
  | .fenced => false

/-- Whether a slot is eligible for new claims (R6). -/
def eligible (s : Store) (q : Nat) : Bool :=
  let c := s.carrier (slotRecord q)
  (s.slot q).blockReason.isNone && !c.frozen && !c.suspect && s.inService (slotCarousel q)

/-- The bay depth of a slot's carousel (R3). -/
def depthOf (s : Store) (q : Nat) : Nat := (s.cfg.carousel (slotCarousel q)).bayDepth

/-- Whether an article fits the bay of a slot (R3). -/
def fits (s : Store) (a q : Nat) : Bool :=
  match s.article a with
  | some x => x.sizeClass ≤ s.cfg.maxClass (slotCarousel q) (slotBay q)
  | none => false

/-- Whether any slot holds an article (R11). -/
def articleHeld (s : Store) (a : Nat) : Bool :=
  s.carriers.toList.any fun c => c.bays.toList.any fun q => q.article == some a

/-- Whether a line of an order not yet freed names an article (R11). -/
def articleOrdered (s : Store) (a : Nat) : Bool :=
  s.orders.toList.any fun o => o.any fun x => x.lines.any fun l => l.article == a

/-- Whether a batch of the batch table names an article (R11, R118: an OPEN record is one). -/
def articleBatched (s : Store) (a : Nat) : Bool :=
  s.batches.toList.any fun b =>
    match b with
    | .opened x => x.article == a
    | .free => false
    | .done _ => false

/-- Whether an article is in use (R11). -/
def articleInUse (s : Store) (a : Nat) : Bool :=
  s.articleHeld a || s.articleOrdered a || s.articleBatched a

/-! ## The reservation list (R14) -/

/-- The lowest number no entry of the list holds (R14). -/
def freeNumber (s : Store) : Nat :=
  (firstBelow Config.reservationCapacity fun n => s.reservations.all fun r => r.number != n).getD 0

/-- The reservations on a carrier's three slots, in list order. -/
def onCarrier (s : Store) (r : Nat) : List Reservation :=
  s.reservations.filter fun x => slotRecord x.slot == r

/-- The reservations on a carousel's slots, in list order. -/
def onCarousel (s : Store) (n : Nat) : List Reservation :=
  s.reservations.filter fun x => slotCarousel x.slot == n

/-- An entry removed from the list. -/
def dropReservation (s : Store) (num : Nat) : Store :=
  { s with reservations := s.reservations.filter fun r => r.number != num }

/-- A carrier's FACE_OPEN mark set or cleared (R8). -/
def markFaceOpen (s : Store) (r : Nat) (v : Bool) : Store := s.updCarrier r fun c => { c with faceOpen := v }

/-- A carrier's frozen flag set or cleared (R8). -/
def setFrozen (s : Store) (r : Nat) (v : Bool) : Store := s.updCarrier r fun c => { c with frozen := v }

/-- A carrier marked AUDIT_WANTED (R10). -/
def markWanted (s : Store) (r : Nat) : Store := s.updCarrier r fun c => { c with auditWanted := true }

end Store

end Sys2Proof.Machine
end

