-- ==== Sys2Proof/Machine/Presentations.lean ====
section
/-! DEFINITION. The desired display (R70 to R72), and the opening and joining of presentations (R56 to R59) with what
the Audit Unit records of an opened count (R159). -/

namespace Sys2Proof.Machine

open Sys2Proof

namespace Store

/-- The face index of face `f` of carousel `n` (spec/03). -/
def faceIndex (n f : Nat) : Nat := n * 2 + f

/-! ## The desired display -/

/-- The lane of the order a PICK reservation names (R71). -/
def laneOfPick (s : Store) (num : Nat) : Option Nat :=
  match s.reservation num with
  | none => none
  | some r =>
    match r.claim with
    | .pick k _ => (s.order k).bind fun o => o.lane
    | .put _ => none

/-- The bay display of a bay list (R71). -/
def bayDisplayOf (s : Store) (items : List Item) : BayDisplay :=
  match items.head? with
  | none => BayDisplay.off
  | some it =>
    match it.ref with
    | .pick num => ⟨.pick, it.displayed, s.laneOfPick num⟩
    | .put _ => ⟨.put, it.displayed, none⟩
    | .count _ => ⟨.count, it.displayed, none⟩

/-- The note from the carousel state and the presentation kind (R70). -/
def noteOf (st : ChannelState) (kind : Option PresentationKind) : DisplayNote :=
  match st with
  | .unhomed => .fault
  | .homing => .fault
  | .fenced => .fault
  | .moving => .wait
  | .held => .wait
  | .idle => if kind = some .count then .count else .blank

/-- The desired display record of face index `i` (R70, R71). -/
def desiredOf (s : Store) (i : Nat) : Display :=
  let f := s.face i
  let presenting := f.state == .presenting
  let bay (b : Nat) : BayDisplay := if presenting then s.bayDisplayOf (look f.bays [] b) else BayDisplay.off
  { enabled := s.inService (i / 2)
    note := noteOf (s.channel (i / 2)).state (if presenting then f.kind else none)
    bays := #v[bay 0, bay 1, bay 2] }

/-- The desired display record of a face derived anew (R70). -/
def derive (s : Store) (i : Nat) : Store := s.setFace i { s.face i with desired := s.desiredOf i }

/-- Both faces of a carousel derived anew, face 0 first (DESIGN CHOICE, log 6): the channel tells every change of its
state (R70). -/
def deriveBoth (s : Store) (n : Nat) : Store := (s.derive (faceIndex n 0)).derive (faceIndex n 1)

/-- A channel replaced; a change of its state derives both faces' displays (R70). -/
def changeChannel (s : Store) (n : Nat) (c : Channel) : Store :=
  let s' := s.setChannel n c
  if (s.channel n).state = c.state then s' else s'.deriveBoth n

/-! ## Items (R55) -/

/-- The item of a reservation, with its starting displayed quantity (R55). -/
def itemOf (r : Reservation) : Item :=
  match r.claim with
  | .pick _ _ => ⟨.pick r.number, some r.quantity, r.quantity⟩
  | .put _ => ⟨.put r.number, some r.quantity, r.quantity⟩

/-- The COUNT item of an audit entry (R55, R57). -/
def countItem (a : Nat) : Item := ⟨.count a, none, 0⟩

/-- The items of handed reservations in bay `b`, by creation order (R56). -/
def itemsOf (s : Store) (nums : List Nat) (b : Nat) : List Item :=
  (s.reservations.filter fun r => nums.contains r.number && slotBay r.slot == b).map itemOf

/-- The place of a reservation in the list, which is its creation order (R14). -/
def ageOf (s : Store) (num : Nat) : Nat := s.reservations.findIdx fun r => r.number == num

/-- The age of an item behind a head (R55). -/
def itemAge (s : Store) (it : Item) : Nat :=
  match it.ref with
  | .pick n => s.ageOf n
  | .put n => s.ageOf n
  | .count _ => 0

/-- A joining item placed: at the head of an empty list, else behind the head by creation order (R58). -/
def joinItems (s : Store) (it : Item) : List Item → List Item
  | [] => [it]
  | h :: t =>
    let older := fun x => decide (s.itemAge x < s.itemAge it)
    h :: (t.takeWhile older ++ it :: t.dropWhile older)

/-! ## Opening (R56, R57, R159) and joining (R58) -/

/-- Reservations recorded as PRESENTED with a face (R16). -/
def presentAll (s : Store) (nums : List Nat) (f : Nat) : Store :=
  nums.foldl (fun s n => s.setReservationState n (.presented f)) s

/-- A WORK presentation opens on carrier `c` at face `f` of carousel `n` (R56). -/
def openWork (s : Store) (n f c : Nat) (nums : List Nat) : Store :=
  let i := faceIndex n f
  let s1 := s.putFace i { s.face i with
    state := .presenting, carrier := some c, kind := some .work, held := [], selected := none
    bays := #v[s.itemsOf nums 0, s.itemsOf nums 1, s.itemsOf nums 2] }
  let s2 := s1.presentAll nums f
  let s3 := s2.markFaceOpen (recordOf n c) true
  (s3.derive i).list (.status (4 + i))

/-- The count of an audit entry is presented at a face: its stage, and the book count of each bay (R159). -/
def auditPresented (s : Store) (a f : Nat) : Store :=
  match s.audit a with
  | .listed e =>
    let r := recordOf e.carousel e.carrier
    let bay (b : Nat) : BayCount := ⟨some (s.slot (r * 3 + b)).count, [], none⟩
    s.setAudit a (.listed { e with state := .counting (.presented f), bays := #v[bay 0, bay 1, bay 2] })
  | .free => s
  | .committed _ => s

/-- A COUNT presentation opens on carrier `c` for audit entry `a` (R57). -/
def openCount (s : Store) (n f c a : Nat) : Store :=
  let i := faceIndex n f
  let s1 := s.putFace i { s.face i with
    state := .presenting, carrier := some c, kind := some .count, held := [], selected := none
    bays := #v[[countItem a], [countItem a], [countItem a]] }
  let s2 := s1.markFaceOpen (recordOf n c) true
  let s3 := s2.auditPresented a f
  (s3.derive i).list (.status (4 + i))

/-- A reservation joins the presentation open at face `f` of carousel `n` (R58). -/
def join (s : Store) (n f : Nat) (r : Reservation) : Store :=
  let i := faceIndex n f
  let fc := s.face i
  let items := look fc.bays [] (slotBay r.slot)
  let s1 := s.putFace i { fc with bays := put fc.bays (slotBay r.slot) (s.joinItems (itemOf r) items) }
  let s2 := s1.setReservationState r.number (.presented f)
  let s3 := if items = [] then s2.derive i else s2
  s3.list (.status (4 + i))

end Store

end Sys2Proof.Machine
end

