-- ==== Sys2Proof/Machine/Motion.lean ====
section
/-! DEFINITION. The Motion Controller's queue: geometry (R28), placement (R31 to R34), removal (R35), the faces of
entries (R36) and service (R37, R38, R40). -/

namespace Sys2Proof.Machine

open Sys2Proof

/-! ## Geometry (R28) -/

/-- The position at which carrier `c` is shown at face `f` (R28). -/
def targetOf (c f : Nat) : Nat := (c + 24 - 12 * f) % 24

/-- The carrier shown at face `f` at a position (R28). -/
def shownAt (p f : Nat) : Nat := (p + 12 * f) % 24

/-- The travel from a position to a target: its steps and its direction (R28; no direction is used for 0 steps). -/
def travel (p t : Nat) : Nat × Direction :=
  let d := (t + 24 - p) % 24
  if d ≤ 12 then (d, .forward) else (24 - d, .back)

/-- The reference position: where the channel will next stand (R28). -/
def referencePosition (c : Channel) : Nat :=
  match c.state with
  | .moving => ((c.target.map Prod.fst).orElse fun _ => c.position).getD 0
  | _ => c.position.getD 0

namespace Store

/-- Whether face `f` of carousel `n` is HALTED. -/
def faceHalted (s : Store) (n f : Nat) : Bool := (s.face (faceIndex n f)).state == .halted

/-- Whether face `f` of carousel `n` has a presentation open. -/
def facePresenting (s : Store) (n f : Nat) : Bool := (s.face (faceIndex n f)).state == .presenting

/-- The face of a new queue entry for carrier `c` (R32). -/
def chooseFace (s : Store) (n c : Nat) : Option Nat :=
  let p := referencePosition (s.channel n)
  let steps (f : Nat) : Nat := (travel p (targetOf c f)).1
  if s.faceHalted n 0 then (if s.faceHalted n 1 then none else some 1)
  else if s.faceHalted n 1 then some 0
  else if steps 0 ≤ steps 1 then some 0 else some 1

/-- The face at which carrier `c` is being presented (R31). -/
def faceShowing (s : Store) (n c : Nat) : Option Nat :=
  firstBelow 2 fun f => s.facePresenting n f && (s.face (faceIndex n f)).carrier == some c

/-! ## Placement (R31, R34) -/

/-- Whether a queue entry is the one a reservation on carrier `c` attaches to (R31). -/
def attachable (c : Nat) (e : QueueEntry) : Bool :=
  e.carrier == c && (match e.work with
    | .reservations _ => true
    | .count _ => false)

/-- A queue entry with one more attached reservation, the last (R31). -/
def attach (num : Nat) (e : QueueEntry) : QueueEntry :=
  match e.work with
  | .reservations ns => { e with work := .reservations (ns ++ [num]) }
  | .count _ => e

/-- The first entry with a property, replaced. -/
def replaceFirst (p : QueueEntry → Bool) (g : QueueEntry → QueueEntry) : List QueueEntry → List QueueEntry
  | [] => []
  | e :: es => if p e then g e :: es else e :: replaceFirst p g es

/-- A new entry at the tail of a queue. -/
def enqueue (s : Store) (n : Nat) (e : QueueEntry) : Store :=
  let c := s.channel n
  s.setChannel n { c with queue := c.queue ++ [e] }

/-- A RESERVED reservation tried (R31), and whether a new queue entry was made. -/
def placeCore (s : Store) (num : Nat) : Store × Bool :=
  match s.reservation num with
  | none => (s, false)
  | some r =>
    if r.state ≠ .reserved then (s, false)
    else
      let n := slotCarousel r.slot
      let c := slotCarrier r.slot
      let ch := s.channel n
      match s.faceShowing n c with
      | some f => (s.join n f r, false)
      | none =>
        match ch.queue.find? (attachable c) with
        | some e =>
          ((s.setChannel n { ch with queue := replaceFirst (attachable c) (attach num) ch.queue }).setReservationState
            num (.queued e.face), false)
        | none =>
          if ch.queue.length < Config.queueCapacity then
            match s.chooseFace n c with
            | some f =>
              ((s.enqueue n ⟨c, f, .reservations [num]⟩).setReservationState num (.queued f), true)
            | none => (s, false)
          else (s, false)

/-- A count request tried: a count entry at the tail, or the pending count (R34), and whether an entry was made. -/
def countCore (s : Store) (n a c : Nat) : Store × Bool :=
  let ch := s.channel n
  if ch.queue.length < Config.queueCapacity then
    match s.chooseFace n c with
    | some f => (s.setChannel n { ch with queue := ch.queue ++ [⟨c, f, .count a⟩], pendingCount := none }, true)
    | none => (s.setChannel n { ch with pendingCount := some (a, c) }, false)
  else (s.setChannel n { ch with pendingCount := some (a, c) }, false)

/-- The RESERVED reservations on a carousel's slots, in list order (R33). -/
def reservedOn (s : Store) (n : Nat) : List Nat :=
  ((s.onCarousel n).filter fun r => r.state == .reserved).map fun r => r.number

/-- A placement retry while presentations are open, so that no service can start (R33, R38). -/
def retryCore (s : Store) (n : Nat) : Store :=
  let s1 := match (s.channel n).pendingCount with
    | some (a, c) => (s.countCore n a c).1
    | none => s
  (s1.reservedOn n).foldl (fun s num => (s.placeCore num).1) s1

/-! ## Service (R37, R38, R40) -/

/-- Whether an entry is satisfied at face `f` at position `p` (R38). -/
def satisfied (s : Store) (n p f : Nat) (e : QueueEntry) : Bool :=
  e.face == f && e.carrier == shownAt p f && !s.faceHalted n f

/-- The satisfied entry of face `f` served, and whether there was one (R38). -/
def serveFace (s : Store) (n p f : Nat) : Store × Bool :=
  let ch := s.channel n
  match ch.queue.find? (s.satisfied n p f) with
  | none => (s, false)
  | some e =>
    let s1 := s.setChannel n { ch with queue := ch.queue.eraseP (s.satisfied n p f) }
    match e.work with
    | .reservations ns => (s1.openWork n f e.carrier ns, true)
    | .count a => (s1.openCount n f e.carrier a, true)

/-- The entries satisfied at a position served, face 0 first, then one placement retry (R38). -/
def serveAt (s : Store) (n p : Nat) : Store :=
  let x := s.serveFace n p 0
  let y := x.1.serveFace n p 1
  if x.2 || y.2 then y.1.retryCore n else y.1

/-- Whether service may start (R37). -/
def mayServe (s : Store) (n : Nat) : Bool :=
  let ch := s.channel n
  ch.state == .idle && ch.gate == .closed && !s.facePresenting n 0 && !s.facePresenting n 1 &&
    (match ch.queue.head? with
      | some e => !s.faceHalted n e.face
      | none => false)

/-- MOVE sent toward a target (R40): deadline steps × step time + settle allowance, state MOVING. -/
def sendMove (s : Store) (n p t : Nat) : Store :=
  let tr := travel p t
  let cc := s.cfg.carousel n
  s.changeChannel n { s.channel n with
    state := .moving, target := some (t, tr.2), deadline := some (tr.1 * cc.stepTime + cc.settleAllowance)
    sent := moveMessage t tr.2 }

/-- The service check made at each service event (R37). -/
def serviceCheck (s : Store) (n : Nat) : Store :=
  if s.mayServe n then
    match (s.channel n).queue.head? with
    | none => s
    | some e =>
      let p := (s.channel n).position.getD 0
      let t := targetOf e.carrier e.face
      if p = t then s.serveAt n p else s.sendMove n p t
  else s

/-- The service check after an operation that may have made a new queue entry (R31, R37). -/
def serviceAfter (x : Store × Bool) (n : Nat) : Store := if x.2 then x.1.serviceCheck n else x.1

/-- A reservation placed (R31). -/
def place (s : Store) (num : Nat) : Store :=
  match s.reservation num with
  | none => s
  | some r => serviceAfter (s.placeCore num) (slotCarousel r.slot)

/-- A count request taken by a channel (R34). -/
def countRequest (s : Store) (n a c : Nat) : Store := serviceAfter (s.countCore n a c) n

/-- A placement retry (R33). -/
def retry (s : Store) (n : Nat) : Store :=
  let s1 := match (s.channel n).pendingCount with
    | some (a, c) => s.countRequest n a c
    | none => s
  (s1.reservedOn n).foldl place s1

/-! ## Removal (R35) -/

/-- A released reservation taken off a queue entry; an entry left with none is removed (R35). -/
def detachFrom (num : Nat) : List QueueEntry → List QueueEntry
  | [] => []
  | e :: es =>
    match e.work with
    | .count _ => e :: detachFrom num es
    | .reservations ns =>
      if ns.contains num then
        if ns.filter (· != num) = [] then es
        else { e with work := .reservations (ns.filter (· != num)) } :: es
      else e :: detachFrom num es

/-- A QUEUED reservation detached, and whether its entry was removed (R17, R35). -/
def detach (s : Store) (n num : Nat) : Store × Bool :=
  let ch := s.channel n
  let q := detachFrom num ch.queue
  (s.setChannel n { ch with queue := q }, q.length < ch.queue.length)

/-- What follows the removal of an entry: a retry, and the service check (R33, R35, R37). -/
def afterRemoval (s : Store) (n : Nat) : Store := (s.retry n).serviceCheck n

/-! ## The faces of entries (R36) -/

/-- Every entry of face `f` given to face `g`, with its reservations (R36). -/
def moveEntries (s : Store) (n f g : Nat) : Store :=
  let ch := s.channel n
  let moved := ch.queue.filter fun e => e.face == f
  let s1 := s.setChannel n { ch with queue := ch.queue.map fun e => if e.face == f then { e with face := g } else e }
  moved.foldl (fun s e =>
    match e.work with
    | .reservations ns => ns.foldl (fun s num => s.setReservationState num (.queued g)) s
    | .count _ => s) s1

/-- The other face of a carousel. -/
def otherFace (f : Nat) : Nat := 1 - f

/-- The channel is told that face `f` has become HALTED (R36). -/
def tellHalted (s : Store) (n f : Nat) : Store :=
  if s.faceHalted n (otherFace f) then s else s.moveEntries n f (otherFace f)

/-- The channel is told that face `f` has left HALTED (R36). -/
def tellWorking (s : Store) (n f : Nat) : Store :=
  let s1 := if s.faceHalted n (otherFace f) then s.moveEntries n (otherFace f) f else s
  (s1.retry n).serviceCheck n

end Store

end Sys2Proof.Machine
end

