-- ==== Sys2Proof/Machine/AuditUnit.lean ====
section
/-! DEFINITION. The Audit Unit: creation, promotion, drain, the counting check, the recount rule, the commit and the
breaking off of counts (R154 to R166, R21). -/

namespace Sys2Proof.Machine

open Sys2Proof

/-- How an audit request was taken (R154): merged into an entry, an entry created, or no record FREE. -/
inductive AuditAnswer where
  | merged (index : Nat)
  | created (index : Nat)
  | full
deriving DecidableEq, Repr

namespace Store

/-- The entry of an audit record in the list. -/
def entry (s : Store) (a : Nat) : Option AuditEntry :=
  match s.audit a with
  | .listed e => some e
  | .free => none
  | .committed _ => none

/-- Whether an entry is of a carrier. -/
def entryFor (s : Store) (r : Nat) (a : Nat) : Bool :=
  match s.entry a with
  | some e => recordOf e.carousel e.carrier == r
  | none => false

/-- The audit entry of a carrier, if it has one (R152: at most one). -/
def entryOf (s : Store) (r : Nat) : Option Nat := s.auditList.find? (s.entryFor r)

/-- The lowest-numbered FREE audit record (R154). -/
def freeAudit (s : Store) : Option Nat := firstBelow 16 fun a => s.audit a == .free

/-- Whether an entry of a carousel is in a state. -/
def entryIn (s : Store) (n : Nat) (p : EntryState → Bool) (a : Nat) : Bool :=
  match s.entry a with
  | some e => e.carousel == n && p e.state
  | none => false

/-- Whether an entry state is COUNTING. -/
def isCounting : EntryState → Bool
  | .counting _ => true
  | .waiting => false
  | .ready => false

/-- The counting check of a carousel (R158). -/
def countingCheck (s : Store) (n : Nat) : Store :=
  if s.inService n && !s.auditList.any (s.entryIn n isCounting) then
    match s.auditList.find? (s.entryIn n (· == .ready)) with
    | none => s
    | some a =>
      match s.entry a with
      | none => s
      | some e => (s.setAudit a (.listed { e with state := .counting .requested })).countRequest n a e.carrier
  else s

/-- Whether a carrier has no reservation on its slots (R18). -/
def hasDrained (s : Store) (r : Nat) : Bool := (s.onCarrier r).isEmpty

/-- A new entry (R152, R154). -/
def newEntry (s : Store) (r : Nat) (origin : AuditOrigin) : AuditEntry where
  carousel := r / 24
  carrier := r % 24
  origin := origin
  state := if s.hasDrained r then .ready else .waiting
  bays := #v[BayCount.blank, BayCount.blank, BayCount.blank]

/-- An audit of carrier record `r` asked for with an origin; `tell` raises CREATED (R154). -/
def askAudit (s : Store) (r : Nat) (origin : AuditOrigin) (tell : Bool) : AuditAnswer × Store :=
  match s.entryOf r with
  | some a => (.merged a, s)
  | none =>
    match s.freeAudit with
    | none => (.full, s)
    | some a =>
      let e := s.newEntry r origin
      let s1 := { s.setAudit a (.listed e) with auditList := s.auditList ++ [a] }
      let s2 := s1.setFrozen r true
      let s3 := if e.state = .ready then s2.countingCheck (r / 24) else s2
      (.created a, if tell then s3.raise (.audit a) Flag.auditCreated else s3)

/-- An audit the Stock Map asks for; a full list marks the carrier AUDIT_WANTED (R9, R19, R154). -/
def stockAudit (s : Store) (r : Nat) (origin : AuditOrigin) : Store :=
  match s.askAudit r origin true with
  | (.full, s') => s'.markWanted r
  | (.merged _, s') => s'
  | (.created _, s') => s'

/-- One carrier of the promotion walk (R156). -/
def promoteOne (tell : Bool) (s : Store) (r : Nat) : Store :=
  let c := s.carrier r
  if s.fitted (r / 24) && c.auditWanted then
    (s.askAudit r (if c.suspect then .suspect else .shortPick) tell).2
  else s

/-- Promotion: wanted carriers without an entry are given entries in carrier record order while records are FREE (R156). -/
def promote (s : Store) (tell : Bool) : Store := (List.range 96).foldl (promoteOne tell) s

/-- A carrier is reported drained (R157). -/
def reportDrained (s : Store) (r : Nat) : Store :=
  match s.entryOf r with
  | none => s
  | some a =>
    match s.entry a with
    | none => s
    | some e =>
      if e.state = .waiting then
        (s.setAudit a (.listed { e with state := .ready })).countingCheck e.carousel
      else s

/-- The check the Stock Map makes when an entry leaves the list (R18). -/
def drainedCheck (s : Store) (r : Nat) : Store := if s.hasDrained r then s.reportDrained r else s

/-! ## The recount rule (R160, R161) -/

end Store

/-- What a list of counts decides against the book count (R160). -/
inductive Recount where
  | again
  | verified
  | adjusted (value : Nat)
  | disputed
deriving DecidableEq, Repr

/-- The recount rule over the counts in the order counted (R160). -/
def recount (book : Nat) : List Nat → Recount
  | [c1] => if c1 = book then .verified else .again
  | [c1, c2] => if c2 = book then .verified else if c2 = c1 then .adjusted c2 else .again
  | [c1, c2, c3] =>
    if c3 = book then .verified else if c3 = c1 ∨ c3 = c2 then .adjusted c3 else .disputed
  | _ => .again

/-- The check of an ADJUSTED decision against the bay depth and the slot's article (R161). -/
def adjustedResult (depth : Nat) (article : Option Nat) (v : Nat) : BayResult :=
  if v > depth then .disputed
  else if article = none ∧ v > 0 then .foreign
  else .adjusted v

/-- The result of a decision, none while another count is called for (R160, R161). -/
def bayResultOf (depth : Nat) (article : Option Nat) : Recount → Option BayResult
  | .again => none
  | .verified => some .verified
  | .disputed => some .disputed
  | .adjusted v => some (adjustedResult depth article v)

namespace Store

/-- A COUNT confirmation of bay `b` with `k` (R160), and whether the rule calls for another count. -/
def countConfirm (s : Store) (a b k : Nat) : Store × Bool :=
  match s.entry a with
  | none => (s, false)
  | some e =>
    let old := look e.bays BayCount.blank b
    let counts := old.counts ++ [k]
    let q := recordOf e.carousel e.carrier * 3 + b
    let result := bayResultOf (s.depthOf q) (s.slot q).article (recount (old.book.getD 0) counts)
    (s.setAudit a (.listed { e with bays := put e.bays b { old with counts := counts, result := result } }),
      result.isNone)

/-! ## Commit (R163, R21) -/

/-- A DISPUTED or FOREIGN reason cleared; REQUEST and IMAGE_FAULT stay (R21). -/
def clearAuditReason : Option BlockReason → Option BlockReason
  | some .disputed => none
  | some .foreign => none
  | some .request => some .request
  | some .imageFault => some .imageFault
  | none => none

/-- What a bay's result does to its slot (R21). -/
def commitSlot (result : Option BayResult) (q : Slot) : Slot :=
  match result with
  | some .verified => { q with blockReason := clearAuditReason q.blockReason }
  | some (.adjusted v) => { q with count := v, blockReason := clearAuditReason q.blockReason }
  | some .disputed => { q with blockReason := some .disputed }
  | some .foreign => { q with blockReason := some .foreign }
  | none => q

/-- The carrier after an audit commit: its bays in order, its marks cleared, its load recomputed (R21). -/
def commitCarrier (s : Store) (e : AuditEntry) (c : Carrier) : Carrier :=
  let bay (b : Nat) (c : Carrier) : Carrier :=
    onBay b (fun q => (commitSlot (look e.bays BayCount.blank b).result q).settle) c
  s.reload { bay 2 (bay 1 (bay 0 c)) with suspect := false, auditWanted := false }

/-- The audit commit of an entry whose count presentation has closed (R163). -/
def commitAudit (s : Store) (a : Nat) : Store :=
  match s.entry a with
  | none => s
  | some e =>
    let r := recordOf e.carousel e.carrier
    let s1 := s.updCarrier r (s.commitCarrier e)
    let s2 := { s1.setAudit a (.committed e) with auditList := s1.auditList.filter (· != a) }
    let s3 := s2.setFrozen r false
    let s4 := (s3.raise (.audit a) Flag.auditCommitted).promote true
    (s4.countingCheck e.carousel).triggerPass

/-- The Audit Unit is told that a count presentation has closed: the commit is taken when every bay has its result
(R153, R162). -/
def countClosed (s : Store) (a : Nat) : Store :=
  match s.entry a with
  | none => s
  | some e => if e.bays.toList.all (fun b => b.result.isSome) then s.commitAudit a else s

/-- A COMMITTED record becomes FREE when its notice has been written, and promotion takes place (R164). -/
def auditNoticeWritten (s : Store) (a : Nat) : Store :=
  match s.audit a with
  | .committed _ => (s.setAudit a .free).promote true
  | .free => s
  | .listed _ => s

/-! ## Counting broken off (R165, R166) -/

/-- A COUNTING entry back to READY with its counts discarded, and RESTARTED raised (R165, R166). -/
def restart (s : Store) (a : Nat) : Store :=
  match s.entry a with
  | none => s
  | some e =>
    if isCounting e.state then
      (s.setAudit a (.listed { e with
        state := .ready, bays := #v[BayCount.blank, BayCount.blank, BayCount.blank] })).raise
        (.audit a) Flag.auditRestarted
    else s

/-- The Audit Unit is told of a fence (R165). -/
def auditFence (s : Store) (n : Nat) : Store :=
  (s.auditList.filter (s.entryIn n isCounting)).foldl restart s

/-- The Audit Unit is told that a count has been abandoned by a suspension (R166). -/
def abandonCount (s : Store) (n a : Nat) : Store := (s.restart a).countingCheck n

end Store

end Sys2Proof.Machine
end

