-- ==== Sys2Proof/Machine/Claims.lean ====
section
/-! DEFINITION. Claims on the Stock Map (R15): the checks, the merge, the new entry and its placement. -/

namespace Sys2Proof.Machine

open Sys2Proof

/-- How a claim was answered (R15). -/
inductive ClaimAnswer where
  | taken
  | refused
  | full
deriving DecidableEq, Repr

namespace Store

/-- The RESERVED entry a claim merges into (R15). -/
def mergeTarget (s : Store) (claim : Claim) (q : Nat) : Option Reservation :=
  s.reservations.find? fun r => r.state == .reserved && r.claim == claim && r.slot == q

/-- An entry's quantity raised by a merge (R15). -/
def raiseQuantity (s : Store) (num k : Nat) : Store :=
  { s with reservations := s.reservations.map fun r =>
      if r.number == num then { r with quantity := r.quantity + k } else r }

/-- A claim that has passed its checks: merged, or a new RESERVED entry at the tail, which is placed (R15). -/
def takeClaim (s : Store) (claim : Claim) (q k : Nat) (f : Slot → Slot) : ClaimAnswer × Store :=
  match s.mergeTarget claim q with
  | some r => (.taken, (s.raiseQuantity r.number k).changeSlot q f)
  | none =>
    if s.reservations.length < Config.reservationCapacity then
      let num := s.freeNumber
      let s1 := { s with reservations := s.reservations ++ [(⟨num, claim, q, k, .reserved⟩ : Reservation)] }
      (.taken, (s1.changeSlot q f).place num)
    else (.full, s)

/-- What a slot has available for picks (R102). -/
def available (s : Store) (q : Nat) : Nat := (s.slot q).count - (s.slot q).reserved

/-- The checks of a PICK claim (R15). -/
def pickAllowed (s : Store) (q a k : Nat) : Bool :=
  s.eligible q && (s.slot q).article == some a && inRange 1 12 k && k ≤ s.available q

/-- A PICK claim of an order line on a slot (R15). -/
def claimPick (s : Store) (q order line a k : Nat) : ClaimAnswer × Store :=
  if s.pickAllowed q a k then
    s.takeClaim (.pick order line) q k fun x => { x with reserved := x.reserved + k }
  else (.refused, s)

/-- The lot rule and the fit (R4, R3). -/
def lotAllowed (s : Store) (q a week : Nat) : Bool :=
  let x := s.slot q
  if x.count + x.incoming = 0 then s.fits a q else x.article == some a && x.lotWeek == some week

/-- The checks of a PUT claim (R15). -/
def putAllowed (s : Store) (q a week k : Nat) : Bool :=
  s.eligible q && s.lotAllowed q a week && inRange 1 12 k &&
    (s.slot q).count + (s.slot q).incoming + k ≤ s.depthOf q

/-- A PUT claim of a batch on a slot (R15). -/
def claimPut (s : Store) (q batch a week k : Nat) : ClaimAnswer × Store :=
  if s.putAllowed q a week k then
    s.takeClaim (.put batch) q k fun x =>
      { x with incoming := x.incoming + k, article := some a, lotWeek := some week }
  else (.refused, s)

end Store

end Sys2Proof.Machine
end

