-- ==== Sys2Proof/Machine/Lanes.lean ====
section
/-! DEFINITION. The Lane Controller's own record: samples and settling (R135 to R137), the empty test (R139), the
weighing of an order's lane (R140 to R143, R145). A `Bool` beside a store says that the lane has entered MATCH, which
is reported to the Order Table (R144). -/

namespace Sys2Proof.Machine

open Sys2Proof

/-- A sample list after a reading has joined it: the three newest (R135). -/
def joinSample (xs : List Int) (r : Int) : List Int :=
  let ys := xs ++ [r]
  if ys.length > 3 then ys.drop 1 else ys

/-- The middle of three readings (R137). -/
def middle (a b c : Int) : Int := max (min a b) (min (max a b) c)

/-- The settled reading of a sample list under the settle band (R137). -/
def settledOf (band : Nat) : List Int → Option Int
  | [a, b, c] => if max a (max b c) - min a (min b c) ≤ band then some (middle a b c) else none
  | _ => none

/-- Whether a reading agrees with an expected weight within a tolerance (R141). -/
def agrees (r expected : Int) (tolerance : Nat) : Bool := (r - expected).natAbs ≤ tolerance

/-- Whether a lane's present settled reading agrees with its expected weight. -/
def Lane.agreesNow (l : Lane) : Bool :=
  match l.settled with
  | some r => agrees r l.expected l.tolerance
  | none => false

/-- A lane weighed afresh with its arrival timer: MATCH with the timer stopped, or ARRIVING with it running (R140, R142). -/
def Lane.weighAfresh (window : Nat) (l : Lane) : Lane :=
  if l.agreesNow then { l with weight := some .matched, arrival := none }
  else { l with weight := some .arriving, arrival := some window }

/-- A lane as it enters FREE: no order, no weight state, timer stopped, expected weight and tolerance 0 (R132, R145). -/
def Lane.freed (l : Lane) : Lane :=
  { l with state := .free, order := none, weight := none, arrival := none, expected := 0, tolerance := 0 }

namespace Store

/-- Whether a reading holds weight: it is above the empty threshold (R139). -/
def holdsWeight (s : Store) (r : Int) : Bool := (s.cfg.emptyThreshold : Int) < r

/-- A lane enters OCCUPIED and raises the flag (R139). -/
def occupyLane (s : Store) (l : Nat) : Store :=
  (s.setLane l { s.lane l with state := .occupied }).raise (.lane l) Flag.laneOccupied

/-- A lane enters FREE: the empty test on its present settled reading, and the flag the entry raises (R139). The
record is listed by the caller. -/
def freeLane (s : Store) (l : Nat) (notify : Bool) : Store :=
  let x := Lane.freed (s.lane l)
  match x.settled with
  | some r =>
    if s.holdsWeight r then
      (s.putLane l { x with state := .occupied }).raise (.lane l) Flag.laneOccupied
    else
      let s1 := s.putLane l x
      if notify then s1.raise (.lane l) Flag.laneFree else s1
  | none =>
    let s1 := s.putLane l x
    if notify then s1.raise (.lane l) Flag.laneFree else s1

/-- A FREE lane is assigned to an order (R140). -/
def assignLane (s : Store) (l k : Nat) : Store × Bool :=
  let x := { s.lane l with
    state := .assigned, order := some k, expected := 0, tolerance := s.cfg.emptyThreshold }
  let y := x.weighAfresh s.cfg.arrivalWindow
  ((s.putLane l y).list (.lane l), y.weight == some .matched)

/-- A settled reading weighs an ASSIGNED lane against its order (R141). -/
def weighLane (s : Store) (l : Nat) (r : Int) : Store × Bool :=
  let x := s.lane l
  if agrees r x.expected x.tolerance then
    match x.weight with
    | some .matched => (s, false)
    | some .arriving => (s.setLane l { x with weight := some .matched, arrival := none }, true)
    | some .mismatch =>
      ((s.setLane l { x with weight := some .matched, arrival := none }).raise (.lane l) Flag.laneMatchRestored, true)
    | none => (s, false)
  else
    match x.weight with
    | some .matched =>
      (s.setLane l { x with weight := some .arriving, arrival := some s.cfg.arrivalWindow }, false)
    | some .arriving => (s, false)
    | some .mismatch => (s, false)
    | none => (s, false)

/-- A pick confirmation of `k` tyres reaches the order's lane with their weight and tolerance (R142). It raises no
MATCH_RESTORED where it takes the lane from MISMATCH straight to MATCH, which R142 and R148 leave open: DESIGN CHOICE,
log 34. -/
def confirmLane (s : Store) (l k weight tolerance : Nat) : Store × Bool :=
  let x := s.lane l
  if k = 0 ∨ x.state ≠ .assigned then (s, false)
  else
    let y := { x with expected := min 32767 (x.expected + weight), tolerance := x.tolerance + tolerance }
    let z := y.weighAfresh s.cfg.arrivalWindow
    ((s.putLane l z).list (.lane l), z.weight == some .matched && x.weight != some .matched)

/-- The lane of a completed order leaves ASSIGNED for DONE (R145). -/
def laneDone (s : Store) (l : Nat) : Store :=
  (s.putLane l { s.lane l with state := .done, weight := none }).list (.lane l)

/-- The lane of a cancelled order with tyres filled leaves ASSIGNED for ABANDONED (R145). -/
def laneAbandoned (s : Store) (l : Nat) : Store :=
  (s.putLane l { s.lane l with state := .abandoned, weight := none, arrival := none }).list (.lane l)

/-- The arrival timer of an ASSIGNED lane expires (R143). -/
def expireArrival (s : Store) (l : Nat) : Store :=
  let x := s.lane l
  if x.state = .assigned ∧ x.arrival.isSome then
    ((s.putLane l { x with weight := some .mismatch, arrival := none }).raise (.lane l) Flag.laneMismatch).list
      (.lane l)
  else s

/-- An invalid sample (R136). -/
def invalidSample (s : Store) (l : Nat) : Store :=
  let x := s.lane l
  let y := { x with samples := [], settled := none, scale := .fault }
  let s1 := s.setLane l y
  if x.scale = .good then s1.raise (.lane l) Flag.laneScaleFault else s1

/-- A valid sample's reading joins the list, and the lane settles (R135, R137). -/
def joinReading (s : Store) (l : Nat) (raw : Int) : Store :=
  let x := s.lane l
  let samples := joinSample x.samples (clampHalf (raw - x.tare))
  s.setLane l { x with samples := samples, settled := settledOf s.cfg.settleBand samples }

/-- A valid sample after a fault makes the scale GOOD (R135). -/
def restoreScale (s : Store) (l : Nat) : Store :=
  let x := s.lane l
  if x.scale = .fault then
    (s.setLane l { x with scale := .good }).raise (.lane l) Flag.laneScaleRestored
  else s

end Store

end Sys2Proof.Machine
end

