-- ==== Sys2Proof/Machine/Layouts.lean ====
section
/-! DEFINITION. The words the part writes: the image records, the notices and the probe snapshots (spec/11). The
fields of a record that holds none are 0 and an absent value is 0xFF or 0xFFFF (R196; log 15, log 16). -/

namespace Sys2Proof.Machine

open Sys2Proof

/-! ## Image records (spec/11, Image records) -/

/-- `n` words of 0. -/
def zeroWords (n : Nat) : List Word := List.replicate n 0

/-- The article record. -/
def articleWords (x : Option Article) (cc : Nat) : List Word :=
  match x with
  | none => [wordOfBytes cc 0 0 0, 0, 0, wordOfBytes cc 0 0 0]
  | some a =>
    [wordOfBytes cc 1 a.sizeClass 0, a.catalogue, wordOfBytes a.weight (a.weight / 256) a.tolerance 0,
      wordOfBytes cc 0 0 0]

/-- Whether a slot is STOCKED (R2). -/
def Slot.stocked (q : Slot) : Bool := 0 < q.count + q.incoming

/-- One bay of the carrier record. -/
def slotWords (q : Slot) : List Word :=
  [wordOfBytes (Code.bit q.stocked) (Code.blockReason q.blockReason) (Code.halfOr q.article)
      (Code.halfOr q.article / 256),
    wordOfHalves (q.lotWeek.getD 0) (Code.bit q.lotWeek.isSome),
    wordOfBytes q.count q.reserved q.incoming 0, 0]

/-- The carrier record. -/
def carrierWords (c : Carrier) (cc : Nat) : List Word :=
  [wordOfBytes cc (Code.bit c.suspect + 2 * Code.bit c.auditWanted + 4 * Code.bit c.faceOpen)
      (Code.bit c.frozen) 0, BitVec.ofNat 32 c.load]
    ++ c.bays.toList.flatMap slotWords ++ [0, wordOfBytes cc 0 0 0]

/-- Whether a line is FILLED (R92). -/
def Line.isFilled (l : Line) : Bool := l.filled == l.quantity

/-- One line of the order record. -/
def lineWord (l : Line) : Word :=
  BitVec.ofNat 32 (l.article % 512 + 2 ^ 9 * (l.quantity % 32) + 2 ^ 14 * (l.filled % 32)
    + 2 ^ 19 * (l.reservedFor % 32) + 2 ^ 24 * Code.bit l.setFlag + 2 ^ 25 * Code.bit l.isFilled
    + 2 ^ 26 * Code.bit l.setWeek.isSome)

/-- The half of the set week of line `i`, 0 while absent (R196). -/
def setWeekHalf (ls : List Line) (i : Nat) : Nat := ((ls[i]?).bind (fun l => l.setWeek)).getD 0

/-- The order record. -/
def orderWords (x : Option Order) (cc : Nat) : List Word :=
  match x with
  | none =>
    [wordOfBytes cc Code.absentByte 0 0, 0, wordOfBytes 0 0 Code.absentByte 0] ++ zeroWords 12
      ++ [wordOfBytes cc 0 0 0]
  | some o =>
    let seq := (o.admissionSequence.getD 0).toNat
    [wordOfBytes cc (Code.orderState o.state) o.urgency o.passOver, o.tag,
      wordOfBytes seq (seq / 256) (Code.byteOr o.lane) o.lines.length]
      ++ (List.range 8).map (fun i => ((o.lines[i]?).map lineWord).getD 0)
      ++ (List.range 4).map (fun i => wordOfHalves (setWeekHalf o.lines (2 * i)) (setWeekHalf o.lines (2 * i + 1)))
      ++ [wordOfBytes cc 0 0 0]

/-- The lane record. -/
def laneWords (c : LaneConfig) (l : Lane) (cc : Nat) : List Word :=
  [wordOfBytes cc (Code.bit c.fitted) c.capacity (Code.laneState l.state),
    wordOfBytes (Code.weightState l.weight) (Code.byteOr l.order)
      (Code.bit (l.scale == .fault) + 2 * Code.bit l.arrival.isSome + 4 * Code.bit l.settled.isSome) 0,
    wordOfHalves (halfOfInt l.expected) l.tolerance,
    wordOfHalves (halfOfInt l.tare) (halfOfInt (l.settled.getD 0)), 0, 0, 0, wordOfBytes cc 0 0 0]

/-- The carousel record. -/
def carouselWords (c : Channel) (cc : Nat) : List Word :=
  let head := c.queue.head?
  [wordOfBytes cc (Code.channelState c.state) (Code.byteOr c.position) (Code.byteOr (c.target.map Prod.fst)),
    wordOfBytes (Code.byteOr (c.target.map fun t => Code.direction t.2)) (Code.gate c.gate) c.queue.length
      (Code.byteOr (head.map fun e => e.carrier)),
    wordOfBytes (Code.byteOr (head.map fun e => e.face)) (Code.bit c.pendingCount.isSome)
      (Code.fenceCause c.fenceCause) (Code.byteOr c.faultCode)]
    ++ zeroWords 12 ++ [wordOfBytes cc 0 0 0]

/-- The number an item refers to: its reservation or its audit index. -/
def ItemRef.number : ItemRef → Nat
  | .pick n => n
  | .put n => n
  | .count a => a

/-- One bay of the face record, words 1 to 3. -/
def bayWord (items : List Item) : Word :=
  let head := items.head?
  wordOfBytes items.length (Code.headKind (head.map fun i => i.ref))
    (Code.byteOr (head.bind fun i => i.expected)) (Code.byteOr (head.map fun i => i.displayed))

/-- One desired or sent bay display: mode, quantity, lane. -/
def bayDisplayWord (d : BayDisplay) : Word :=
  wordOfBytes (Code.displayMode d.mode) d.quantity (Code.byteOr d.lane) 0

/-- The head reference of a bay, words 10 to 12. -/
def headRefWord (items : List Item) : Word :=
  wordOfHalves (Code.halfOr (items.head?.map fun i => i.ref.number)) 0

/-- The error flags of a panel, byte 1 of word 9. -/
def panelFlags (p : Panel) : Nat :=
  Code.bit p.overrun + 2 * Code.bit p.parity + 4 * Code.bit p.framing + 8 * Code.bit p.wrongType

/-- The face record, with its panel's line state and flags. -/
def faceWords (f : Face) (p : Panel) (cc : Nat) : List Word :=
  let held (i : Nat) : Nat := Code.byteOr f.held[i]?
  [wordOfBytes cc (Code.faceState f.state) (Code.byteOr f.carrier) (Code.presentationKind f.kind)]
    ++ f.bays.toList.map bayWord
    ++ [wordOfBytes (held 0) (held 1) (held 2) (Code.byteOr f.selected),
      wordOfBytes (Code.bit f.desired.enabled) (Code.displayNote f.desired.note) 0 0]
    ++ f.desired.bays.toList.map bayDisplayWord
    ++ [wordOfBytes (Code.lineState p.line) (panelFlags p) 0 0]
    ++ f.bays.toList.map headRefWord ++ [0, 0, wordOfBytes cc 0 0 0]

/-- The place of an image record in the table of the 700 change counts (R185, R188). -/
def recordIndex : ImageRecord → Nat
  | .carrier r => r
  | .article a => 96 + a
  | .order k => 608 + k
  | .lane l => 672 + l
  | .status n => 688 + n

/-- The words of an image record with a change count. -/
def recordWords (s : Store) (r : ImageRecord) (cc : Nat) : List Word :=
  match r with
  | .carrier i => carrierWords (s.carrier i) cc
  | .article a => articleWords (s.article a) cc
  | .order k => orderWords (s.order k) cc
  | .lane l => laneWords (s.cfg.lane l) (s.lane l) cc
  | .status n =>
    if n < 4 then carouselWords (s.channel n) cc else faceWords (s.face (n - 4)) (s.panel (n - 4)) cc

/-- The address of an image record: its window's base and its index times its size (spec/11). -/
def recordAddress (c : Configuration) : ImageRecord → Nat
  | .carrier r => c.base .carrier + 64 * r
  | .article a => c.base .article + 16 * a
  | .order k => c.base .order + 64 * k
  | .lane l => c.base .lane + 32 * l
  | .status n => c.base .status + 64 * n

/-- The image record an address lies in (R185). -/
def recordAt (c : Configuration) (a : Nat) : Option ImageRecord :=
  if c.covers .carrier a then some (.carrier ((a - c.base .carrier) / 64))
  else if c.covers .article a then some (.article ((a - c.base .article) / 16))
  else if c.covers .order a then some (.order ((a - c.base .order) / 64))
  else if c.covers .lane a then some (.lane ((a - c.base .lane) / 32))
  else if c.covers .status a then some (.status ((a - c.base .status) / 64))
  else none

/-! ## The audit and batch records (spec/11, Report entries) -/

/-- One bay of the audit record layout. -/
def bayCountWord (b : BayCount) : Word :=
  wordOfBytes (Code.byteOr b.book) (Code.byteOr b.counts[0]?) (Code.byteOr b.counts[1]?) (Code.byteOr b.counts[2]?)

/-- The audit record layout of an entry, with its record state code. -/
def auditEntryWords (code : Nat) (e : AuditEntry) : List Word :=
  let result (b : Nat) : Nat := Code.bayResult (look e.bays BayCount.blank b).result
  [wordOfBytes code e.carousel e.carrier (Code.auditOrigin e.origin),
    wordOfBytes (Code.entryState e.state) (Code.countStage e.state) (Code.byteOr (Code.stageFace e.state)) 0]
    ++ e.bays.toList.map bayCountWord ++ [wordOfBytes (result 0) (result 1) (result 2) 0]

/-- The audit record layout: a FREE record gives its state alone (R169). -/
def auditWords : AuditRecord → List Word
  | .free => zeroWords 6
  | .listed e => auditEntryWords 1 e
  | .committed e => auditEntryWords 2 e

/-- Words 2 to 7 of a BATCH notice: a FREE record gives its state alone (R131). -/
def batchWords : BatchRecord → List Word
  | .free => zeroWords 6
  | .opened b => fields 1 b
  | .done b => fields 2 b
where
  fields (code : Nat) (b : Batch) : List Word :=
    [wordOfBytes code 0 0 0, b.tag, wordOfHalves b.article 0, wordOfHalves b.lotWeek 0,
      wordOfHalves b.quantity b.planned, wordOfHalves b.placed b.unplaced]

/-! ## Notices (spec/11, Report entries) -/

/-- The source kind code and the source index. -/
def sourceCode : Source → Nat × Nat
  | .device => (1, 0)
  | .path => (2, 0)
  | .carousel n => (3, n)
  | .face i => (4, i)
  | .lane l => (5, l)
  | .order k => (6, k)
  | .batch b => (7, b)
  | .audit a => (8, a)

/-- One line of an ORDER notice: a half. -/
def noticeLine (l : Line) : Nat :=
  l.filled % 32 + 2 ^ 5 * (l.reservedFor % 32) + 2 ^ 10 * Code.bit l.isFilled + 2 ^ 11 * Code.bit l.setWeek.isSome

/-- The data words of an ORDER notice. -/
def orderNoticeWords : Option Order → List Word
  | none => wordOfBytes Code.absentByte 0 Code.absentByte 0 :: zeroWords 5
  | some o =>
    let half (i : Nat) : Nat := ((o.lines[i]?).map noticeLine).getD 0
    [wordOfBytes (Code.orderState o.state) o.passOver (Code.byteOr o.lane) o.lines.length, o.tag,
      wordOfHalves (half 0) (half 1), wordOfHalves (half 2) (half 3), wordOfHalves (half 4) (half 5),
      wordOfHalves (half 6) (half 7)]

/-- The data words of a FACE notice. -/
def faceNoticeWords (f : Face) (p : Panel) (flags : Half) : List Word :=
  let ws := faceWords f p 0
  [wordAt ws 0, wordAt ws 9,
    wordOfBytes (if hasFlag flags Flag.faceSuspended then Code.byteOr f.lastSuspended else Code.absentByte) 0 0 0,
    0, 0, 0]

/-- The data words of a notice, with the refusal record as it stands for a PATH notice (R179, R181). -/
def noticeData (s : State) (n : Notice) : List Word :=
  match n.source with
  | .device =>
    [wordOfBytes (Code.bit s.path.articlesDiscarded + 2 * Code.bit s.path.carriersDiscarded) 0 0 0,
      BitVec.ofNat 32 s.path.faultedRecords, wordOfHalves s.intake.index.toNat 0,
      wordOfHalves s.report.produce.toNat 0, 0, 0]
  | .path =>
    [BitVec.ofNat 32 (s.path.refusals.first.getD 0), wordOfHalves s.path.refusals.count 0, 0, 0, 0, 0]
  | .carousel c => (carouselWords (s.store.channel c) 0).take 3 ++ zeroWords 3
  | .face i => faceNoticeWords (s.store.face i) (s.store.panel i) n.flags
  | .lane l => (laneWords (s.store.cfg.lane l) (s.store.lane l) 0).take 4 ++ zeroWords 2
  | .order k => orderNoticeWords (s.store.order k)
  | .batch b => batchWords (s.store.batch b)
  | .audit a => auditWords (s.store.audit a)

/-- The eight words of a notice (spec/11): class 2, source kind, flag set; source index; data. -/
def noticeWords (s : State) (n : Notice) : List Word :=
  let f := n.flags.toNat
  let c := sourceCode n.source
  [wordOfBytes 2 c.1 f (f / 256), BitVec.ofNat 32 c.2] ++ noticeData s n

/-- The eight words of a completion (spec/11): class 1, kind code, status; tag; intake index; data. -/
def completionWords (kind : Nat) (st : Status) (tag : Word) (index : Half) (data : List Word) : List Word :=
  [wordOfBytes 1 kind (Code.status st) 0, tag, wordOfHalves index.toNat 0] ++ (data ++ zeroWords 5).take 5

/-! ## Probe snapshots (R191, spec/11) -/

/-- Word 0 of a snapshot: the collection code and the present bit. -/
def probeHead (code : Nat) (present : Bool) : Word := wordOfBytes code (Code.bit present) 0 0

/-- The attached reservations of a queue entry, in reservation-list order (R30, R38). -/
def inListOrder (s : Store) (numbers : List Nat) : List Nat :=
  (s.reservations.map fun r => r.number).filter numbers.contains

/-- A motion entry (words 1 to 7). -/
def motionWords (s : Store) (e : QueueEntry) : List Word :=
  let nums := match e.work with
    | .reservations ns => inListOrder s ns
    | .count _ => []
  let counted := match e.work with
    | .reservations _ => none
    | .count a => some a
  let at' (i : Nat) : Nat := Code.byteOr nums[i]?
  [wordOfBytes e.carrier e.face (Code.bit counted.isSome) nums.length, wordOfBytes (Code.byteOr counted) 0 0 0]
    ++ (List.range 5).map fun i =>
      wordOfBytes (at' (4 * i)) (at' (4 * i + 1)) (at' (4 * i + 2)) (at' (4 * i + 3))

/-- The face of a reservation, in QUEUED and PRESENTED (R14). -/
def ReservationState.face : ReservationState → Option Nat
  | .reserved => none
  | .queued f => some f
  | .presented f => some f

/-- A reservation (words 1 to 3). -/
def reservationWords (r : Reservation) : List Word :=
  let refs := match r.claim with
    | .pick k l => (some k, some l, none)
    | .put b => (none, none, some b)
  [wordOfBytes (Code.reservationKind r.claim) (Code.reservationState r.state) (Code.byteOr r.state.face) r.number,
    wordOfBytes r.slot (r.slot / 256) r.quantity 0,
    wordOfBytes (Code.byteOr refs.1) (Code.byteOr refs.2.1) (Code.byteOr refs.2.2) 0]

/-- A panel (words 1 to 7). -/
def panelWords (p : Panel) : List Word :=
  let ps := (p.outstanding.map Code.panelParameters).getD []
  let param (i : Nat) : Nat := Code.byteOr ((ps[i]?).map BitVec.toNat)
  let enabled := Code.byteOr (p.shown.map fun d => Code.bit d.enabled)
  let note := Code.byteOr (p.shown.map fun d => Code.displayNote d.note)
  let bays := match p.shown with
    | some d => d.bays.toList.map bayDisplayWord
    | none => List.replicate 3 (wordOfBytes Code.absentByte Code.absentByte Code.absentByte 0)
  [wordOfBytes (Code.lineState p.line) (Code.identStep p.step) (Code.byteOr p.attempt) (Code.pendingMessage p.received),
    wordOfBytes ((p.outstanding.map fun c => (Code.panelCommand c).toNat).getD 0) (Code.bit p.timer.isSome)
      (Code.keyEvent p.holder) (Code.bit p.inhibit),
    wordOfBytes (param 0) (param 1) (param 2) (param 3),
    wordOfBytes (Code.bit p.shown.isSome) enabled note 0] ++ bays

/-- The fields of the entry a select value names, or none where the snapshot is empty (R191). -/
def probeEntry (s : Store) (sel : Word) : Option (List Word) :=
  let index := sel.toNat / 256
  let n := byteNat sel 1
  let pos := byteNat sel 2
  match byteNat sel 0 with
  | 1 => if n < 4 ∧ pos < 8 then ((s.channel n).queue[pos]?).map (motionWords s) else none
  | 2 => if index < 256 then (s.reservations[index]?).map reservationWords else none
  | 3 => if index < 16 then some (auditWords (s.audit index)) else none
  | 4 => if index < 16 then some (batchWords (s.batch index)) else none
  | 5 => if index < 8 then some (panelWords (s.panel index)) else none
  | 6 => if index < 64 then (s.admission[index]?).map (fun k => [wordOfBytes k 0 0 0]) else none
  | 7 => if index < 512 then (s.waiting[index]?).map (fun e => [wordOfBytes e.1 e.2 0 0]) else none
  | _ => none

/-- The eight words of the snapshot a read of probe data word 0 takes (R191). -/
def probeSnapshotOf (s : Store) (sel : Word) : Vector Word 8 :=
  let entry := probeEntry s sel
  let data := entry.getD []
  Vector.ofFn fun i : Fin 8 =>
    if i.val = 0 then probeHead (byteNat sel 0) entry.isSome else wordAt data (i.val - 1)

end Sys2Proof.Machine
end

