-- ==== Sys2Proof/Machine/OrderTable.lean ====
section
/-! DEFINITION. The Order Table and Allocator: admission (R95 to R98), the waiting-lines list (R99), the allocation
pass (R100 to R106), completion, cancellation and freeing (R107 to R115). -/

namespace Sys2Proof.Machine

open Sys2Proof

/-- The need of a line (R92). -/
def Line.need (l : Line) : Nat := l.quantity - l.filled - l.reservedFor

/-- A set line left with filled 0 and reserved-for-line 0 has its set week absent (R105). -/
def Line.unbind (l : Line) : Line :=
  if l.setFlag && l.filled == 0 && l.reservedFor == 0 then { l with setWeek := none } else l

/-- The order total (R94). -/
def Order.total (o : Order) : Nat := (o.lines.map fun l => l.quantity).sum

/-- The total filled over an order's lines (R114). -/
def Order.filledTotal (o : Order) : Nat := (o.lines.map fun l => l.filled).sum

namespace Store

/-- A line of an order in use. -/
def lineOf (s : Store) (k l : Nat) : Option Line := (s.order k).bind fun o => o.lines[l]?

/-- A line of an order changed; the caller lists the record. -/
def putLine (s : Store) (k l : Nat) (f : Line → Line) : Store :=
  match s.order k with
  | some o => s.putOrder k (some { o with lines := o.lines.modify l f })
  | none => s

/-- The urgency of an order in use. -/
def urgencyOf (s : Store) (k : Nat) : Nat := ((s.order k).map fun o => o.urgency).getD 0

/-- Whether an order in use is in a state. -/
def orderIs (s : Store) (k : Nat) (st : OrderState) : Bool := (s.order k).any fun o => o.state == st

/-! ## The waiting-lines list (R99) -/

/-- Whether entry `x` stands before entry `y`: urgency, then order of admission, then line number (R99; log 19). -/
def waitsBefore (s : Store) (y x : Nat × Nat) : Bool :=
  let ux := s.urgencyOf x.1
  let uy := s.urgencyOf y.1
  let ax := s.admitted.idxOf x.1
  let ay := s.admitted.idxOf y.1
  decide (uy < ux) || (ux == uy && (decide (ax < ay) || (ax == ay && decide (x.2 < y.2))))

/-- A line joins the list at its ordered place, unless it is there (R99). -/
def joinWaiting (s : Store) (e : Nat × Nat) : Store :=
  if s.waiting.contains e then s
  else
    { s with waiting := s.waiting.takeWhile (s.waitsBefore e) ++ e :: s.waiting.dropWhile (s.waitsBefore e) }

/-- The lines of an order leave the list (R99). -/
def leaveWaiting (s : Store) (k : Nat) : Store := { s with waiting := s.waiting.filter fun e => e.1 != k }

/-! ## Completion (R109, R110) -/

/-- Whether an order is complete (R109). -/
def isComplete (s : Store) (k : Nat) : Bool :=
  match s.order k with
  | none => false
  | some o =>
    o.state == .active && o.lines.all Line.isFilled &&
      (match o.lane with
        | some l => (s.lane l).weight == some .matched
        | none => false)

/-- Completion is checked, and a complete order enters COMPLETE (R109, R110). -/
def completionCheck (s : Store) (k : Nat) : Store :=
  if s.isComplete k then
    match s.order k with
    | none => s
    | some o =>
      let s1 := (s.putOrder k (some { o with state := .complete })).leaveWaiting k
      let s2 := match o.lane with
        | some l => s1.laneDone l
        | none => s1
      (s2.list (.order k)).raise (.order k) Flag.orderComplete
  else s

/-- A report of MATCH reaches the Order Table (R144). -/
def matchReport (s : Store) (l : Nat) : Store :=
  match (s.lane l).order with
  | some k => s.completionCheck k
  | none => s

/-- A lane operation followed by its report of MATCH, if it entered MATCH (R144). -/
def withReport (x : Store × Bool) (l : Nat) : Store := if x.2 then x.1.matchReport l else x.1

/-! ## Admission (R96 to R98) -/

/-- The lowest-numbered FREE lane whose capacity takes the order total (R96). -/
def laneFor (s : Store) (total : Nat) : Option Nat :=
  firstBelow 16 fun l => (s.lane l).state == .free && total ≤ (s.cfg.lane l).capacity

/-- An order is bound to a lane (R98). -/
def admitTo (s : Store) (k l : Nat) : Store :=
  match s.order k with
  | none => s
  | some o =>
    let s1 := { s.putOrder k (some { o with
        state := .active, lane := some l, admissionSequence := some s.admissionCounter }) with
      admission := s.admission.filter (· != k)
      admissionCounter := s.admissionCounter + 1
      admitted := s.admitted ++ [k] }
    let s2 := withReport (s1.assignLane l k) l
    let s3 := (List.range o.lines.length).foldl (fun s j => s.joinWaiting (k, j)) s2
    (s3.list (.order k)).raise (.order k) Flag.orderAdmitted

/-- The pass-over count of an order that has been passed over rises by 1, unless it is 4 (R97). -/
def passOver (s : Store) (k : Nat) : Store :=
  match s.order k with
  | none => s
  | some o =>
    if o.passOver < 4 then
      let s1 := s.setOrder k (some { o with passOver := o.passOver + 1 })
      if o.passOver + 1 = 4 then s1.raise (.order k) Flag.orderPassLimit else s1
    else s

/-- The pass-over count of an order. -/
def passCount (s : Store) (k : Nat) : Nat := ((s.order k).map fun o => o.passOver).getD 0

/-- The walk of an admission pass: the orders still to meet, those ahead that stay, and whether any was admitted
(R96, R97). -/
def admissionWalk : List Nat → List Nat → Store → Bool → Store × Bool
  | [], _, s, any => (s, any)
  | k :: ks, ahead, s, any =>
    match (s.order k).bind fun o => s.laneFor o.total with
    | none => if s.passCount k = 4 then (s, any) else admissionWalk ks (ahead ++ [k]) s any
    | some l =>
      let limits := ahead.any fun j => s.passCount j == 3
      let s1 := ahead.foldl passOver (s.admitTo k l)
      if limits then (s1, true) else admissionWalk ks ahead s1 true

/-- An admission pass; it triggers an allocation pass where it admitted an order (R96, R98). -/
def admissionPass (s : Store) : Store :=
  let r := admissionWalk s.admission [] s false
  if r.2 then r.1.triggerPass else r.1

/-- An order takes its place on the admission list (R95). -/
def joinAdmission (s : Store) (k : Nat) : Store :=
  let stays := fun j => decide (s.urgencyOf k ≤ s.urgencyOf j)
  { s with admission := s.admission.takeWhile stays ++ k :: s.admission.dropWhile stays }

/-! ## Freeing and the end of a cancellation (R114, R115) -/

/-- An order's record becomes free and FREED is raised (R115). -/
def freeOrder (s : Store) (k : Nat) : Store :=
  { (s.setOrder k none).raise (.order k) Flag.orderFreed with admitted := s.admitted.filter (· != k) }

/-- The end of a cancellation is checked (R114). -/
def cancellationEnd (s : Store) (k : Nat) : Store :=
  match s.order k with
  | none => s
  | some o =>
    if o.state = .cancelling ∧ o.lines.all (fun l => l.reservedFor == 0) = true then
      if 0 < Order.filledTotal o then
        let s1 := s.putOrder k (some { o with state := .abandoned })
        let s2 := match o.lane with
          | some l => s1.laneAbandoned l
          | none => s1
        (s2.raise (.order k) Flag.orderAbandoned).list (.order k)
      else
        let s1 := match o.lane with
          | some l => (s.freeLane l true).list (.lane l)
          | none => s
        (s1.freeOrder k).admissionPass
    else s

/-! ## What comes back from the Stock Map (R107, R108) -/

/-- A line's reserved-for-line lowered by a quantity `q` that its own cancellation releases, and its order listed (R107,
R113 step 2; log 6). -/
def lineLowered (s : Store) (k l q : Nat) : Store :=
  (s.putLine k l fun x => { x with reservedFor := x.reservedFor - q }).list (.order k)

/-- The Order Table takes a released PICK reservation of quantity `q` (R107). The order record is listed last, after the
check of R114: R107 gives the two no order, and the model takes them in the order of its text (DESIGN CHOICE, log 6). -/
def lineReleased (s : Store) (k l q : Nat) : Store :=
  let back :=
    if s.orderIs k .active then
      (s.putLine k l fun x => { x with reservedFor := x.reservedFor - q }.unbind).joinWaiting (k, l)
    else (s.putLine k l fun x => { x with reservedFor := x.reservedFor - q }).cancellationEnd k
  back.list (.order k)

/-- A line with a need re-enters the waiting-lines list (R108). -/
def rejoin (s : Store) (k l : Nat) : Store :=
  match s.lineOf k l with
  | none => s
  | some x => if 0 < x.need then s.joinWaiting (k, l) else s

/-- The Order Table takes a pick confirmation of `k` against `q` for line `l` of order `o` (R108); its checks follow
the lane's. -/
def lineConfirmed (s : Store) (o l k q : Nat) : Store :=
  let s1 := s.putLine o l fun x => { x with filled := x.filled + k, reservedFor := x.reservedFor - q }.unbind
  let s2 := if s.orderIs o .active then s1.rejoin o l else s1
  let s3 := if k < q then s2.raise (.order o) Flag.orderShort else s2
  s3.list (.order o)

/-- The checks of a pick confirmation, after the lane has taken it (R108, R109, R114). -/
def orderChecks (s : Store) (o l : Nat) : Store :=
  if s.orderIs o .active then
    if (s.lineOf o l).any Line.isFilled then s.completionCheck o else s
  else s.cancellationEnd o

/-! ## The allocation pass (R100 to R106) -/

/-- A candidate slot of an article (R102). -/
def candidate (s : Store) (a q : Nat) : Bool :=
  s.eligible q && (s.slot q).article == some a && 0 < s.available q

/-- The candidates of an article in ascending slot number. -/
def candidates (s : Store) (a : Nat) : List Nat := (List.range 288).filter (s.candidate a)

/-- The place of a slot's lot week in the order of serving; an absent one comes last (R103; log 33). -/
def weekKey (s : Store) (q : Nat) : Nat := (s.slot q).lotWeek.getD 65536

/-- The older of the best so far and the next slot in ascending number (R103). -/
def olderSlot (s : Store) (best : Option Nat) (q : Nat) : Option Nat :=
  match best with
  | none => some q
  | some b => if s.weekKey q < s.weekKey b then some q else some b

/-- The next candidate of a line whose set flag is clear: oldest lot week, then lowest slot number (R103). -/
def oldestCandidate (s : Store) (a : Nat) : Option Nat := (s.candidates a).foldl s.olderSlot none

/-- The next candidate of lot week `w`, in ascending slot number (R104, R105). -/
def weekCandidate (s : Store) (a w : Nat) : Option Nat :=
  (s.candidates a).find? fun q => (s.slot q).lotWeek == some w

/-- What all the candidates of lot week `w` have available together (R104). -/
def weekOffer (s : Store) (a w : Nat) : Nat :=
  (((s.candidates a).filter fun q => (s.slot q).lotWeek == some w).map s.available).sum

/-- The oldest lot week whose candidates cover a quantity (R104). -/
def chooseWeek (s : Store) (a quantity : Nat) : Option Nat :=
  (((s.candidates a).filterMap fun q => (s.slot q).lotWeek).filter fun w => quantity ≤ s.weekOffer a w).min?

/-- A taken claim raises the line's reserved-for-line and binds its set week; a line with no need leaves the list (R106,
R104). -/
def lineClaimed (s : Store) (o l k : Nat) (week : Option Nat) : Store :=
  let s1 := s.putLine o l fun x =>
    { x with reservedFor := x.reservedFor + k, setWeek := if x.setFlag then week else x.setWeek }
  let s2 := if (s1.lineOf o l).any (fun x => x.need == 0) then
      { s1 with waiting := s1.waiting.filter (· != (o, l)) }
    else s1
  s2.list (.order o)

/-- Claims made for a line from the candidates a choice names, until its need is met, the candidates are exhausted or
a claim is refused as full, which ends the pass (R101, R103 to R105). -/
def serveLine (o l : Nat) (week : Option Nat) : Nat → Store → Store × Bool
  | 0, s => (s, false)
  | n + 1, s =>
    match s.lineOf o l with
    | none => (s, false)
    | some x =>
      if x.need = 0 then (s, false)
      else
        match (match week with
          | some w => s.weekCandidate x.article w
          | none => s.oldestCandidate x.article) with
        | none => (s, false)
        | some q =>
          let k := min (s.available q) x.need
          match s.claimPick q o l x.article k with
          | (.taken, s') => serveLine o l week n (s'.lineClaimed o l k week)
          | (.full, s') => (s', true)
          | (.refused, s') => (s', false)

/-- One entry of the waiting-lines list served; the `Bool` says that the pass has ended (R101). -/
def serveEntry (s : Store) (e : Nat × Nat) : Store × Bool :=
  match s.lineOf e.1 e.2 with
  | none => (s, false)
  | some x =>
    if x.setFlag then
      match x.setWeek with
      | some w => serveLine e.1 e.2 (some w) 289 s
      | none =>
        match s.chooseWeek x.article x.quantity with
        | some w => serveLine e.1 e.2 (some w) 289 s
        | none => (s, false)
    else serveLine e.1 e.2 none 289 s

/-- The walk of an allocation pass (R101). -/
def serveEntries : List (Nat × Nat) → Store → Store
  | [], s => s
  | e :: es, s =>
    let r := s.serveEntry e
    if r.2 then r.1 else serveEntries es r.1

/-- The allocation pass, where one is due (R100). -/
def allocationPass (s : Store) : Store :=
  if s.passDue then serveEntries s.waiting { s with passDue := false } else s

/-! ## Lane events that reach the Order Table (R138, R139, R144) -/

/-- A settled reading event (R138). -/
def settledEvent (s : Store) (l : Nat) (r : Int) : Store :=
  match (s.lane l).state with
  | .unsettled => if s.holdsWeight r then s.occupyLane l else ((s.freeLane l true).list (.lane l)).admissionPass
  | .free => if s.holdsWeight r then s.occupyLane l else s
  | .occupied => s
  | .assigned => withReport (s.weighLane l r) l
  | .done => s
  | .abandoned => s

/-- A valid sample is taken (R135). -/
def validSample (s : Store) (l : Nat) (raw : Int) : Store :=
  let s1 := s.joinReading l raw
  let s2 := match (s1.lane l).settled with
    | some r => s1.settledEvent l r
    | none => s1
  s2.restoreScale l

end Store

end Sys2Proof.Machine
end

