-- ==== Sys2Proof/Machine/PutAway.lean ====
section
/-! DEFINITION. The Put-away Planner: the planning run and the batch record (R118 to R129). -/

namespace Sys2Proof.Machine

open Sys2Proof

/-- The distance of two loads: the imbalance of a carrier and its opposite (R5). -/
def absDiff (a b : Nat) : Nat := (a - b) + (b - a)

/-- A planning run in progress (R122): the remaining quantity, the slots tried, and whether it has been refused room. -/
structure Run where
  store : Store
  remaining : Nat
  tried : List Nat
  stopped : Bool

namespace Store

/-- The record of the opposite carrier (R5). -/
def oppositeRecord (r : Nat) : Nat := r / 24 * 24 + (r % 24 + 12) % 24

/-- The present load of a slot's carrier (R5). -/
def slotCarrierLoad (s : Store) (q : Nat) : Nat := (s.carrier (slotRecord q)).load

/-- The four conditions of the quantity rule (R123). -/
def quantityAllowed (s : Store) (q w remaining k : Nat) : Bool :=
  let load := s.slotCarrierLoad q
  let opposite := (s.carrier (oppositeRecord (slotRecord q))).load
  let after := absDiff (load + k * w) opposite
  k ≤ remaining &&
  k + (s.slot q).count + (s.slot q).incoming ≤ s.depthOf q &&
  load + k * w ≤ s.cfg.loadLimit &&
  (after ≤ s.cfg.imbalanceLimit || after < absDiff load opposite)

/-- The quantity for a slot: the largest of 12 down to 1 that meets the four conditions, else 0 (R123). -/
def quantityFor (s : Store) (q w remaining : Nat) : Nat :=
  (((List.range 12).map (12 - ·)).find? (s.quantityAllowed q w remaining)).getD 0

/-- The OPEN batch of a record. -/
def openBatch (s : Store) (b : Nat) : Option Batch :=
  match s.batch b with
  | .opened x => some x
  | .free => none
  | .done _ => none

/-- An OPEN batch changed. -/
def updBatch (s : Store) (b : Nat) (f : Batch → Batch) : Store :=
  match s.openBatch b with
  | some x => s.setBatch b (.opened (f x))
  | none => s

/-- A top-up candidate (R124). -/
def topUpCandidate (s : Store) (a week q : Nat) : Bool :=
  let x := s.slot q
  s.fitted (slotCarousel q) && s.eligible q && x.article == some a && x.lotWeek == some week &&
    x.count + x.incoming < s.depthOf q

/-- An empty-slot candidate (R125). -/
def emptyCandidate (s : Store) (a q : Nat) : Bool :=
  let x := s.slot q
  s.fitted (slotCarousel q) && x.count + x.incoming == 0 && s.eligible q && s.fits a q

/-- The better of two empty-slot candidates met in ascending slot number: the lower carrier load (R125). -/
def lighter (s : Store) (best : Option Nat) (q : Nat) : Option Nat :=
  match best with
  | none => some q
  | some b => if s.slotCarrierLoad q < s.slotCarrierLoad b then some q else some b

/-- The empty-slot stage's choice among the untried candidates (R125). -/
def chooseEmpty (s : Store) (a : Nat) (tried : List Nat) : Option Nat :=
  ((List.range 288).filter fun q => !tried.contains q && s.emptyCandidate a q).foldl s.lighter none

end Store

namespace Run

/-- Whether a run goes on: quantity remains and no claim was refused room (R122). -/
def goesOn (x : Run) : Bool := 0 < x.remaining && !x.stopped

/-- A chosen slot offered to a run: the quantity found, the claim made, the slot tried (R122, R123). -/
def offer (b a week : Nat) (x : Run) (q : Nat) : Run :=
  let s := x.store
  let k := s.quantityFor q (s.weightOf a) x.remaining
  let tried := q :: x.tried
  if k = 0 then { x with tried := tried }
  else
    match s.claimPut q b a week k with
    | (.taken, s') =>
      { store := s'.updBatch b fun y => { y with planned := y.planned + k }
        remaining := x.remaining - k, tried := tried, stopped := false }
    | (.full, _) => { x with tried := tried, stopped := true }
    | (.refused, _) => { x with tried := tried }

/-- The top-up stage: the candidates in ascending slot number, each once (R124). -/
def topUp (b a week : Nat) (x : Run) : Run :=
  (List.range 288).foldl
    (fun x q => if x.goesOn && x.store.topUpCandidate a week q then offer b a week x q else x) x

/-- The empty-slot stage: at most 288 choices (R125). -/
def fillEmpty (b a week : Nat) : Nat → Run → Run
  | 0, x => x
  | n + 1, x =>
    if x.goesOn then
      match x.store.chooseEmpty a x.tried with
      | none => x
      | some q => fillEmpty b a week n (offer b a week x q)
    else x

end Run

namespace Store

/-- A planning run of a quantity for an OPEN batch: the store after it and its shortfall (R122). -/
def planRun (s : Store) (b quantity : Nat) : Store × Nat :=
  match s.openBatch b with
  | none => (s, quantity)
  | some x =>
    let r1 := Run.topUp b x.article x.lotWeek ⟨s, quantity, [], false⟩
    let r2 := Run.fillEmpty b x.article x.lotWeek 288 r1
    (r2.store, r2.remaining)

/-- The completion check of a batch: planned 0 makes it DONE (R129). -/
def batchCheck (s : Store) (b : Nat) : Store :=
  match s.openBatch b with
  | none => s
  | some x =>
    if x.planned = 0 then (s.setBatch b (.done x)).raise (.batch b) Flag.batchDone else s

/-- Unplaced raised by a shortfall, with UNPLACED where it is above 0 (R127, R128). -/
def addUnplaced (s : Store) (b k : Nat) : Store :=
  let s1 := s.updBatch b fun y => { y with unplaced := y.unplaced + k }
  if 0 < k then s1.raise (.batch b) Flag.batchUnplaced else s1

/-- What the Planner does at a put confirmation of `k` against `q` (R127). -/
def batchConfirmed (s : Store) (b k q : Nat) : Store :=
  let s1 := s.updBatch b fun y => { y with planned := y.planned - q, placed := y.placed + k }
  (s1.addUnplaced b (q - k)).batchCheck b

/-- What the Planner does at the release of a PUT reservation of quantity `q` (R128). -/
def batchReleased (s : Store) (b q : Nat) : Store :=
  let s1 := s.updBatch b fun y => { y with planned := y.planned - q }
  let r := s1.planRun b q
  (r.1.addUnplaced b r.2).batchCheck b

/-- A DONE record becomes FREE when its notice has been written (R129). -/
def batchNoticeWritten (s : Store) (b : Nat) : Store :=
  match s.batch b with
  | .done _ => s.setBatch b .free
  | .free => s
  | .opened _ => s

end Store

end Sys2Proof.Machine
end

