-- ==== Sys2Proof/Machine/Releases.lean ====
section
/-! DEFINITION. The end of presentations (R59, R66 to R69), the release of reservations (R17), the SUSPECT marking
(R9) and the fence (R47). -/

namespace Sys2Proof.Machine

open Sys2Proof

/-- A face after its presentation has ended (R54, R66). -/
def Face.ended (f : Face) (st : FaceState) : Face :=
  { f with state := st, carrier := none, kind := none, bays := #v[[], [], []], held := [], selected := none }

/-- Whether every bay list of a face is empty. -/
def Face.isWorked (f : Face) : Bool := f.bays.toList.all List.isEmpty

/-- Whether an item refers to a reservation. -/
def Item.refersTo (num : Nat) (it : Item) : Bool :=
  match it.ref with
  | .pick n => n == num
  | .put n => n == num
  | .count _ => false

namespace Store

/-- A presentation whose bay lists are all empty closes (R66). -/
def closePresentation (s : Store) (n f : Nat) : Store :=
  let i := faceIndex n f
  let fc := s.face i
  match fc.carrier with
  | none => s
  | some c =>
    let r := recordOf n c
    let s1 := s.putFace i (fc.ended .idle)
    let s2 := s1.markFaceOpen r false
    let s3 := if fc.kind = some .count then
        (match s2.entryOf r with
          | some a => s2.countClosed a
          | none => s2)
      else s2
    let s4 := s3.serviceCheck n
    (s4.derive i).list (.status (4 + i))

/-- The check of a presentation after a confirmation or a drop (R59, R62): it closes, or its display is derived. -/
def checkPresentation (s : Store) (n f : Nat) : Store :=
  let i := faceIndex n f
  if (s.face i).isWorked then s.closePresentation n f else (s.derive i).list (.status (4 + i))

/-- The item of a released PRESENTED reservation is dropped (R59). -/
def dropItem (s : Store) (n f num : Nat) : Store :=
  let i := faceIndex n f
  let fc := s.face i
  match firstBelow 3 fun b => (look fc.bays [] b).any (Item.refersTo num) with
  | none => s
  | some b =>
    let items := look fc.bays [] b
    let atHead := (items.head?).any (Item.refersTo num)
    let bays := put fc.bays b (items.filter fun it => !Item.refersTo num it)
    let fc' := if atHead then
        { fc with
          bays := bays, held := fc.held.filter (· != b)
          selected := if fc.selected = some b then none else fc.selected }
      else { fc with bays := bays }
    (s.putFace i fc').checkPresentation n f

/-! ## Releases (R17) -/

/-- What a release does to the slot (R17). -/
def releaseSlot (r : Reservation) (q : Slot) : Slot :=
  match r.claim with
  | .pick _ _ => { q with reserved := q.reserved - r.quantity }
  | .put _ => { q with incoming := q.incoming - r.quantity }

/-- A released reservation handed back to the Order Table or the Planner (R17, R107, R128). -/
def handBack (s : Store) (r : Reservation) : Store :=
  match r.claim with
  | .pick k l => s.lineReleased k l r.quantity
  | .put b => s.batchReleased b r.quantity

/-- A reservation that the cancellation of its own order releases handed back: the end of the cancellation is checked
once, after the whole claim (R113 steps 2 and 4, R114). -/
def handBackCancelled (s : Store) (r : Reservation) : Store :=
  match r.claim with
  | .pick k l => s.lineLowered k l r.quantity
  | .put _ => s

/-- A released reservation taken off its queue entry or out of its presentation, and whether a queue entry was removed (R17). -/
def withdraw (s : Store) (r : Reservation) : Store × Bool :=
  let n := slotCarousel r.slot
  match r.state with
  | .reserved => (s, false)
  | .queued _ => s.detach n r.number
  | .presented f => (s.dropItem n f r.number, false)

/-- One reservation released and handed back (R17, R18; log 17), with the carousels that have lost a queue entry so far. -/
def releaseOne (back : Store → Reservation → Store) (x : Store × List Nat) (num : Nat) : Store × List Nat :=
  match x.1.reservation num with
  | none => x
  | some r =>
    let s1 := (x.1.dropReservation num).changeSlot r.slot (releaseSlot r)
    let s2 := back s1 r
    let s3 := s2.withdraw r
    let s4 := s3.1.drainedCheck (slotRecord r.slot)
    (s4, if s3.2 then x.2 ++ [slotCarousel r.slot] else x.2)

/-- The reservations one claim releases, oldest first; then the allocation pass is triggered once, and placement is
retried where a queue entry was removed (R17, R35; log 18). -/
def releaseMany (back : Store → Reservation → Store) (s : Store) (nums : List Nat) : Store :=
  if nums = [] then s
  else
    let r := nums.foldl (releaseOne back) (s, [])
    ((List.range 4).filter r.2.contains).foldl afterRemoval r.1.triggerPass

/-- The numbers of reservations. -/
def numbers (rs : List Reservation) : List Nat := rs.map fun r => r.number

/-- A carrier is marked SUSPECT (R9). -/
def suspectMark (s : Store) (r : Nat) : Store :=
  if (s.carrier r).suspect then s
  else
    let s1 := s.updCarrier r fun c => { c with suspect := true }
    let s2 := releaseMany handBack s1 (numbers (s1.onCarrier r))
    s2.stockAudit r .suspect

/-! ## The fence (R47, R67) -/

/-- The presentation of a face ended by a fence (R67). -/
def closeForFence (s : Store) (n f : Nat) : Store :=
  let i := faceIndex n f
  let fc := s.face i
  if fc.state = .presenting then
    let s1 := s.putFace i (fc.ended .idle)
    let s2 := match fc.carrier with
      | some c => s1.markFaceOpen (recordOf n c) false
      | none => s1
    s2.list (.status (4 + i))
  else s

/-- The carrier a face presents. -/
def presentedCarrier (s : Store) (n f : Nat) : Option Nat :=
  if s.facePresenting n f then (s.face (faceIndex n f)).carrier else none

/-- The carriers presented at a carousel's faces, in carrier-number order (R47). -/
def presentedCarriers (s : Store) (n : Nat) : List Nat :=
  match s.presentedCarrier n 0, s.presentedCarrier n 1 with
  | some a, some b => if a ≤ b then [a, b] else [b, a]
  | some a, none => [a]
  | none, some b => [b]
  | none, none => []

/-- A carousel is fenced (R47), its steps in order. Of two open presentations that of face 0 is closed first: DESIGN
CHOICE, log 6. -/
def fence (s : Store) (n : Nat) (cause : FenceCause) (code : Option Nat) : Store :=
  let presented := s.presentedCarriers n
  let s2 := s.putChannel n { s.channel n with
    state := .fenced, position := none, target := none, deadline := none, queue := [], pendingCount := none
    fenceCause := some cause, faultCode := code }
  let s3 := (s2.closeForFence n 0).closeForFence n 1
  let s4 := presented.foldl (fun s c => s.suspectMark (recordOf n c)) s3
  let s5 := releaseMany handBack s4 (numbers (s4.onCarousel n))
  let s6 := (s5.auditFence n).deriveBoth n
  (s6.raise (.carousel n) Flag.carouselFenced).list (.status n)

/-! ## A panel leaves or enters READY (R68, R69) -/

/-- A suspension ends the presentation of a face (R69), its steps in order. -/
def suspend (s : Store) (n f c : Nat) : Store :=
  let i := faceIndex n f
  let fc := s.face i
  let r := recordOf n c
  let s1 := s.putFace i { fc.ended .halted with lastSuspended := some c }
  let s2 := s1.markFaceOpen r false
  let s3 := if fc.kind = some .count then
      (match s2.entryOf r with
        | some a => s2.abandonCount n a
        | none => s2)
    else s2
  let s4 := s3.suspectMark r
  let s5 := (s4.tellHalted n f).serviceCheck n
  let s6 := s5.raise (.face i) (Flag.faceSuspended ||| Flag.faceHalted)
  (s6.derive i).list (.status (4 + i))

/-- An IDLE face whose panel leaves READY halts (R68). -/
def haltIdle (s : Store) (n f : Nat) : Store :=
  let i := faceIndex n f
  let s1 := s.putFace i { s.face i with state := .halted, held := [], selected := none }
  let s2 := (s1.tellHalted n f).raise (.face i) Flag.faceHalted
  (s2.derive i).list (.status (4 + i))

/-- The Face Controller is told that the panel at face index `i` has left READY (R68, R69). -/
def panelLeft (s : Store) (i : Nat) : Store :=
  let fc := s.face i
  match fc.state with
  | .halted => s
  | .idle => s.haltIdle (i / 2) (i % 2)
  | .presenting =>
    match fc.carrier with
    | some c => s.suspend (i / 2) (i % 2) c
    | none => s.haltIdle (i / 2) (i % 2)

/-- The Face Controller is told that the panel at face index `i` has entered READY (R68). -/
def panelEntered (s : Store) (i : Nat) : Store :=
  let fc := s.face i
  if fc.state = .halted then
    let s1 := s.putFace i { fc with state := .idle }
    let s2 := s1.tellWorking (i / 2) (i % 2)
    ((s2.raise (.face i) Flag.faceResumed).list (.status (4 + i))).derive i
  else s

end Store

end Sys2Proof.Machine
end

