-- ==== Sys2Proof/Machine/Carousels.lean ====
section
/-! DEFINITION. What a channel does with a drive report, a change of its gate line and the expiry of its deadline (R41
to R50). -/

namespace Sys2Proof.Machine

open Sys2Proof

namespace Store

/-- ARRIVED in MOVING (R41). -/
def arrive (s : Store) (n p : Nat) : Store :=
  let c := s.channel n
  if c.target.map Prod.fst = some p then
    let s1 := s.changeChannel n { c with state := .idle, position := some p, target := none, deadline := none }
    (s1.serveAt n p).serviceCheck n
  else s.fence n .wrongPosition none

/-- HELD is left for IDLE at the stopped position (R45). -/
def leaveHeld (s : Store) (n : Nat) : Store :=
  let s1 := s.changeChannel n { s.channel n with state := .idle, target := none }
  (s1.raise (.carousel n) Flag.carouselResumed).serviceCheck n

/-- STOPPED in MOVING: a short stop (R42). -/
def stopShort (s : Store) (n p : Nat) : Store :=
  let c := s.channel n
  let s1 := s.changeChannel n { c with state := .held, position := some p, deadline := none }
  let s2 := s1.raise (.carousel n) Flag.carouselHeld
  if c.gate = .closed then s2.leaveHeld n else s2

/-- HOMED in HOMING ends the homing run (R49). -/
def homedRun (s : Store) (n : Nat) : Store :=
  let s1 := s.putChannel n { s.channel n with
    state := .idle, position := some 0, deadline := none, fenceCause := none, faultCode := none }
  let s2 := ((s1.deriveBoth n).countingCheck n).triggerPass
  ((s2.raise (.carousel n) Flag.carouselHomed).list (.status n)).serviceCheck n

/-- A report taken in HOMING (R46, R50). -/
def reportHoming (s : Store) (n : Nat) : DriveReport → Store
  | .arrived _ => s.fence n .unsolicited none
  | .stopped _ => s.fence n .homingStopped none
  | .homed => s.homedRun n
  | .fault c => s.fence n .driveFault (some c)

/-- A report taken in IDLE or HELD fences the carousel; a FAULT records its code (R46). -/
def reportUnsolicited (s : Store) (n : Nat) : DriveReport → Store
  | .arrived _ => s.fence n .unsolicited none
  | .stopped _ => s.fence n .unsolicited none
  | .homed => s.fence n .unsolicited none
  | .fault c => s.fence n .unsolicited (some c)

/-- A report taken in MOVING (R41, R42, R46). -/
def reportMoving (s : Store) (n : Nat) : DriveReport → Store
  | .arrived p => s.arrive n p
  | .stopped p => s.stopShort n p
  | .homed => s.fence n .unsolicited none
  | .fault c => s.fence n .driveFault (some c)

/-- A drive report by the channel's state (R46). -/
def takeReport (s : Store) (n : Nat) (r : DriveReport) : Store :=
  match (s.channel n).state with
  | .unhomed => s
  | .fenced => s
  | .homing => s.reportHoming n r
  | .idle => s.reportUnsolicited n r
  | .held => s.reportUnsolicited n r
  | .moving => s.reportMoving n r

/-- One byte from the drive: gathered into the window, and the report it completes taken (R197). -/
def driveByte (n : Nat) (s : Store) (b : Byte) : Store :=
  let g := driveGather (s.channel n).window b
  let s1 := s.putChannel n { s.channel n with window := g.1 }
  match g.2 with
  | some r => s1.takeReport n r
  | none => s1

/-- The gate line goes low (R44). -/
def gateOpened (s : Store) (n : Nat) : Store :=
  (s.setChannel n { s.channel n with gate := .opened }).raise (.carousel n) Flag.carouselGateOpened

/-- The gate line goes high (R44): HELD is left, and an IDLE channel makes the service check. -/
def gateClosed (s : Store) (n : Nat) : Store :=
  let s1 := (s.setChannel n { s.channel n with gate := .closed }).raise (.carousel n) Flag.carouselGateClosed
  match (s.channel n).state with
  | .held => s1.leaveHeld n
  | .idle => s1.serviceCheck n
  | .unhomed => s1
  | .homing => s1
  | .moving => s1
  | .fenced => s1

/-- The deadline expires: the carousel is fenced (R43). -/
def expireDeadline (s : Store) (n : Nat) : Store :=
  if (s.channel n).deadline.isSome then s.fence n .deadline none else s

/-- HOME sent over the drive link (R48). -/
def sendHome (s : Store) (n : Nat) : Store :=
  let cc := s.cfg.carousel n
  s.changeChannel n { s.channel n with
    state := .homing, deadline := some (24 * cc.stepTime + cc.settleAllowance), sent := homeMessage }

end Store

end Sys2Proof.Machine
end

