-- ==== Sys2Proof/Machine/PanelLink.lean ====
section
/-! DEFINITION. The Panel Link Unit: the command exchange (R79), identification (R80), OFFLINE (R81), restart (R82),
receiving (R83 to R85), display agreement (R86) and the holder (R87). -/

namespace Sys2Proof.Machine

open Sys2Proof

/-- The first difference between the sent and the desired record, as the command for it (R86). -/
def firstDifference (shown desired : Display) : Option PanelCommand :=
  let bay (b : Nat) : BayDisplay := look desired.bays BayDisplay.off b
  let differs (b : Nat) : Bool := look shown.bays BayDisplay.off b != bay b
  if shown.enabled ≠ desired.enabled then some (if desired.enabled then .enable else .halt)
  else if differs 0 then some (.showBay 0 (bay 0))
  else if differs 1 then some (.showBay 1 (bay 1))
  else if differs 2 then some (.showBay 2 (bay 2))
  else if shown.note ≠ desired.note then some (.note desired.note)
  else none

/-- The sent record after an acknowledged command (R86). -/
def Display.acknowledge (d : Display) : PanelCommand → Display
  | .enable => { d with enabled := true }
  | .halt => { d with enabled := false }
  | .showBay b c => { d with bays := put d.bays b c }
  | .note n => { d with note := n }
  | .identify => d
  | .repeatTiming _ => d

/-- A command sent on a line: outstanding with its try, the answer timer started (R79). The whole run of bytes goes out
in the step of the event that sends it, so no panel byte comes between the first and the last (DESIGN CHOICE, log 38). -/
def Panel.send (x : Panel) (c : PanelCommand) (attempt : Nat) : Panel :=
  { x with
    outstanding := some c, attempt := some attempt, timer := some Config.answerTime, sentBytes := Code.panelBytes c }

/-- A line with no exchange (R79, R81). -/
def Panel.quiet (x : Panel) : Panel := { x with outstanding := none, attempt := none, timer := none }

/-- A panel OFFLINE (R81). -/
def Panel.offline (x : Panel) : Panel :=
  { x.quiet with
    line := .offline, step := none, received := .none, shown := none, holder := none, inhibit := false }

namespace Store

/-! ## Display agreement (R86) -/

/-- The comparison of a panel's sent record with its face's desired record (R86). -/
def agreePanel (s : Store) (p : Nat) : Store :=
  let x := s.panel p
  if x.line = .ready ∧ x.outstanding = none then
    match x.shown with
    | none => s
    | some d =>
      match firstDifference d (s.face p).desired with
      | some c => s.putPanel p (x.send c 1)
      | none => s
  else s

/-- The comparison at the end of an event, for every panel (R86; log 6). -/
def agreeAll (s : Store) : Store := (List.range 8).foldl agreePanel s

/-! ## The exchange (R79 to R81) -/

/-- A panel goes OFFLINE (R81), its steps in order. -/
def goOffline (s : Store) (p : Nat) : Store :=
  let x := s.panel p
  let s1 := s.putPanel p x.offline
  let s2 := if x.line = .ready then s1.panelLeft p else s1
  s2.list (.status (4 + p))

/-- A failure of the outstanding exchange: sent again at try 1, OFFLINE at try 2 (R79, R80). -/
def failExchange (s : Store) (p : Nat) : Store :=
  let x := s.panel p
  match x.outstanding with
  | none => s
  | some c =>
    if x.attempt = some 1 then
      let step := if x.step = some .awaitIdent then some IdentStep.awaitAck else x.step
      s.putPanel p { x.send c 2 with step := step }
    else s.goOffline p

/-- The ACK of REPEAT: the panel enters READY (R80). -/
def enterReady (s : Store) (p : Nat) : Store :=
  let s1 := s.putPanel p { (s.panel p).quiet with line := .ready, step := none }
  (s1.panelEntered p).list (.status (4 + p))

/-- An ACK (R79, R80). -/
def takeAck (s : Store) (p : Nat) : Store :=
  let x := s.panel p
  match x.outstanding with
  | none => s
  | some c =>
    match x.step with
    | some .awaitAck => s.putPanel p { x with step := some .awaitIdent, timer := some Config.answerTime }
    | some .awaitIdent => s
    | some .awaitRepeatAck => s.enterReady p
    | none => s.putPanel p { x.quiet with shown := x.shown.map fun d => d.acknowledge c }

/-- A NAK is a failure of the outstanding exchange (R79). -/
def takeNak (s : Store) (p : Nat) : Store := s.failExchange p

/-- A complete IDENT message (R80). -/
def takeIdent (s : Store) (p : Nat) (type : Byte) : Store :=
  let x := s.panel p
  if x.line = .identifying ∧ x.step = some .awaitIdent then
    if type = Code.threeBayType then
      s.putPanel p { x.send (.repeatTiming s.cfg.repeatByte) 1 with
        shown := some Display.panelReset, step := some .awaitRepeatAck }
    else (s.putPanel p { x with wrongType := true }).goOffline p
  else s

/-- A completed key event (R80, R87). -/
def takeEvent (s : Store) (p : Nat) (e : KeyEvent) : Store :=
  let x := s.panel p
  if x.line = .ready then
    match x.holder with
    | none => s.putPanel p { x with holder := some e, inhibit := true }
    | some _ => s.setPanel p { x with overrun := true }
  else s

/-! ## Receiving (R83 to R85) -/

/-- The pending received message set. -/
def setReceived (s : Store) (p : Nat) (m : PendingMessage) : Store := s.putPanel p { s.panel p with received := m }

/-- A byte read with no message pending (R83). -/
def freshByte (s : Store) (p : Nat) (b : Byte) : Store :=
  if b = Code.byteAck then s.takeAck p
  else if b = Code.byteNak then s.takeNak p
  else if b = Code.byteIdent then s.setReceived p .ident
  else if b = Code.byteBreak then s.setReceived p .breakPrefix
  else
    match Code.keyOf b with
    | some k => s.takeEvent p ⟨k, true⟩
    | none => s

/-- A good byte from a panel (R83, R84). -/
def panelByte (p : Nat) (s : Store) (b : Byte) : Store :=
  let x := s.panel p
  if x.line = .offline then s
  else
    match x.received with
    | .none => s.freshByte p b
    | .breakPrefix =>
      let s1 := s.setReceived p .none
      match Code.keyOf b with
      | some k => s1.takeEvent p ⟨k, false⟩
      | none => s1.freshByte p b
    | .ident =>
      let s1 := s.setReceived p .none
      if Code.isParameter b then s1.takeIdent p b else s1.freshByte p b

/-- A byte with a parity or a framing failure (R85). -/
def badByte (s : Store) (p : Nat) (parity framing : Bool) : Store :=
  let x := s.panel p
  if x.line = .offline then s
  else s.setPanel p { x with parity := x.parity || parity, framing := x.framing || framing }

/-- The answer timer expires (R79). -/
def expireAnswer (s : Store) (p : Nat) : Store := if (s.panel p).timer.isSome then s.failExchange p else s

/-! ## Restart (R82) -/

/-- An identification begins: IDENTIFY with try 1 (R80). -/
def beginIdentification (s : Store) (p : Nat) : Store :=
  s.putPanel p { (s.panel p).send .identify 1 with line := .identifying, step := some .awaitAck }

/-- An accepted PANEL_RESTART (R82), its steps in order. -/
def restartPanel (s : Store) (p : Nat) : Store :=
  let x := s.panel p
  let y := { x.quiet with
    overrun := false, parity := false, framing := false, wrongType := false
    received := .none, holder := none, inhibit := false }
  let s1 := if x.line = .ready then (s.putPanel p { y with shown := none }).panelLeft p else s.putPanel p y
  (s1.beginIdentification p).list (.status (4 + p))

end Store

end Sys2Proof.Machine
end

