-- ==== Sys2Proof/Machine/FaceKeys.lean ====
section
/-! DEFINITION. Key events at the face (R60 to R62), the confirmations they make (R19, R20, R63 to R65), the taking of
an event from the holder (R88), and the end of an event of the job blocks (R86, R100). -/

namespace Sys2Proof.Machine

open Sys2Proof

/-- The bay of a bay key. -/
def keyBay : Key → Option Nat
  | .bay0 => some 0
  | .bay1 => some 1
  | .bay2 => some 2
  | .plus => none
  | .minus => none

namespace Store

/-! ## Confirmations -/

/-- A pick confirmation of `k` tyres (R19), with what the Order Table and the lane do (R108, R142). At a short pick SHORT
is raised at the hand-over (R108), before the audit is asked for, where R19 names the audit first: DESIGN CHOICE, log 6. -/
def pickConfirm (s : Store) (num k : Nat) : Store :=
  match s.reservation num with
  | none => s
  | some r =>
    match r.claim with
    | .put _ => s
    | .pick o l =>
      let q := r.quantity
      let a := (s.slot r.slot).article.getD 0
      let s1 := (s.dropReservation num).changeSlot r.slot fun x =>
        { x with count := x.count - k, reserved := x.reserved - q }
      let s2 := s1.lineConfirmed o l k q
      let s3 := match (s2.order o).bind fun x => x.lane with
        | some ln => withReport (s2.confirmLane ln k (k * s.weightOf a) (k * s.toleranceOf a)) ln
        | none => s2
      let s4 := s3.orderChecks o l
      let s5 := if k < q then s4.stockAudit (slotRecord r.slot) .shortPick else s4
      (s5.drainedCheck (slotRecord r.slot)).triggerPass

/-- A put confirmation of `k` tyres (R20), with what the Planner does (R127). -/
def putConfirm (s : Store) (num k : Nat) : Store :=
  match s.reservation num with
  | none => s
  | some r =>
    match r.claim with
    | .pick _ _ => s
    | .put b =>
      let q := r.quantity
      let s1 := (s.dropReservation num).changeSlot r.slot fun x =>
        { x with count := x.count + k, incoming := x.incoming - q }
      let s2 := s1.batchConfirmed b k q
      (s2.drainedCheck (slotRecord r.slot)).triggerPass

/-- A new COUNT item handed back as the head of the bay's list (R65). -/
def recountItem (s : Store) (i b a : Nat) : Store :=
  let fc := s.face i
  s.putFace i { fc with bays := put fc.bays b [countItem a] }

/-- A confirmed item dispatched to its owner (R62 to R65). -/
def dispatch (s : Store) (i b : Nat) (it : Item) : Store :=
  match it.ref with
  | .pick num => s.pickConfirm num it.displayed
  | .put num => s.putConfirm num it.displayed
  | .count a =>
    let r := s.countConfirm a b it.displayed
    if r.2 then r.1.recountItem i b a else r.1

/-- The head item of a bay confirmed (R62). -/
def confirmBay (s : Store) (i b : Nat) : Store :=
  let fc := s.face i
  match look fc.bays [] b with
  | [] => s.list (.status (4 + i))
  | it :: rest =>
    ((s.putFace i { fc with bays := put fc.bays b rest }).dispatch i b it).checkPresentation (i / 2) (i % 2)

/-! ## Key events (R61, R62) -/

/-- A bay key make at a PRESENTING face (R61). -/
def bayMake (s : Store) (i b : Nat) : Store :=
  let fc := s.face i
  s.setFace i { fc with held := fc.held.filter (· != b) ++ [b], selected := some b }

/-- The displayed quantity after PLUS or MINUS, within its range (R61). -/
def adjusted (it : Item) (up : Bool) : Nat :=
  let top := match it.ref with
    | .pick _ => it.expected.getD 0
    | .put _ => it.expected.getD 0
    | .count _ => 99
  if up then (if it.displayed < top then it.displayed + 1 else it.displayed) else it.displayed - 1

/-- PLUS or MINUS at a PRESENTING face (R61). -/
def adjust (s : Store) (i : Nat) (up : Bool) : Store :=
  let fc := s.face i
  match fc.selected with
  | none => s
  | some b =>
    match look fc.bays [] b with
    | [] => s
    | it :: rest =>
      if adjusted it up = it.displayed then s
      else
        let s1 := s.putFace i { fc with bays := put fc.bays b ({ it with displayed := adjusted it up } :: rest) }
        (s1.derive i).list (.status (4 + i))

/-- A bay key break at a PRESENTING face (R62). -/
def bayBreak (s : Store) (i b : Nat) : Store :=
  let fc := s.face i
  if fc.held.contains b then
    let held := fc.held.filter (· != b)
    let s1 := s.putFace i { fc with
      held := held, selected := if fc.selected = some b then held.getLast? else fc.selected }
    s1.confirmBay i b
  else s

/-- A key event acting at a face (R60 to R62): in an IDLE or HALTED face it is discarded. -/
def actKey (s : Store) (i : Nat) (e : KeyEvent) : Store :=
  if (s.face i).state = .presenting then
    match keyBay e.key with
    | some b => if e.make then s.bayMake i b else s.bayBreak i b
    | none => if e.make then s.adjust i (e.key == Key.plus) else s
  else s

/-! ## The holder (R88) -/

/-- Whether the Face Controller takes what is in a panel's holder (R88). -/
def mayTake (s : Store) (p : Nat) : Bool :=
  let x := s.panel p
  x.line == .ready && x.outstanding.isNone && x.shown == some (s.face p).desired

/-- The holder emptied and the inhibit line released (R88). -/
def emptyHolder (s : Store) (p : Nat) : Store :=
  s.putPanel p { s.panel p with holder := none, inhibit := false }

/-- The end of an event of the job blocks: the allocation pass if one is due, then the comparison of every display
(R86, R100; log 6). -/
def eventEnd (s : Store) : Store := s.allocationPass.agreeAll

/-- The event in a panel's holder is taken, where R88 allows it and the event is of a kind, and acts at the face. -/
def takeKeyIf (s : Store) (p : Nat) (kind : KeyEvent → Bool) : Store :=
  match (s.panel p).holder with
  | none => s
  | some e => if s.mayTake p && kind e then ((s.emptyHolder p).actKey p e).eventEnd else s

/-- The event in a panel's holder is taken, where R88 allows it. -/
def takeKey (s : Store) (p : Nat) : Store := s.takeKeyIf p fun _ => true

/-- The bytes of a panel message, with what follows in the same event (R83, R86, R88). -/
def panelMessage (s : Store) (p : Nat) (bs : List Byte) : Store :=
  ((bs.foldl (panelByte p) s).eventEnd).takeKey p

end Store

end Sys2Proof.Machine
end

