-- ==== Sys2Proof/Machine/Path.lean ====
section
/-! DEFINITION. The Path Unit, the Intake's take check, the Report Writer's choice and the arbiter (R171, R172, R178,
R182, R184 to R192). -/

namespace Sys2Proof.Machine

open Sys2Proof

namespace State

/-- Whether the part is working (R184). -/
def working (s : State) : Bool := s.path.condition == .working

/-- The attention line (R182; log 32). -/
def attentionLine (s : State) : Bool := s.report.produce != s.report.consume && s.path.attention

/-- The base address of a window. -/
def base (s : State) (w : Window) : Nat := s.store.cfg.base w

/-- The address of a word of the control window. -/
def controlAddress (s : State) (offset : Nat) : Nat := s.base .control + offset

/-- The address of a request entry. -/
def entryAddress (s : State) (e : Nat) : Nat := s.base .request + 64 * e

/-- The address of a report entry. -/
def reportAddress (s : State) (e : Nat) : Nat := s.base .report + 32 * e

/-- The last upstream access has ended. -/
def endAccess (s : State) (x : Ending) : State := { s with path := { s.path with ending := some x } }

/-- A claim of classes 2 to 4 joins those that wait (R192). -/
def claim (s : State) (t : Transfer) : State := { s with path := { s.path with claims := s.path.claims ++ [t] } }

/-- The port is free: the transfer has completed. -/
def freePort (s : State) : State := { s with path := { s.path with port := none } }

/-- The words of a transfer have been written to memory. -/
def writeMem (s : State) (a : Nat) (ws : List Word) : State := { s with mem := Memory.writeWords s.mem a ws }

/-- A change of the job blocks' store. -/
def onStore (s : State) (f : Store → Store) : State := { s with store := f s.store }

/-! ## The Intake (R172) -/

/-- The entry at an index of the request ring. -/
def entryOfIndex (i : Half) : Nat := i.toNat % Config.requestEntries

/-- Whether an address lies in a request entry. -/
def inEntry (s : State) (e a : Nat) : Bool := s.entryAddress e ≤ a && a < s.entryAddress e + 64

/-- The number of unread report entries (R176). -/
def unread (s : State) : Nat := (s.report.produce - s.report.consume).toNat

/-- Whether the report ring has room (R176). -/
def hasRoom (s : State) : Bool := s.unread < Config.reportEntries

/-- Whether the Intake takes the entry at its index (R172). -/
def mayTakeEntry (s : State) : Bool :=
  let e := entryOfIndex s.intake.index
  s.intake.state == .waiting && look s.path.marks false e &&
    !s.path.posted.any (fun w => s.inEntry e w.address) && s.hasRoom &&
    s.report.completion.isNone && s.report.writing != some .completion

/-- The Intake's take check (R172). -/
def intakeTake (s : State) : State :=
  if s.mayTakeEntry then
    let e := entryOfIndex s.intake.index
    { s with intake := { s.intake with state := .reading e } }.claim (.entryRead e)
  else s

/-- The entry in hand (R173). -/
def entryInHand (s : State) : Option Nat :=
  match s.intake.state with
  | .waiting => none
  | .reading e => some e
  | .returning e _ => some e

/-- Whether the Intake is RETURNING. -/
def returning (s : State) : Bool :=
  match s.intake.state with
  | .waiting => false
  | .reading _ => false
  | .returning _ _ => true

/-! ## The Report Writer (R178, R179, R181) -/

/-- The entry a report write fills (R176). -/
def reportEntryIndex (s : State) : Nat := s.report.produce.toNat % Config.reportEntries

/-- The report write of the pending completion begins (R178). -/
def beginCompletion (s : State) (ws : List Word) : State :=
  { s with report := { s.report with completion := none, writing := some .completion } }.claim
    (.reportEntry s.reportEntryIndex ws)

/-- The refusal record a notice takes: a PATH notice clears it (R181). -/
def takenRecord (s : State) (n : Notice) : RefusalRecord :=
  if n.source = Source.path then s.path.refusals else ⟨none, 0⟩

/-- The report write of the notice at the head begins: its content is taken and it leaves the list (R179, R181). -/
def beginNotice (s : State) (n : Notice) (rest : List Notice) : State :=
  { s with
    report := { s.report with writing := some (.notice n (s.takenRecord n)) }
    path := { s.path with refusals := if n.source = Source.path then ⟨none, 0⟩ else s.path.refusals }
    store := { s.store with notices := rest } }.claim (.reportEntry s.reportEntryIndex (noticeWords s n))

/-- The Report Writer's choice (R178). -/
def reportBegin (s : State) : State :=
  if s.report.writing = none ∧ s.hasRoom = true then
    match s.report.completion with
    | some ws => s.beginCompletion ws
    | none =>
      if s.returning then s
      else
        match s.store.notices with
        | [] => s
        | n :: rest => s.beginNotice n rest
  else s

/-! ## The arbiter (R192) -/

/-- The class of a claim (R192). -/
def classOf : Transfer → Nat
  | .postedWrite => 1
  | .passedRead _ => 2
  | .entryRead _ => 3
  | .giveBack _ _ => 3
  | .intakeIndex _ _ => 3
  | .load _ => 3
  | .reportEntry _ _ => 4
  | .produceIndex _ _ => 4
  | .controlWord _ _ => 4
  | .burst _ _ => 5

/-- The claim that has waited longest in a class. -/
def oldestOf (s : State) (c : Nat) : Option Transfer := s.path.claims.find? fun t => classOf t == c

/-- The waiting claim of the lowest class from 2 to 4, the longest waiting in it. -/
def bestClaim (s : State) : Option Transfer :=
  (s.oldestOf 2).orElse fun _ => (s.oldestOf 3).orElse fun _ => s.oldestOf 4

/-- The port is granted to a transfer. -/
def grantTo (s : State) (t : Transfer) : State := { s with path := { s.path with port := some ⟨t, false⟩ } }

/-- The change count of an image record. -/
def changeCount (s : State) (r : ImageRecord) : Byte := look s.path.changeCounts 0 (recordIndex r)

/-- The burst of the record at the head of the list is granted: it leaves the list, its change count rises and its
content is fixed (R188, R189). -/
def grantBurst (s : State) (r : ImageRecord) (rest : List ImageRecord) : State :=
  let cc := s.changeCount r + 1
  { s with
    path := { s.path with changeCounts := put s.path.changeCounts (recordIndex r) cc }
    store := { s.store with writeBack := rest } }.grantTo (.burst r (recordWords s.store r cc.toNat))

/-- The arbiter grants a claim when the port is free and one waits (R192). -/
def arbitrate (s : State) : State :=
  if s.path.port.isSome then s
  else if s.path.posted ≠ [] then s.grantTo .postedWrite
  else
    match s.bestClaim with
    | some t => { s with path := { s.path with claims := s.path.claims.erase t } }.grantTo t
    | none =>
      if s.path.condition = .passOnly then s
      else
        match s.store.writeBack with
        | [] => s
        | r :: rest => s.grantBurst r rest

/-- What follows within every event: the take check, the Report Writer's choice and the arbiter (R172, R178, R192;
log 5). -/
def finish (s : State) : State :=
  (if s.working then s.intakeTake.reportBegin else s).arbitrate

/-- A job block's event: the change of its store, then what follows (log 5). -/
def jobEvent (s : State) (f : Store → Store) : State := (s.onStore f).finish

/-! ## Upstream accesses (R184 to R187) -/

/-- An upstream access is taken only when the one before has ended (R184; log 23). -/
def portalFree (s : State) : Bool := s.path.inFlight.isNone

/-- A read that is to be passed (R187): it claims the arbiter when the posted write buffer is empty. -/
def passRead (s : State) (a : Nat) : State :=
  let s1 := { s with path := { s.path with inFlight := some a, ending := none } }
  if s.path.posted = [] then s1.claim (.passedRead a) else s1

/-- Whether a burst of an image record is in progress (R189). -/
def burstOn (s : State) (r : ImageRecord) : Bool :=
  match s.path.port with
  | some ⟨.burst r' _, _⟩ => r == r'
  | _ => false

/-- Whether an address lies in an image record whose burst is in progress (R189). -/
def inBurst (s : State) (a : Nat) : Bool := (recordAt s.store.cfg a).any s.burstOn

/-- A read of probe data word 0 takes a snapshot (R191). -/
def probeTake (s : State) : State :=
  let v := probeSnapshotOf s.store s.path.probeSelect
  { s with path := { s.path with snapshot := some v } }.endAccess (.data (look v 0 0))

/-- A read of probe data word 1 to 7 (R191). -/
def probeRead (s : State) (i : Nat) : State :=
  s.endAccess (.data (match s.path.snapshot with
    | some v => look v 0 i
    | none => 0))

/-- The probe data word at an address, if it is one (R190). -/
def probeWordAt (s : State) (a : Nat) : Option Nat :=
  let o := a - s.base .control
  if s.store.cfg.covers .control a && Config.offProbeData ≤ o && o < Config.offProbeData + 32 then
    some ((o - Config.offProbeData) / 4)
  else none

/-- An upstream read of a working part (R185, R189 to R191). -/
def decodeRead (s : State) (a : Nat) : State :=
  match s.probeWordAt a with
  | some 0 => s.probeTake
  | some i => s.probeRead i
  | none => if s.inBurst a then s.endAccess .retry else s.passRead a

/-- An access has been treated: one that ended RETRY has no effect of any kind (R184), any other is an event (log 5). -/
def treated (s : State) : State := if s.path.ending = some .retry then s else s.finish

/-- An upstream read (R184), which returns the whole word whatever bytes the processor selects: DESIGN CHOICE, log 37. -/
def upstreamReadAt (s : State) (a : Nat) : State :=
  if s.portalFree then
    match s.path.condition with
    | .loading _ => s.endAccess .retry
    | .passOnly => (s.passRead a).treated
    | .working => (s.decodeRead a).treated
  else s

/-- Whether the posted write buffer is full (R187). -/
def bufferFull (s : State) : Bool := Config.postedCapacity ≤ s.path.posted.length

/-- A write accepted into the posted write buffer (R187). -/
def post (s : State) (a : Nat) (en : Enables) (d : Word) : State :=
  { s with path := { s.path with posted := s.path.posted ++ [(⟨a, en, d⟩ : PostedWrite)] } }.endAccess .done

/-- A write that is to be passed, with what its acceptance does: RETRY while the buffer is full (R186, R187). -/
def postWith (s : State) (a : Nat) (en : Enables) (d : Word) (watch : State → State) : State :=
  if s.bufferFull then s.endAccess .retry else watch (s.post a en d)

/-- The refusal record with one more refused write (R181). -/
def countRefusal (r : RefusalRecord) (a : Nat) : RefusalRecord :=
  ⟨r.first.orElse fun _ => some a, min 65535 (r.count + 1)⟩

/-- A refused write (R181, R186). -/
def refuseWrite (s : State) (a : Nat) : State :=
  { s with
    path := { s.path with refusals := countRefusal s.path.refusals a }
    store := s.store.raise .path Flag.pathWriteRefused }.endAccess .done

/-- A commit mark set or cleared (R171). -/
def setMark (s : State) (e : Nat) (v : Bool) : State :=
  { s with path := { s.path with marks := put s.path.marks e v } }

/-- A write to a request entry (R171, R173). -/
def writeRequest (s : State) (a : Nat) (en : Enables) (d : Word) : State :=
  let o := a - s.base .request
  let e := o / 64
  if s.entryInHand = some e then s.endAccess .retry
  else s.postWith a en d fun s' => if o % 64 = 0 && en.getLsbD 0 then s'.setMark e (d.getLsbD 0) else s'

/-- The consume index a write forms (R177). -/
def consumeValue (s : State) (en : Enables) (d : Word) : Half :=
  BitVec.ofNat 16 (lowHalf (mergeBytes (s.report.consume.setWidth 32) d en))

/-- A write to the consume index word (R177). -/
def writeConsume (s : State) (a : Nat) (en : Enables) (d : Word) : State :=
  let v := s.consumeValue en d
  if (v - s.report.consume).toNat ≤ s.unread then
    s.postWith a en d fun s' => { s' with report := { s'.report with consume := v } }
  else s.refuseWrite a

/-- A write to the attention enable word (R182). -/
def writeAttention (s : State) (a : Nat) (en : Enables) (d : Word) : State :=
  s.postWith a en d fun s' =>
    { s' with path := { s'.path with attention := if en.getLsbD 0 then d.getLsbD 0 else s'.path.attention } }

/-- A write to the probe select word (R191). -/
def writeProbe (s : State) (a : Nat) (en : Enables) (d : Word) : State :=
  s.postWith a en d fun s' =>
    { s' with path := { s'.path with probeSelect := mergeBytes s'.path.probeSelect d en, snapshot := none } }

/-- A write to a word of the control window (R190). -/
def writeControl (s : State) (a : Nat) (en : Enables) (d : Word) : State :=
  let o := (a - s.base .control) / 4 * 4
  if o = Config.offConsume then s.writeConsume a en d
  else if o = Config.offAttention then s.writeAttention a en d
  else if o = Config.offProbeSelect then s.writeProbe a en d
  else s.refuseWrite a

/-- An upstream write of a working part, with at least one byte enabled (R185). -/
def decodeWrite (s : State) (a : Nat) (en : Enables) (d : Word) : State :=
  let c := s.store.cfg
  if c.covers .request a then s.writeRequest a en d
  else if c.covers .report a then s.refuseWrite a
  else if c.covers .control a then s.writeControl a en d
  else if (recordAt c a).isSome then s.refuseWrite a
  else s.postWith a en d id

/-- An upstream write (R184, R186). -/
def upstreamWriteAt (s : State) (a : Nat) (en : Enables) (d : Word) : State :=
  if s.portalFree then
    match s.path.condition with
    | .loading _ => s.endAccess .retry
    | .passOnly => (if en = 0 then s.endAccess .done else s.postWith a en d id).treated
    | .working => (if en = 0 then s.endAccess .done else s.decodeWrite a en d).treated
  else s

end State

/-! ## The rows of the upstream side -/

/-- UPSTREAM_READ (R184). -/
def execUpstreamRead (a : Word) (s : State) : Host.Outcome State Fault Refusal := .next (s.upstreamReadAt a.toNat)

/-- UPSTREAM_WRITE (R187). -/
def execUpstreamWrite (a : Word) (en : Enables) (d : Word) (s : State) : Host.Outcome State Fault Refusal :=
  .next (s.upstreamWriteAt a.toNat en d)

/-- OWNER_WRITE (R171): a write to word 0 of a request entry. -/
def execOwnerWrite (e : Fin 32) (en : Enables) (d : Word) (s : State) : Host.Outcome State Fault Refusal :=
  .next (s.upstreamWriteAt (s.entryAddress e.val) en d)

/-- CONSUME_INDEX_WRITE (R177). -/
def execConsumeIndexWrite (en : Enables) (d : Word) (s : State) : Host.Outcome State Fault Refusal :=
  .next (s.upstreamWriteAt (s.controlAddress Config.offConsume) en d)

/-- ATTENTION_ENABLE_WRITE (R182). -/
def execAttentionEnableWrite (en : Enables) (d : Word) (s : State) : Host.Outcome State Fault Refusal :=
  .next (s.upstreamWriteAt (s.controlAddress Config.offAttention) en d)

/-- PROBE_SELECT_WRITE (R191). -/
def execProbeSelectWrite (en : Enables) (d : Word) (s : State) : Host.Outcome State Fault Refusal :=
  .next (s.upstreamWriteAt (s.controlAddress Config.offProbeSelect) en d)

/-- PROBE_SNAPSHOT (R191): a read of probe data word 0. -/
def execProbeSnapshot (s : State) : Host.Outcome State Fault Refusal :=
  .next (s.upstreamReadAt (s.controlAddress Config.offProbeData))

/-- PROBE_DATA_READ (R191): a read of a further probe data word. -/
def execProbeDataRead (w : Fin 8) (s : State) : Host.Outcome State Fault Refusal :=
  .next (s.upstreamReadAt (s.controlAddress (Config.offProbeData + 4 * w.val)))

/-- PASSED_READ_END (R187): memory has returned the data of the passed read. -/
def execPassedReadEnd (s : State) : Host.Outcome State Fault Refusal :=
  match s.path.port with
  | some ⟨.passedRead a, dropped⟩ =>
    let s1 := s.freePort
    let s2 := if dropped then s1
      else { s1 with path := { s1.path with inFlight := none, ending := some (.data (Memory.readWord s.mem a)) } }
    .next s2.finish
  | _ => .next s

/-! ## The rows of the downstream side -/

/-- DOWNSTREAM_GRANT (R192). -/
def execDownstreamGrant (s : State) : Host.Outcome State Fault Refusal := .next s.arbitrate

/-- The passed read in flight claims the arbiter once the buffer is empty (R187). -/
def State.claimRead (s : State) : State :=
  match s.path.inFlight with
  | some a =>
    if s.path.posted = [] ∧ s.path.claims.contains (.passedRead a) = false then s.claim (.passedRead a) else s
  | none => s

/-- POSTED_WRITE_END (R187): the oldest posted write has been written to memory, and leaves the buffer. -/
def execPostedWriteEnd (s : State) : Host.Outcome State Fault Refusal :=
  match s.path.port with
  | some ⟨.postedWrite, _⟩ =>
    match s.path.posted with
    | w :: ws =>
      let s1 := { s.freePort with mem := Memory.writeMasked s.mem w.address w.enables w.data }
      .next ({ s1 with path := { s1.path with posted := ws } }.claimRead).finish
    | [] => .next s.freePort.finish
  | _ => .next s

/-- WRITE_BACK_BURST_END (R189): the version the burst began with is in memory. -/
def execWriteBackBurstEnd (s : State) : Host.Outcome State Fault Refusal :=
  match s.path.port with
  | some ⟨.burst r ws, _⟩ => .next ((s.freePort.writeMem (recordAddress s.store.cfg r) ws).finish)
  | _ => .next s

/-- The write of an index word has completed: its value is in memory. -/
def State.writeIndex (s : State) (offset : Nat) (v : Half) : State :=
  s.freePort.writeMem (s.controlAddress offset) [wordOfHalves v.toNat 0]

/-- CONTROL_WORD_WRITE_END (R183, R194): a control word write has completed, an index write of a link reset or of the
start-up load among them (log 21). -/
def execControlWordWriteEnd (s : State) : Host.Outcome State Fault Refusal :=
  match s.path.port with
  | some ⟨.controlWord o v, _⟩ => .next ((s.freePort.writeMem (s.controlAddress o) [v]).finish)
  | some ⟨.intakeIndex v false, _⟩ => .next (s.writeIndex Config.offIntake v).finish
  | some ⟨.produceIndex v false, _⟩ => .next (s.writeIndex Config.offProduce v).finish
  | _ => .next s

/-! ## The rows of the Intake -/

/-- INTAKE_TAKE (R172). -/
def execIntakeTake (s : State) : Host.Outcome State Fault Refusal :=
  .next (if s.working then s.intakeTake.arbitrate else s)

/-- GIVE_BACK_END (R175): word 0 is given back, the intake index rises, and its write is claimed. -/
def execGiveBackEnd (s : State) : Host.Outcome State Fault Refusal :=
  match s.path.port with
  | some ⟨.giveBack e w, dropped⟩ =>
    let s1 := s.freePort.writeMem (s.entryAddress e) [w]
    let v := s.intake.index + 1
    let s2 := if dropped then s1
      else { s1 with intake := { s1.intake with index := v } }.claim (.intakeIndex v true)
    .next s2.finish
  | _ => .next s

/-- INTAKE_INDEX_WRITE_END (R175): the completion becomes pending and the Intake waits. -/
def execIntakeIndexWriteEnd (s : State) : Host.Outcome State Fault Refusal :=
  match s.path.port with
  | some ⟨.intakeIndex v closing, dropped⟩ =>
    let s1 := s.writeIndex Config.offIntake v
    let s2 := match s.intake.state with
      | .returning _ ws =>
        if closing && !dropped then
          { s1 with
            intake := { s1.intake with state := .waiting }
            report := { s1.report with completion := some ws } }
        else s1
      | .waiting => s1
      | .reading _ => s1
    .next s2.finish
  | _ => .next s

/-! ## The rows of the Report Writer -/

/-- REPORT_WRITE_BEGIN (R178). -/
def execReportWriteBegin (s : State) : Host.Outcome State Fault Refusal :=
  .next (if s.working then s.reportBegin.arbitrate else s)

/-- REPORT_ENTRY_WRITE_END (R176): the entry is in memory, and the produce index write is claimed. -/
def execReportEntryWriteEnd (s : State) : Host.Outcome State Fault Refusal :=
  match s.path.port with
  | some ⟨.reportEntry e ws, dropped⟩ =>
    let s1 := s.freePort.writeMem (s.reportAddress e) ws
    .next (if dropped then s1 else s1.claim (.produceIndex (s.report.produce + 1) true)).finish
  | _ => .next s

/-- The source is told that its notice has been written (R179, R129, R164). -/
def Store.noticeWritten (s : Store) (n : Notice) : Store :=
  match n.source with
  | .batch b => if hasFlag n.flags Flag.batchDone then s.batchNoticeWritten b else s
  | .audit a => if hasFlag n.flags Flag.auditCommitted then (s.auditNoticeWritten a).eventEnd else s
  | .device => s
  | .path => s
  | .carousel _ => s
  | .face _ => s
  | .lane _ => s
  | .order _ => s

/-- The end of a report write: the produce index rises and the source is told (R176, R179). -/
def State.reportWritten (s : State) (v : Half) : State :=
  let s1 := { s with report := { s.report with produce := v, writing := none } }
  match s.report.writing with
  | some (.notice n _) => s1.onStore fun st => st.noticeWritten n
  | some .completion => s1
  | none => s1

/-- PRODUCE_INDEX_WRITE_END (R176). -/
def execProduceIndexWriteEnd (s : State) : Host.Outcome State Fault Refusal :=
  match s.path.port with
  | some ⟨.produceIndex v closing, dropped⟩ =>
    let s1 := s.writeIndex Config.offProduce v
    .next (if closing && !dropped then s1.reportWritten v else s1).finish
  | _ => .next s

end Sys2Proof.Machine
end

