-- ==== Sys2Proof/Machine/Floor.lean ====
section
/-! DEFINITION. The rows of the floor: drives and gates (R41 to R46, R197), panel lines (R79 to R88), keys at the face
(R60 to R62) and lanes (R135, R143). Before the part works they change no record (R193, R194; log 27). -/

namespace Sys2Proof.Machine

open Sys2Proof

namespace State

/-- A floor event: a change of the job blocks' records in a working part, nothing in any other. -/
def floorEvent (s : State) (f : Store → Store) : State := if s.working then s.jobEvent f else s

/-- One byte from a drive (R197). A byte that completes a report is an event of its own, with an allocation pass at its
end where one is due (R100) and what follows; any other changes the window alone (log 28). -/
def driveByte (n : Nat) (s : State) (b : Byte) : State :=
  if (driveGather (s.store.channel n).window b).2.isSome then s.jobEvent fun st => (st.driveByte n b).eventEnd
  else s.onStore fun st => st.driveByte n b

/-- A drive message to a fitted carousel's channel in a working part, byte by byte (R197). -/
def driveEvent (s : State) (n : Fin 4) (bs : List Byte) : State :=
  if s.working && s.store.fitted n.val then bs.foldl (driveByte n.val) s else s

/-- The bytes of a panel message (R83). -/
def panelEvent (s : State) (p : Fin 8) (bs : List Byte) : State :=
  s.floorEvent fun st => st.panelMessage p.val bs

/-- The level of a gate line changes: the line itself, and in a working part what a fitted channel does (R44). -/
def gateEvent (s : State) (n : Fin 4) (high : Bool) (f : Store → Nat → Store) : State :=
  if look s.gateLines true n.val = high then s
  else
    { s with gateLines := put s.gateLines n.val high }.floorEvent fun st =>
      if st.fitted n.val then (f st n.val).eventEnd else st

/-- The event in a panel's holder is taken, if it is of a kind and R88 allows it. -/
def keyEvent (s : State) (p : Fin 8) (kind : KeyEvent → Bool) : State :=
  s.floorEvent fun st => st.takeKeyIf p.val kind

end State

/-- Bytes of a two-byte message (R83). -/
def partBytes (part : MessagePart) (a b : Byte) : List Byte :=
  match part with
  | .opening => [a]
  | .closing => [b]
  | .whole => [a, b]

/-- The byte of a key code (spec/11). -/
def keyByte (k : Key) : Byte := BitVec.ofNat 8 (Code.key k)

/-! ## Drives and gates -/

/-- ARRIVED (R41). -/
def execArrived (n : Fin 4) (position : Byte) (s : State) : Host.Outcome State Fault Refusal :=
  .next (s.driveEvent n (driveMessage driveKindArrived position))

/-- STOPPED (R42). -/
def execStopped (n : Fin 4) (position : Byte) (s : State) : Host.Outcome State Fault Refusal :=
  .next (s.driveEvent n (driveMessage driveKindStopped position))

/-- HOMED (R49). -/
def execHomed (n : Fin 4) (parameter : Byte) (s : State) : Host.Outcome State Fault Refusal :=
  .next (s.driveEvent n (driveMessage driveKindHomed parameter))

/-- FAULT (R46). -/
def execFault (n : Fin 4) (code : Byte) (s : State) : Host.Outcome State Fault Refusal :=
  .next (s.driveEvent n (driveMessage driveKindFault code))

/-- DRIVE_MESSAGE_DISCARDED (R197). -/
def execDriveMessageDiscarded (n : Fin 4) (bytes : List Byte) (s : State) : Host.Outcome State Fault Refusal :=
  .next (s.driveEvent n bytes)

/-- GATE_OPENS (R44). -/
def execGateOpens (n : Fin 4) (s : State) : Host.Outcome State Fault Refusal :=
  .next (s.gateEvent n false Store.gateOpened)

/-- GATE_CLOSES (R44). -/
def execGateCloses (n : Fin 4) (s : State) : Host.Outcome State Fault Refusal :=
  .next (s.gateEvent n true Store.gateClosed)

/-- DEADLINE (R43). -/
def execDeadline (n : Fin 4) (s : State) : Host.Outcome State Fault Refusal :=
  .next (s.floorEvent fun st =>
    if (st.channel n.val).deadline.isSome then (st.expireDeadline n.val).eventEnd else st)

/-! ## Panel lines -/

/-- ACK (R79). -/
def execAck (p : Fin 8) (s : State) : Host.Outcome State Fault Refusal := .next (s.panelEvent p [Code.byteAck])

/-- NAK (R79). -/
def execNak (p : Fin 8) (s : State) : Host.Outcome State Fault Refusal := .next (s.panelEvent p [Code.byteNak])

/-- IDENT (R80). -/
def execIdent (p : Fin 8) (part : MessagePart) (type : Byte) (s : State) : Host.Outcome State Fault Refusal :=
  .next (s.panelEvent p (partBytes part Code.byteIdent type))

/-- KEY_MAKE (R87). -/
def execKeyMake (p : Fin 8) (key : Key) (s : State) : Host.Outcome State Fault Refusal :=
  .next (s.panelEvent p [keyByte key])

/-- KEY_BREAK (R87). -/
def execKeyBreak (p : Fin 8) (part : MessagePart) (key : Key) (s : State) : Host.Outcome State Fault Refusal :=
  .next (s.panelEvent p (partBytes part Code.byteBreak (keyByte key)))

/-- MESSAGE_ABANDONED (R84). -/
def execMessageAbandoned (p : Fin 8) (byte : Byte) (s : State) : Host.Outcome State Fault Refusal :=
  .next (s.panelEvent p [byte])

/-- PARITY_FRAMING_FAILURE (R85). -/
def execParityFramingFailure (p : Fin 8) (parity framing : Bool) (s : State) : Host.Outcome State Fault Refusal :=
  .next (s.floorEvent fun st => st.badByte p.val parity framing)

/-- ANSWER_TIMER (R79). -/
def execAnswerTimer (p : Fin 8) (s : State) : Host.Outcome State Fault Refusal :=
  .next (s.floorEvent fun st =>
    if (st.panel p.val).timer.isSome then ((st.expireAnswer p.val).eventEnd).takeKey p.val else st)

/-- DISPLAY_AGREEMENT (R86). -/
def execDisplayAgreement (p : Fin 8) (s : State) : Host.Outcome State Fault Refusal :=
  .next (s.floorEvent fun st => st.agreePanel p.val)

/-! ## Keys at the face -/

/-- BAY_KEY_MAKE (R61). -/
def execBayKeyMake (p : Fin 8) (s : State) : Host.Outcome State Fault Refusal :=
  .next (s.keyEvent p fun e => (keyBay e.key).isSome && e.make)

/-- PLUS (R61). -/
def execPlus (p : Fin 8) (s : State) : Host.Outcome State Fault Refusal :=
  .next (s.keyEvent p fun e => e.key == Key.plus && e.make)

/-- MINUS (R61). -/
def execMinus (p : Fin 8) (s : State) : Host.Outcome State Fault Refusal :=
  .next (s.keyEvent p fun e => e.key == Key.minus && e.make)

/-- PLUS_MINUS_BREAK (R61). -/
def execPlusMinusBreak (p : Fin 8) (s : State) : Host.Outcome State Fault Refusal :=
  .next (s.keyEvent p fun e => (keyBay e.key).isNone && !e.make)

/-- BAY_KEY_BREAK (R62). -/
def execBayKeyBreak (p : Fin 8) (s : State) : Host.Outcome State Fault Refusal :=
  .next (s.keyEvent p fun e => (keyBay e.key).isSome && !e.make)

/-! ## Lanes -/

/-- The scan timer restarted, and the sample taken from the scale input (R134 to R136). -/
def Store.scan (s : Store) (l : Nat) (raw : Int) (valid : Bool) : Store :=
  let s1 := s.setLane l { s.lane l with scan := some s.cfg.scanInterval }
  if valid then s1.validSample l raw else s1.invalidSample l

/-- SCAN_TIMER (R135): the running timer of a fitted lane expires. -/
def execScanTimer (l : Fin 16) (raw : Half) (valid : Bool) (s : State) : Host.Outcome State Fault Refusal :=
  .next (s.floorEvent fun st =>
    if (st.cfg.lane l.val).fitted && (st.lane l.val).scan.isSome then (st.scan l.val raw.toInt valid).eventEnd
    else st)

/-- ARRIVAL_TIMER (R143). -/
def execArrivalTimer (l : Fin 16) (s : State) : Host.Outcome State Fault Refusal :=
  .next (s.floorEvent fun st => st.expireArrival l.val)

end Sys2Proof.Machine
end

