-- ==== Sys2Proof/Machine/Requests.lean ====
section
/-! DEFINITION. The twelve request kinds and UNKNOWN_KIND (R174): the taking of an entry whose read has completed
(R173), and each owner's checks and effect. -/

namespace Sys2Proof.Machine

open Sys2Proof

/-- What an owner answers to a request: its store, the status and the data of the completion (R174). -/
structure Answer where
  store : Store
  status : Status
  data : List Word

namespace Answer

/-- A refused request changes nothing (R174). -/
def refuse (s : Store) (st : Status) : Answer := ⟨s, st, []⟩

/-- An accepted request, with the end of its event (R86, R100). -/
def accept (s : Store) (st : Status) (data : List Word) : Answer := ⟨s.eventEnd, st, data⟩

end Answer

/-- A number as a data word. -/
def dataWord (n : Nat) : Word := BitVec.ofNat 32 n

/-- A signed value as a data word (R196). -/
def signedWord (i : Int) : Word := BitVec.ofInt 32 i

namespace Owner

/-! ## Stock Map -/

/-- ARTICLE_DEFINE's fields (spec/11). -/
def articleGiven (ws : List Word) : Article :=
  ⟨wordAt ws 3, Req.byte ws 4 0, highHalf (wordAt ws 4), Req.byte ws 4 1⟩

/-- Whether ARTICLE_DEFINE's fields lie in their ranges (R12). -/
def articleInRange (a : Nat) (x : Article) : Bool :=
  a ≤ 511 && x.sizeClass ≤ 7 && inRange 1 1000 x.weight && x.tolerance ≤ 100

/-- Whether a definition changes the size class or the weight of a held article (R12). -/
def changesHeld (s : Store) (a : Nat) (x : Article) : Bool :=
  match s.article a with
  | none => false
  | some y => s.articleHeld a && (x.sizeClass != y.sizeClass || x.weight != y.weight)

/-- ARTICLE_DEFINE (R12). -/
def articleDefine (ws : List Word) (s : Store) : Answer :=
  let a := Req.whole ws 2
  let x := articleGiven ws
  if !articleInRange a x then .refuse s .badField
  else if changesHeld s a x then .refuse s .inUse
  else .accept (s.setArticle a (some x)) .accepted []

/-- ARTICLE_REMOVE (R13). -/
def articleRemove (ws : List Word) (s : Store) : Answer :=
  let a := Req.whole ws 2
  if (s.article a).isNone then .refuse s .notFound
  else if s.articleInUse a then .refuse s .inUse
  else .accept (s.setArticle a none) .accepted []

/-- Whether a slot number names a slot of a fitted carousel (R22, R23). -/
def slotFitted (s : Store) (q : Nat) : Bool := q ≤ 287 && s.fitted (Store.slotCarousel q)

/-- SLOT_BLOCK (R22). -/
def slotBlock (ws : List Word) (s : Store) : Answer :=
  let q := Req.whole ws 2
  if !slotFitted s q then .refuse s .notFitted
  else if (s.carrier (Store.slotRecord q)).frozen then .refuse s .frozen
  else .accept (s.setReason q (some .request)) .accepted []

/-- SLOT_UNBLOCK (R23). -/
def slotUnblock (ws : List Word) (s : Store) : Answer :=
  let q := Req.whole ws 2
  if !slotFitted s q then .refuse s .notFitted
  else if (s.carrier (Store.slotRecord q)).frozen then .refuse s .frozen
  else if (s.slot q).blockReason.isNone then .refuse s .wrongState
  else .accept (s.setReason q none).triggerPass .accepted []

/-! ## Put-away Planner -/

/-- The batch record of an accepted RECEIVE before its planning run (R120). -/
def batchGiven (ws : List Word) : Batch :=
  ⟨wordAt ws 2, Req.whole ws 3, Req.whole ws 4, Req.whole ws 5, 0, 0, 0⟩

/-- The record a RECEIVE takes, planned and with its shortfall as unplaced (R120). -/
def received (s : Store) (b : Nat) (x : Batch) : Store :=
  let r := (s.setBatch b (.opened x)).planRun b x.quantity
  r.1.updBatch b fun y => { y with unplaced := r.2 }

/-- RECEIVE (R120, R121). -/
def receive (ws : List Word) (s : Store) : Answer :=
  let x := batchGiven ws
  if !inRange 1 96 x.quantity || 65535 < x.lotWeek then .refuse s .badField
  else if (s.article x.article).isNone then .refuse s .unknownArticle
  else
    match firstBelow 16 fun b => s.batch b == .free with
    | none => .refuse s .noRoom
    | some b =>
      let s1 := received s b x
      match s1.openBatch b with
      | none => .refuse s .noSpace
      | some y =>
        if y.planned = 0 then .refuse s .noSpace
        else
          .accept s1 (if y.planned = x.quantity then .accepted else .partialDone)
            [dataWord b, dataWord y.planned, dataWord y.unplaced]

/-! ## Order Table -/

/-- The order record an accepted ORDER_OPEN fills (R93). -/
def orderGiven (ws : List Word) : Order :=
  ⟨wordAt ws 2, Req.byte ws 3 0, .admitting, 0, none, none, Req.lines ws⟩

/-- Whether a line descriptor lies in its ranges (R94). -/
def lineInRange (l : Line) : Bool :=
  inRange 1 16 l.quantity && !(l.setFlag && l.quantity == 1) && l.article ≤ 511

/-- Whether ORDER_OPEN's fields lie in their ranges (R94, check 1). -/
def orderInRange (ws : List Word) : Bool :=
  Req.byte ws 3 0 ≤ 3 && inRange 1 8 (Req.byte ws 3 1) && (Req.lines ws).all lineInRange

/-- Whether an order total is above 32 or above the capacity of every fitted lane (R94, check 4). -/
def tooLarge (s : Store) (total : Nat) : Bool :=
  32 < total || !s.cfg.lanes.toList.any fun l => l.fitted && total ≤ l.capacity

/-- The order in use with a tag (R91: at most one). -/
def orderTagged (s : Store) (tag : Word) : Option Nat :=
  firstBelow 64 fun k => (s.order k).any fun o => o.tag == tag

/-- ORDER_OPEN (R93, R94). -/
def orderOpen (ws : List Word) (s : Store) : Answer :=
  let o := orderGiven ws
  if !orderInRange ws then .refuse s .badField
  else if o.lines.any fun l => (s.article l.article).isNone then .refuse s .unknownArticle
  else if (orderTagged s o.tag).isSome then .refuse s .duplicate
  else if tooLarge s o.total then .refuse s .tooLarge
  else
    match firstBelow 64 fun k => (s.order k).isNone with
    | none => .refuse s .noRoom
    | some k =>
      .accept (((s.putOrder k (some o)).joinAdmission k).list (.order k)).admissionPass .accepted [dataWord k]

/-- An ADMITTING order cancelled (R112). -/
def cancelAdmitting (s : Store) (k : Nat) : Store :=
  ({ s with admission := s.admission.filter (· != k) }.freeOrder k).admissionPass

/-- The reservations a cancellation releases: the order's PICK reservations in RESERVED or QUEUED (R17, R113). -/
def cancelled (s : Store) (k : Nat) : List Nat :=
  Store.numbers (s.reservations.filter fun r =>
    (match r.claim with
      | .pick o _ => o == k
      | .put _ => false) &&
    (match r.state with
      | .reserved => true
      | .queued _ => true
      | .presented _ => false))

/-- An ACTIVE order cancelled (R113), its steps in order. -/
def cancelActive (s : Store) (k : Nat) (o : Order) : Store :=
  let s1 := (s.putOrder k (some { o with state := .cancelling })).leaveWaiting k
  ((Store.releaseMany Store.handBackCancelled s1 (cancelled s1 k)).cancellationEnd k).list (.order k)

/-- The state an order reached: its code, or 0xFF for free (spec/11). -/
def reached (s : Store) (k : Nat) : Nat := ((s.order k).map fun o => Code.orderState o.state).getD Code.absentByte

/-- A cancelled order's answer (R111). -/
def cancelAnswer (s : Store) (k : Nat) : Answer := .accept s .accepted [dataWord k, dataWord (reached s k)]

/-- ORDER_CANCEL (R111 to R113). -/
def orderCancel (ws : List Word) (s : Store) : Answer :=
  match orderTagged s (wordAt ws 2) with
  | none => .refuse s .notFound
  | some k =>
    match s.order k with
    | none => .refuse s .notFound
    | some o =>
      match o.state with
      | .admitting => cancelAnswer (cancelAdmitting s k) k
      | .active => cancelAnswer (cancelActive s k o) k
      | .cancelling => .refuse s .wrongState
      | .complete => .refuse s .wrongState
      | .abandoned => .refuse s .wrongState

/-! ## Audit Unit -/

/-- AUDIT (R155). -/
def audit (ws : List Word) (s : Store) : Answer :=
  let n := Req.byte ws 2 0
  let c := Req.byte ws 2 1
  if 3 < n ∨ 23 < c ∨ s.fitted n = false then .refuse s .notFitted
  else
    match s.askAudit (Store.recordOf n c) .request false with
    | (.merged a, _) => .accept s .merged [dataWord a]
    | (.created a, s') =>
      .accept s' .accepted [dataWord a, dataWord (((s'.entry a).map fun e => Code.entryState e.state).getD 0)]
    | (.full, _) => .refuse s .noRoom

/-! ## Motion Controller -/

/-- HOME (R48). -/
def home (ws : List Word) (s : Store) : Answer :=
  let n := Req.whole ws 2
  let c := s.channel n
  if 3 < n ∨ s.fitted n = false then .refuse s .notFitted
  else if c.state ≠ .unhomed ∧ c.state ≠ .fenced then .refuse s .wrongState
  else if c.gate = .opened then .refuse s .gateOpen
  else .accept (s.sendHome n) .accepted []

/-! ## Lane Controller -/

/-- Whether a lane number names a fitted lane. -/
def laneFitted (s : Store) (l : Nat) : Bool := l ≤ 15 && (s.cfg.lane l).fitted

/-- The effect of LANE_ACCEPT with settled reading `r` (R146), its steps in order. -/
def acceptLane (s : Store) (l : Nat) (r : Int) : Store :=
  let x := s.lane l
  let s1 := s.putLane l { x with expected := r, weight := some .matched, arrival := none }
  let s2 := if x.weight = some .mismatch then s1.raise (.lane l) Flag.laneMatchRestored else s1
  let s3 := if x.weight = some .matched then s2 else s2.matchReport l
  s3.list (.lane l)

/-- LANE_ACCEPT (R146). -/
def laneAccept (ws : List Word) (s : Store) : Answer :=
  let l := Req.whole ws 2
  if laneFitted s l = false ∨ (s.lane l).state ≠ .assigned then .refuse s .wrongState
  else
    match (s.lane l).settled with
    | none => .refuse s .unsettled
    | some r => .accept (acceptLane s l r) .accepted [dataWord l, signedWord r]

/-- Whether LANE_RELEASE may name a lane in a state (R147, check 1). -/
def releasable : LaneState → Bool
  | .occupied => true
  | .done => true
  | .abandoned => true
  | .unsettled => false
  | .free => false
  | .assigned => false

/-- The tare offset after a release with settled reading `r` (R147). -/
def newTare (x : Lane) (r : Int) : Int := clampHalf (x.tare + r)

/-- The lane's tare taken up (R147, step 1; log 29). -/
def retare (x : Lane) (r : Int) : Lane :=
  let d := newTare x r - x.tare
  { x with tare := newTare x r, samples := x.samples.map (· - d), settled := some (r - d) }

/-- The order a release frees: that of a DONE or ABANDONED lane (R147, step 2). -/
def freedOrder (x : Lane) : Option Nat :=
  match x.state with
  | .done => x.order
  | .abandoned => x.order
  | .unsettled => none
  | .free => none
  | .occupied => none
  | .assigned => none

/-- The effect of LANE_RELEASE with settled reading `r` (R147), its steps in order. -/
def releaseLane (s : Store) (l : Nat) (r : Int) : Store :=
  let x := s.lane l
  let s1 := s.putLane l (retare x r)
  let s2 := match freedOrder x with
    | some k => s1.freeOrder k
    | none => s1
  ((s2.freeLane l false).admissionPass).list (.lane l)

/-- LANE_RELEASE (R147). -/
def laneRelease (ws : List Word) (s : Store) : Answer :=
  let l := Req.whole ws 2
  let x := s.lane l
  if laneFitted s l = false ∨ releasable x.state = false then .refuse s .wrongState
  else
    match x.settled with
    | none => .refuse s .unsettled
    | some r =>
      if s.holdsWeight r then .refuse s .notEmpty
      else
        .accept (releaseLane s l r) .accepted
          [dataWord l, signedWord (newTare x r), dataWord (Code.byteOr (freedOrder x))]

/-! ## Panel Link Unit -/

/-- PANEL_RESTART (R82). -/
def panelRestart (ws : List Word) (s : Store) : Answer :=
  let p := Req.whole ws 2
  if 7 < p ∨ s.fitted (p / 2) = false then .refuse s .notFitted
  else if (s.panel p).line = .identifying then .refuse s .wrongState
  else .accept (s.restartPanel p) .accepted []

/-- A kind code that names none of the twelve kinds (R174). -/
def unknown (_ : List Word) (s : Store) : Answer := .refuse s .unknownKind

end Owner

/-! ## The taking of an entry (R173 to R175) -/

/-- The answer to an entry: the format check, then the owner (R174). -/
def answerOf (f : List Word → Store → Answer) (ws : List Word) (s : Store) : Answer :=
  if Req.format ws = Config.requestFormat then f ws s else .refuse s .badField

namespace State

/-- The words of a request entry as its read returns them. -/
def entryWords (s : State) (e : Nat) : List Word := Memory.readWords s.mem (s.entryAddress e) 16

/-- The entry taken with its answer: mark cleared, completion formed, RETURNING, the give-back claimed (R173, R175). -/
def takeEntry (s : State) (e : Nat) (ans : Answer) : State :=
  let ws := s.entryWords e
  let done := completionWords (Req.kind ws) ans.status (Req.tag ws) s.intake.index ans.data
  { (s.freePort.setMark e false) with
    store := ans.store
    intake := { s.intake with state := .returning e done } }.claim (.giveBack e (Req.giveBack ws))

/-- The read of a request entry completes with a kind among those of a row (R173); the read of an abandoned entry
only frees the port. -/
def requestRow (s : State) (isKind : Nat → Bool) (f : List Word → Store → Answer) : State :=
  match s.path.port with
  | some ⟨.entryRead e, dropped⟩ =>
    if dropped then s.freePort.finish
    else
      match s.intake.state with
      | .reading _ =>
        let ws := s.entryWords e
        if isKind (Req.kind ws) then (s.takeEntry e (answerOf f ws s.store)).finish else s
      | .waiting => s
      | .returning _ _ => s
  | _ => s

end State

/-- ARTICLE_DEFINE (R12). -/
def execArticleDefine (s : State) : Host.Outcome State Fault Refusal :=
  .next (s.requestRow (· == Code.articleDefine) Owner.articleDefine)

/-- ARTICLE_REMOVE (R13). -/
def execArticleRemove (s : State) : Host.Outcome State Fault Refusal :=
  .next (s.requestRow (· == Code.articleRemove) Owner.articleRemove)

/-- RECEIVE (R120). -/
def execReceive (s : State) : Host.Outcome State Fault Refusal :=
  .next (s.requestRow (· == Code.receive) Owner.receive)

/-- ORDER_OPEN (R93). -/
def execOrderOpen (s : State) : Host.Outcome State Fault Refusal :=
  .next (s.requestRow (· == Code.orderOpen) Owner.orderOpen)

/-- ORDER_CANCEL (R111). -/
def execOrderCancel (s : State) : Host.Outcome State Fault Refusal :=
  .next (s.requestRow (· == Code.orderCancel) Owner.orderCancel)

/-- AUDIT (R155). -/
def execAudit (s : State) : Host.Outcome State Fault Refusal :=
  .next (s.requestRow (· == Code.audit) Owner.audit)

/-- SLOT_BLOCK (R22). -/
def execSlotBlock (s : State) : Host.Outcome State Fault Refusal :=
  .next (s.requestRow (· == Code.slotBlock) Owner.slotBlock)

/-- SLOT_UNBLOCK (R23). -/
def execSlotUnblock (s : State) : Host.Outcome State Fault Refusal :=
  .next (s.requestRow (· == Code.slotUnblock) Owner.slotUnblock)

/-- HOME (R48). -/
def execHome (s : State) : Host.Outcome State Fault Refusal :=
  .next (s.requestRow (· == Code.home) Owner.home)

/-- LANE_ACCEPT (R146). -/
def execLaneAccept (s : State) : Host.Outcome State Fault Refusal :=
  .next (s.requestRow (· == Code.laneAccept) Owner.laneAccept)

/-- LANE_RELEASE (R147). -/
def execLaneRelease (s : State) : Host.Outcome State Fault Refusal :=
  .next (s.requestRow (· == Code.laneRelease) Owner.laneRelease)

/-- PANEL_RESTART (R82). -/
def execPanelRestart (s : State) : Host.Outcome State Fault Refusal :=
  .next (s.requestRow (· == Code.panelRestart) Owner.panelRestart)

/-- UNKNOWN_KIND (R174). -/
def execUnknownKind (s : State) : Host.Outcome State Fault Refusal :=
  .next (s.requestRow (fun k => !inRange 1 12 k) Owner.unknown)

end Sys2Proof.Machine
end

