-- ==== Sys2Proof/Machine/StartUp.lean ====
section
/-! DEFINITION. Power-up, the start-up load and the link reset (R25, R26, R170, R180, R183, R193 to R195). -/

namespace Sys2Proof.Machine

open Sys2Proof

/-! ## Power-up (R193) -/

/-- The words a granted transfer writes, with their address (R187, R192; the words are whole but for a posted write). -/
def State.transferWords (s : State) : Option (Nat × List Word) :=
  match s.path.port with
  | none => none
  | some g =>
    match g.transfer with
    | .giveBack e w => some (s.entryAddress e, [w])
    | .intakeIndex v _ => some (s.controlAddress Config.offIntake, [wordOfHalves v.toNat 0])
    | .reportEntry e ws => some (s.reportAddress e, ws)
    | .produceIndex v _ => some (s.controlAddress Config.offProduce, [wordOfHalves v.toNat 0])
    | .controlWord o v => some (s.controlAddress o, [v])
    | .burst r ws => some (recordAddress s.store.cfg r, ws)
    | .postedWrite => none
    | .passedRead _ => none
    | .entryRead _ => none
    | .load _ => none

/-- Memory as a power loss leaves it, `k` words of the transfer in progress written (log 8). -/
def State.tornMemory (s : State) (k : Nat) : List Host.Cell :=
  match s.transferWords with
  | some (a, ws) => Memory.writeWords s.mem a (ws.take k)
  | none =>
    match s.path.port, s.path.posted with
    | some ⟨.postedWrite, _⟩, w :: _ => if 0 < k then Memory.writeMasked s.mem w.address w.enables w.data else s.mem
    | _, _ => s.mem

/-- POWER_UP (R193): every record at its power-up value, the start-up load begun; memory, the gate lines and the
waiting commands stay. -/
def execPowerUp (k : Nat) (s : State) : Host.Outcome State Fault Refusal :=
  .next { State.reset with pending := s.pending, mem := s.tornMemory k, gateLines := s.gateLines }

/-! ## The start-up load (R193, R194) -/

namespace State

/-- Whether the read of a stage of the start-up load has the port. -/
def loadingStage (s : State) (st : LoadStage) : Bool :=
  s.path.condition == .loading st && s.path.port == some ⟨.load st, false⟩

/-- The Path Unit's condition set. -/
def setCondition (s : State) (c : Condition) : State := { s with path := { s.path with condition := c } }

/-- The words of the configuration block (R193). -/
def configurationWords (s : State) : List Word := Memory.readWords s.mem Config.blockAddress 64

/-- The configuration block is taken: the load goes on, or the part enters PASS-ONLY (R193; log 11). -/
def checkConfiguration (s : State) : State :=
  let ws := s.configurationWords
  let c := configurationOf ws
  let s1 := s.freePort.onStore fun st => { st with cfg := c }
  if configurationSound ws then
    (({ s1 with path := { s1.path with attention := c.allowsAttention } }.setCondition (.loading .articles)).claim
      (.load .articles)).finish
  else ({ s1 with path := { s1.path with claims := [], attention := false } }.setCondition .passOnly).finish

/-- Whether an image's format header matches (R25, R26). -/
def headerMatches (s : State) (offset format : Nat) : Bool :=
  byteNat (Memory.readWord s.mem (s.controlAddress offset)) 0 == format

/-- The words of an image record in memory. -/
def imageWords (s : State) (r : ImageRecord) (n : Nat) : List Word :=
  Memory.readWords s.mem (recordAddress s.store.cfg r) n

/-- The article table as it starts (R25). -/
def loadedArticles (s : State) (good : Bool) : Vector (Option Article) 512 :=
  Vector.ofFn fun a : Fin 512 => if good then articleOf (s.imageWords (.article a.val) 4) else none

/-- The reads of the article image have completed (R25). -/
def loadArticles (s : State) : State :=
  let good := s.headerMatches Config.offArticleHeader Config.articleFormat
  let table := s.loadedArticles good
  let s1 := s.freePort.onStore fun st =>
    { st with articles := table }.listAll ((List.range 512).map ImageRecord.article)
  (({ s1 with path := { s1.path with articlesDiscarded := !good } }.setCondition (.loading .carriers)).claim
    (.load .carriers)).finish

end State

/-- The marks of a carrier image record: SUSPECT, AUDIT_WANTED, FACE_OPEN; clear where the record was torn (R26). A torn
record that shows FACE_OPEN therefore marks no carrier SUSPECT: DESIGN CHOICE, log 39. -/
def imageMarks (ws : List Word) : Bool × Bool × Bool :=
  let m := byteNat (wordAt ws 0) 1
  if carrierTorn ws then (false, false, false) else (m.testBit 0, m.testBit 1, m.testBit 2)

/-- The slots of a carrier image record, none where one is faulty (R26). -/
def imageSlots (depth : Nat) (defined : Nat → Bool) (ws : List Word) : List (Option Slot) :=
  (List.range 3).map fun b => if carrierTorn ws then none else slotOf depth defined ws b

/-- A faulty slot as it starts (R26). -/
def faultySlot : Slot := { Slot.empty with blockReason := some .imageFault }

/-- A carrier as its image record starts it, its load not yet computed (R26). -/
def imageCarrier (depth : Nat) (defined : Nat → Bool) (ws : List Word) : Carrier :=
  let slots := imageSlots depth defined ws
  let bay (b : Nat) : Slot := ((slots[b]?).getD none).getD faultySlot
  { suspect := (imageMarks ws).1, auditWanted := (imageMarks ws).2.1, faceOpen := false, frozen := false, load := 0
    bays := #v[bay 0, bay 1, bay 2] }

namespace State

/-- The carrier of record `r` as it starts (R26; R1 for a carousel that is not fitted). -/
def loadedCarrier (s : State) (good : Bool) (r : Nat) : Carrier :=
  if good && s.store.fitted (r / 24) then
    s.store.reload (imageCarrier (s.store.cfg.carousel (r / 24)).bayDepth (fun a => (s.store.article a).isSome)
      (s.imageWords (.carrier r) 16))
  else Carrier.blank

/-- The number of slots of a carrier that start with the reason IMAGE_FAULT (R26). -/
def faultyIn (s : State) (good : Bool) (r : Nat) : Nat :=
  (s.loadedCarrier good r).bays.toList.countP fun q => q.blockReason == some .imageFault

/-- Whether a fitted carrier's image held FACE_OPEN (R26). -/
def heldFaceOpen (s : State) (r : Nat) : Bool :=
  s.store.fitted (r / 24) && (imageMarks (s.imageWords (.carrier r) 16)).2.2

end State

namespace Store

/-- The SUSPECT marking of the load, whose CREATED flag waits for the load's end (R9, R154, R170). -/
def loadSuspect (s : Store) (r : Nat) : Store :=
  if (s.carrier r).suspect then s
  else
    match (s.updCarrier r fun c => { c with suspect := true }).askAudit r .suspect false with
    | (.full, s') => s'.markWanted r
    | (.merged _, s') => s'
    | (.created _, s') => s'

/-- A carrier marked SUSPECT without AUDIT_WANTED is given AUDIT_WANTED (R26). -/
def giveWanted (s : Store) (r : Nat) : Store := s.markWanted r

/-- The power-up values of step 2 of R194: lanes, panels, and the gate level sampled by each fitted channel. -/
def powerUpValues (s : Store) (lines : Vector Bool 4) : Store :=
  { s with
    lanes := Vector.ofFn fun l : Fin 16 => Lane.powerUp (s.cfg.lane l.val).tare
    panels := Vector.ofFn fun p : Fin 8 => if s.fitted (p.val / 2) then Panel.powerUp else Panel.unfitted
    channels := Vector.ofFn fun n : Fin 4 =>
      { Channel.powerUp with gate := if s.fitted n.val && look lines true n.val then .closed else .opened } }

/-- Every image record, in the order of step 3 of R194. -/
def everyRecord : List ImageRecord :=
  (List.range 512).map .article ++ (List.range 96).map .carrier ++ (List.range 64).map .order
    ++ (List.range 16).map .lane ++ (List.range 12).map .status

end Store

/-- The word of the attention enable as configured (R182). -/
def attentionWord (c : Configuration) : Word := if c.allowsAttention then 1 else 0

namespace State

/-- The control word writes of step 4 of R194. -/
def claimStartWords (s : State) : State :=
  let s1 := (((s.claim (.intakeIndex 0 false)).claim (.produceIndex 0 false)).claim
    (.controlWord Config.offConsume 0)).claim (.controlWord Config.offAttention (attentionWord s.store.cfg))
  let s2 := s1.claim (.controlWord Config.offProbeSelect 0)
  let s3 := if s.path.articlesDiscarded then
      s2.claim (.controlWord Config.offArticleHeader (dataWord Config.articleFormat)) else s2
  if s.path.carriersDiscarded then
    s3.claim (.controlWord Config.offCarrierHeader (dataWord Config.carrierFormat)) else s3

/-- The carrier table taken from its image, with the audits the load asks for (R26, R170). -/
def loadedStore (s : State) (good : Bool) : Store :=
  let st := { s.store with carriers := Vector.ofFn fun r : Fin 96 => s.loadedCarrier good r.val }
  let records := List.range 96
  let opened := records.filter fun r => good && s.heldFaceOpen r
  let owed := records.filter fun r => (st.carrier r).suspect && !(st.carrier r).auditWanted
  ((owed.foldl Store.giveWanted (opened.foldl Store.loadSuspect st)).promote false).listAll
    (records.map ImageRecord.carrier)

/-- The reads of the carrier image have completed: the table is loaded (R26, R170), the other blocks take their
power-up values, the records are listed and the control words claimed (R194, steps 1 to 4). -/
def loadCarriers (s : State) : State :=
  let good := s.headerMatches Config.offCarrierHeader Config.carrierFormat
  let store := ((s.loadedStore good).powerUpValues s.gateLines).listAll Store.everyRecord
  let faulted := ((List.range 96).map (s.faultyIn good)).sum
  let s1 := { s.freePort with store := store }
  let s2 := { s1 with path := { s1.path with carriersDiscarded := !good, faultedRecords := faulted } }
  ((s2.setCondition (.loading .writeBack)).claimStartWords).finish

/-- Whether the port carries nothing but a burst: the last record has left the write-back list at its grant (R189). -/
def onlyBursts (s : State) : Bool :=
  match s.path.port with
  | none => true
  | some ⟨.burst _ _, _⟩ => true
  | some _ => false

/-- Whether the start-up load may end: the write-back list is empty and the control word writes have completed (R194). -/
def loadDone (s : State) : Bool :=
  s.path.condition == .loading .writeBack && s.store.writeBack.isEmpty && s.path.claims.isEmpty && s.onlyBursts

end State

namespace Store

/-- The DEVICE notice of power-up (R180). -/
def raisePowerUp (s : Store) (discarded : Bool) : Store :=
  s.raise .device (if discarded then Flag.devicePowerUp ||| Flag.deviceImageDiscarded else Flag.devicePowerUp)

/-- The CAROUSEL notice of power-up, for a fitted carousel (R180). -/
def raiseGate (s : Store) (n : Nat) : Store :=
  if s.fitted n then
    s.raise (.carousel n)
      (if (s.channel n).gate = .closed then Flag.carouselGateClosed else Flag.carouselGateOpened)
  else s

/-- The AUDIT notice of power-up, for an entry the load made (R170, R180). -/
def raiseCreated (s : Store) (a : Nat) : Store :=
  if (s.entry a).isSome then s.raise (.audit a) Flag.auditCreated else s

/-- A gate line that differs from the sampled level is taken as a change (R194). -/
def gateSettled (lines : Vector Bool 4) (s : Store) (n : Nat) : Store :=
  if s.fitted n then
    match look lines true n, (s.channel n).gate with
    | true, .opened => s.gateClosed n
    | false, .closed => s.gateOpened n
    | true, .closed => s
    | false, .opened => s
  else s

/-- A fitted panel's line begins its identification (R80, R194). -/
def startPanel (s : Store) (p : Nat) : Store := if s.fitted (p / 2) then s.beginIdentification p else s

/-- A fitted lane's scan timer starts (R134, R194). -/
def startScan (s : Store) (l : Nat) : Store :=
  if (s.cfg.lane l).fitted then s.setLane l { s.lane l with scan := some s.cfg.scanInterval } else s

/-- What the job blocks do when the start-up load ends (R180, R194). -/
def startWork (s : Store) (discarded : Bool) (lines : Vector Bool 4) : Store :=
  let s1 := (List.range 4).foldl raiseGate (s.raisePowerUp discarded)
  let s2 := (List.range 16).foldl raiseCreated s1
  let s3 := (List.range 4).foldl (gateSettled lines) s2
  let s4 := (List.range 8).foldl startPanel s3
  ((List.range 16).foldl startScan s4).eventEnd

end Store

/-- CONFIGURATION_CHECK (R193). -/
def execConfigurationCheck (s : State) : Host.Outcome State Fault Refusal :=
  .next (if s.loadingStage .configuration then s.checkConfiguration else s)

/-- ARTICLE_IMAGE_LOAD (R25). -/
def execArticleImageLoad (s : State) : Host.Outcome State Fault Refusal :=
  .next (if s.loadingStage .articles then s.loadArticles else s)

/-- CARRIER_IMAGE_LOAD (R26). -/
def execCarrierImageLoad (s : State) : Host.Outcome State Fault Refusal :=
  .next (if s.loadingStage .carriers then s.loadCarriers else s)

/-- START_UP_LOAD_END (R194). -/
def execStartUpLoadEnd (s : State) : Host.Outcome State Fault Refusal :=
  .next (if s.loadDone then
    let discarded := s.path.articlesDiscarded || s.path.carriersDiscarded
    ((s.setCondition .working).onStore fun st => st.startWork discarded s.gateLines).finish
  else s)

/-! ## Link reset (R183, R195) -/

/-- Whether a link reset takes away a transfer's purpose: the claim is withdrawn, the grant only completes (R183, R195). -/
def resetDrops : Transfer → Bool
  | .passedRead _ => true
  | .entryRead _ => true
  | .giveBack _ _ => true
  | .intakeIndex _ closing => closing
  | .reportEntry _ _ => true
  | .produceIndex _ closing => closing
  | .postedWrite => false
  | .load _ => false
  | .controlWord _ _ => false
  | .burst _ _ => false

/-- A notice whose write a link reset ended, put back at the head with what its source has raised meanwhile (R183). -/
def putBack (n : Notice) (ns : List Notice) : List Notice :=
  match ns.find? fun m => m.source == n.source with
  | some m => ⟨n.source, n.flags ||| m.flags⟩ :: ns.filter fun m => m.source != n.source
  | none => n :: ns

/-- The refusal record with a PATH notice's address and count merged back (R181). -/
def mergeRecord (taken now : RefusalRecord) : RefusalRecord :=
  ⟨taken.first.orElse fun _ => now.first, min 65535 (taken.count + now.count)⟩

namespace State

/-- Claims a link reset withdraws leave; a grant it drops only completes (R183, R195). -/
def dropTransfers (s : State) (drops : Transfer → Bool) : State :=
  { s with path := { s.path with
    claims := s.path.claims.filter fun t => !drops t
    port := s.path.port.map fun g => if drops g.transfer then { g with dropped := true } else g } }

/-- Whether a transfer is the passed read. -/
def isPassedRead : Transfer → Bool
  | .passedRead _ => true
  | _ => false

/-- The report write in flight ends: a notice goes back to the head of the list (R183, R181). -/
def returnNotice (s : State) : State :=
  match s.report.writing with
  | some (.notice n taken) =>
    { s with
      store := { s.store with notices := putBack n s.store.notices }
      path := { s.path with
        refusals := if n.source = Source.path then mergeRecord taken s.path.refusals else s.path.refusals } }
  | some .completion => s
  | none => s

/-- The control word writes a link reset calls for (R183, step 4). Before the configuration block has been read the
attention word is claimed with 0: DESIGN CHOICE, log 36. -/
def claimResetWords (s : State) : State :=
  (((s.claim (.intakeIndex 0 false)).claim (.produceIndex 0 false)).claim
    (.controlWord Config.offConsume 0)).claim (.controlWord Config.offAttention (attentionWord s.store.cfg))

/-- A link reset of a part that is not PASS-ONLY (R183, R195). -/
def resetLink (s : State) : State :=
  let s1 := (s.returnNotice).dropTransfers resetDrops
  let s2 := { s1 with
    intake := ⟨0, .waiting⟩
    report := ⟨0, 0, none, none⟩
    path := { s1.path with
      inFlight := none, ending := none, marks := Vector.replicate 32 false
      probeSelect := 0, snapshot := none, attention := s.store.cfg.allowsAttention } }
  (s2.claimResetWords).onStore fun st => st.raise .device Flag.deviceLinkReset

end State

/-- LINK_RESET (R183, R195; R193 in PASS-ONLY). -/
def execLinkReset (s : State) : Host.Outcome State Fault Refusal :=
  match s.path.condition with
  | .passOnly =>
    let s1 := s.dropTransfers State.isPassedRead
    .next { s1 with path := { s1.path with inFlight := none, ending := none } }.finish
  | .working => .next s.resetLink.finish
  | .loading _ => .next s.resetLink.finish

end Sys2Proof.Machine
end

