-- ==== Sys2Proof/Machine/Dispatch.lean ====
section
/-! DEFINITION. One arm for each command: a direct call of its meaning. -/

namespace Sys2Proof.Machine

open Sys2Proof

/-- The effect of a command on everything but the queue. -/
def exec (i : Instr) (s : State) : Host.Outcome State Fault Refusal :=
  match i with
  | .powerUp wordsWritten => Sys2Proof.Machine.execPowerUp wordsWritten s
  | .configurationCheck => Sys2Proof.Machine.execConfigurationCheck s
  | .articleImageLoad => Sys2Proof.Machine.execArticleImageLoad s
  | .carrierImageLoad => Sys2Proof.Machine.execCarrierImageLoad s
  | .startUpLoadEnd => Sys2Proof.Machine.execStartUpLoadEnd s
  | .linkReset => Sys2Proof.Machine.execLinkReset s
  | .upstreamRead a => Sys2Proof.Machine.execUpstreamRead a s
  | .passedReadEnd => Sys2Proof.Machine.execPassedReadEnd s
  | .upstreamWrite a en d => Sys2Proof.Machine.execUpstreamWrite a en d s
  | .ownerWrite entry en d => Sys2Proof.Machine.execOwnerWrite entry en d s
  | .consumeIndexWrite en d => Sys2Proof.Machine.execConsumeIndexWrite en d s
  | .attentionEnableWrite en d => Sys2Proof.Machine.execAttentionEnableWrite en d s
  | .probeSelectWrite en d => Sys2Proof.Machine.execProbeSelectWrite en d s
  | .probeSnapshot => Sys2Proof.Machine.execProbeSnapshot s
  | .probeDataRead word => Sys2Proof.Machine.execProbeDataRead word s
  | .downstreamGrant => Sys2Proof.Machine.execDownstreamGrant s
  | .postedWriteEnd => Sys2Proof.Machine.execPostedWriteEnd s
  | .writeBackBurstEnd => Sys2Proof.Machine.execWriteBackBurstEnd s
  | .intakeTake => Sys2Proof.Machine.execIntakeTake s
  | .articleDefine => Sys2Proof.Machine.execArticleDefine s
  | .articleRemove => Sys2Proof.Machine.execArticleRemove s
  | .receive => Sys2Proof.Machine.execReceive s
  | .orderOpen => Sys2Proof.Machine.execOrderOpen s
  | .orderCancel => Sys2Proof.Machine.execOrderCancel s
  | .audit => Sys2Proof.Machine.execAudit s
  | .slotBlock => Sys2Proof.Machine.execSlotBlock s
  | .slotUnblock => Sys2Proof.Machine.execSlotUnblock s
  | .home => Sys2Proof.Machine.execHome s
  | .laneAccept => Sys2Proof.Machine.execLaneAccept s
  | .laneRelease => Sys2Proof.Machine.execLaneRelease s
  | .panelRestart => Sys2Proof.Machine.execPanelRestart s
  | .unknownKind => Sys2Proof.Machine.execUnknownKind s
  | .giveBackEnd => Sys2Proof.Machine.execGiveBackEnd s
  | .intakeIndexWriteEnd => Sys2Proof.Machine.execIntakeIndexWriteEnd s
  | .reportWriteBegin => Sys2Proof.Machine.execReportWriteBegin s
  | .reportEntryWriteEnd => Sys2Proof.Machine.execReportEntryWriteEnd s
  | .produceIndexWriteEnd => Sys2Proof.Machine.execProduceIndexWriteEnd s
  | .arrived carousel position => Sys2Proof.Machine.execArrived carousel position s
  | .stopped carousel position => Sys2Proof.Machine.execStopped carousel position s
  | .homed carousel parameter => Sys2Proof.Machine.execHomed carousel parameter s
  | .fault carousel code => Sys2Proof.Machine.execFault carousel code s
  | .driveMessageDiscarded carousel bytes => Sys2Proof.Machine.execDriveMessageDiscarded carousel bytes s
  | .gateOpens carousel => Sys2Proof.Machine.execGateOpens carousel s
  | .gateCloses carousel => Sys2Proof.Machine.execGateCloses carousel s
  | .deadline carousel => Sys2Proof.Machine.execDeadline carousel s
  | .ack panel => Sys2Proof.Machine.execAck panel s
  | .nak panel => Sys2Proof.Machine.execNak panel s
  | .ident panel part type => Sys2Proof.Machine.execIdent panel part type s
  | .keyMake panel key => Sys2Proof.Machine.execKeyMake panel key s
  | .keyBreak panel part key => Sys2Proof.Machine.execKeyBreak panel part key s
  | .parityFramingFailure panel parity framing => Sys2Proof.Machine.execParityFramingFailure panel parity framing s
  | .answerTimer panel => Sys2Proof.Machine.execAnswerTimer panel s
  | .displayAgreement panel => Sys2Proof.Machine.execDisplayAgreement panel s
  | .bayKeyMake panel => Sys2Proof.Machine.execBayKeyMake panel s
  | .plus panel => Sys2Proof.Machine.execPlus panel s
  | .minus panel => Sys2Proof.Machine.execMinus panel s
  | .plusMinusBreak panel => Sys2Proof.Machine.execPlusMinusBreak panel s
  | .bayKeyBreak panel => Sys2Proof.Machine.execBayKeyBreak panel s
  | .scanTimer lane raw valid => Sys2Proof.Machine.execScanTimer lane raw valid s
  | .arrivalTimer lane => Sys2Proof.Machine.execArrivalTimer lane s
  | .messageAbandoned panel byte => Sys2Proof.Machine.execMessageAbandoned panel byte s
  | .controlWordWriteEnd => Sys2Proof.Machine.execControlWordWriteEnd s

end Sys2Proof.Machine
end

