-- ==== Sys2Proof/Safety.lean ====
section
/-! DEFINITION. What the machine keeps from step to step, and the names the statements use for what a state shows. -/

namespace Sys2Proof.Machine

open Sys2Proof

/-- The bounds of the job blocks' lists: at most 256 reservations with distinct numbers (R14), at most 8 entries in each
motion queue (R30), at most one pending notice for each source (R179), and each image record listed at most once (R189). -/
structure Store.Bounded (s : Store) : Prop where
  reservations : s.reservations.length ≤ Config.reservationCapacity
  numbers : (s.reservations.map fun r => r.number).Nodup
  queues : ∀ n, (s.channel n).queue.length ≤ Config.queueCapacity
  sources : (s.notices.map fun n => n.source).Nodup
  listed : s.writeBack.Nodup

/-- A face as R53 gives it: while it is PRESENTING its carrier and its kind are present; otherwise both are absent and
its bay lists are empty (R53, R54). -/
structure Face.Sound (f : Face) : Prop where
  presenting : f.state = .presenting → (∃ c, c < 24 ∧ f.carrier = some c) ∧ f.kind ≠ none
  blank : f.state ≠ .presenting → f.carrier = none ∧ f.kind = none ∧ f.bays = #v[[], [], []]

/-- Every face is as R53 gives it, and a PRESENTED reservation names face 0 or face 1 (R14, R16). -/
structure Store.FacesSound (s : Store) : Prop where
  faces : ∀ i, i < 8 → (s.face i).Sound
  presented : ∀ r ∈ s.reservations, ∀ f, r.state = .presented f → f < 2

/-- Whether a transfer belongs to a report write in flight (R176). -/
def isReportTransfer : Transfer → Bool
  | .reportEntry _ _ => true
  | .produceIndex _ closing => closing
  | .postedWrite => false
  | .passedRead _ => false
  | .entryRead _ => false
  | .giveBack _ _ => false
  | .intakeIndex _ _ => false
  | .load _ => false
  | .controlWord _ _ => false
  | .burst _ _ => false

/-- The transfer that has the port, unless a link reset has dropped it. -/
def State.liveGrant (s : State) : List Transfer :=
  match s.path.port with
  | some g => if g.dropped then [] else [g.transfer]
  | none => []

/-- The transfers of report writes that wait or have the port. -/
def State.reportTransfers (s : State) : List Transfer :=
  (s.liveGrant ++ s.path.claims).filter isReportTransfer

/-- Where a transfer of a report write goes: the entry at produce mod 64, or the produce index plus 1 (R176). -/
def State.reportPlaceSound (s : State) : Transfer → Prop
  | .reportEntry e _ => e = s.reportEntryIndex
  | .produceIndex v _ => v = s.report.produce + 1
  | _ => True

/-- The report ring: never more than 64 unread entries; one report write at a time, begun only with room, at the entry
the produce index names; none before the part works (R176, R178). -/
structure State.RingSound (s : State) : Prop where
  unread : s.unread ≤ Config.reportEntries
  idle : s.report.writing = none → s.reportTransfers = []
  busy : s.report.writing ≠ none → s.reportTransfers.length = 1 ∧ s.unread < Config.reportEntries
  place : ∀ t ∈ s.reportTransfers, s.reportPlaceSound t
  waits : s.working = false → s.report.writing = none

/-- No report write waits to be begun in a working part: with none in flight and room in the ring, no completion is
pending, and no notice unless the Intake is RETURNING (R178). -/
def State.ReportsBegun (s : State) : Prop :=
  s.path.condition = .working → s.report.writing = none → s.unread < Config.reportEntries →
    s.report.completion = none ∧ (s.returning = true ∨ s.store.notices = [])

/-- The posted write buffer holds at most 8 writes (R187). -/
abbrev State.BufferSound (s : State) : Prop := s.path.posted.length ≤ Config.postedCapacity

/-- The memory keeps its canonical form. -/
abbrev State.MemorySound (s : State) : Prop := Memory.wf s.mem = true

/-- The configuration that a load has taken, and by which the part works, keeps its windows apart (R185, R193). -/
def State.WindowsSound (s : State) : Prop :=
  match s.path.condition with
  | .loading .configuration => True
  | .loading .articles => windowsSound s.store.cfg = true
  | .loading .carriers => windowsSound s.store.cfg = true
  | .loading .writeBack => windowsSound s.store.cfg = true
  | .passOnly => True
  | .working => windowsSound s.store.cfg = true

/-! ## What a state shows -/

/-- The part decodes the next upstream access against the window map: it works, and no passed read is in flight (R184). -/
structure State.Decodes (s : State) : Prop where
  working : s.path.condition = .working
  free : s.path.inFlight = none
  windows : windowsSound s.store.cfg = true

/-- No record of a job block differs; the notice list and the write-back list may. -/
def State.SameJobs (s t : State) : Prop :=
  t.store = { s.store with notices := t.store.notices, writeBack := t.store.writeBack }

/-- Memory, the lines of the floor and the records of the job blocks are as before. -/
def State.OnlyPath (s t : State) : Prop := t.mem = s.mem ∧ t.gateLines = s.gateLines ∧ s.SameJobs t

/-- A transfer is claimed, or has the port (R192). -/
def State.owed (s : State) (x : Transfer) : Prop := x ∈ s.path.claims ∨ s.path.port = some ⟨x, false⟩

/-- A source's notice with these flags is pending, or its report write is in progress (R179). -/
def State.told (s : State) (src : Source) (f : Half) : Prop :=
  (∃ n ∈ s.store.notices, n.source = src ∧ n.flags &&& f = f) ∨
    ∃ n r, s.report.writing = some (.notice n r) ∧ n.source = src ∧ n.flags &&& f = f

/-- While the start-up load lasts, the Intake has nothing to read, and until the carrier image has been loaded the job
blocks stand as after reset, but for the configuration and the article table that the load has taken, the notice of a
link reset and the records listed (R193, R194; log 12). -/
structure State.LoadSound (s : State) : Prop where
  intake : ∀ st, s.path.condition = .loading st → ∀ e, ¬ s.owed (.entryRead e)
  blank : ∀ st, s.path.condition = .loading st → st ≠ .writeBack →
    s.store = { State.reset.store with
      cfg := s.store.cfg, articles := s.store.articles, notices := s.store.notices, writeBack := s.store.writeBack }

/-- An image record is listed for write-back, or its burst is in progress (R189). -/
def State.renewed (s : State) (r : ImageRecord) : Prop :=
  r ∈ s.store.writeBack ∨ ∃ ws, s.path.port = some ⟨.burst r ws, false⟩

/-! ## Requests -/

/-- The Intake has entry `e` in READING, its read has the port, and the words the read returns carry this kind code and
the request format (R172 to R174). -/
structure State.Reads (s : State) (e kind : Nat) : Prop where
  entry : e < Config.requestEntries
  port : s.path.port = some ⟨.entryRead e, false⟩
  reading : s.intake.state = .reading e
  kind : Req.kind (s.entryWords e) = kind
  format : Req.format (s.entryWords e) = Config.requestFormat

/-- The entry has been taken and answered: its mark is cleared, the Intake is RETURNING with the completion of the kind,
the status, the tag, the intake index and the data (R173, R174), the give-back of word 0 with OWNER 0, the kind and the
format is owed (R175), and memory, the other marks and the floor's lines are as before. -/
structure State.Answered (s t : State) (e : Nat) (st : Status) (data : List Word) : Prop where
  intake : t.intake = ⟨s.intake.index, .returning e (completionWords (Req.kind (s.entryWords e)) st
    (Req.tag (s.entryWords e)) s.intake.index data)⟩
  giveBack : t.owed (.giveBack e (wordOfBytes 0 (Req.kind (s.entryWords e)) (Req.format (s.entryWords e)) 0))
  marks : ∀ e', look t.path.marks false e' = if e' = e then false else look s.path.marks false e'
  posted : t.path.posted = s.path.posted
  mem : t.mem = s.mem
  gateLines : t.gateLines = s.gateLines

/-- A command answers the request in entry `e` with a refusal, and changes no record of any block (R174). -/
def State.Refuses (s : State) (c : Instr) (e : Nat) (st : Status) : Prop :=
  ∃ t, exec c s = .next t ∧ s.Answered t e st [] ∧ t.store = s.store

/-- A command answers the request in entry `e` with an acceptance, its data, and an effect. -/
def State.Accepts (s : State) (c : Instr) (e : Nat) (st : Status) (data : List Word) (effect : Store → Prop) : Prop :=
  ∃ t, exec c s = .next t ∧ s.Answered t e st data ∧ effect t.store

/-! ## The floor -/

/-- Nothing is left due: no allocation pass (R100), and no READY panel with nothing outstanding shows anything but what
its face wishes (R86). -/
structure Store.Attended (s : Store) : Prop where
  pass : s.passDue = false
  displays : ∀ p, p < 8 → (s.panel p).line = .ready → (s.panel p).outstanding = none →
    (s.panel p).shown = none ∨ (s.panel p).shown = some (s.face p).desired

/-- The three conditions under which the Face Controller takes a key event (R88). -/
def Store.takesKeys (s : Store) (p : Nat) : Prop :=
  (s.panel p).line = .ready ∧ (s.panel p).outstanding = none ∧ (s.panel p).shown = some (s.face p).desired

/-- No key event waits where it could be taken (R88). -/
def Store.KeysTaken (s : Store) : Prop := ∀ p, p < 8 → s.takesKeys p → (s.panel p).holder = none

/-- Memory, the marks, the posted writes and the indices are as before. -/
structure State.KeepsLink (s t : State) : Prop where
  mem : t.mem = s.mem
  marks : t.path.marks = s.path.marks
  posted : t.path.posted = s.path.posted
  condition : t.path.condition = s.path.condition
  index : t.intake.index = s.intake.index
  produce : t.report.produce = s.report.produce
  consume : t.report.consume = s.report.consume

/-- A floor command completes: it changes nothing of the link and no line, and has an effect. -/
def State.Ends (s : State) (c : Instr) (effect : State → Prop) : Prop :=
  ∃ t, exec c s = .next t ∧ s.KeepsLink t ∧ t.gateLines = s.gateLines ∧ effect t

/-- The records of the job blocks are those of a store; the notice list and the write-back list may differ. -/
def State.JobsAre (t : State) (x : Store) : Prop :=
  t.store = { x with notices := t.store.notices, writeBack := t.store.writeBack }

/-- No notice is raised and no record listed. -/
def State.AddsNothing (s t : State) : Prop :=
  (∀ n ∈ t.store.notices, n ∈ s.store.notices) ∧ ∀ r ∈ t.store.writeBack, r ∈ s.store.writeBack

/-- A floor command has no effect but what the reports and the write-backs do of themselves. -/
def State.Ignores (s : State) (c : Instr) : Prop := s.Ends c fun t => t.JobsAre s.store ∧ s.AddsNothing t

/-- A carousel has been fenced (R47): its channel has no position, no target, no deadline and no queue; its carriers have
no reservation; its faces show FAULT, disabled; the carriers that were presented are SUSPECT; every tyre count stays;
FENCED is raised. -/
structure State.Fences (s : State) (n : Nat) (cause : FenceCause) (code : Option Nat) (t : State) : Prop where
  channel : t.store.channel n = { s.store.channel n with
    state := .fenced, position := none, target := none, deadline := none, queue := [], pendingCount := none
    fenceCause := some cause, faultCode := code }
  reservations : ∀ r ∈ t.store.reservations, r.slot / 72 ≠ n
  faces : ∀ f, f < 2 → (t.store.face (2 * n + f)).state ≠ .presenting ∧
    (t.store.face (2 * n + f)).desired = Display.fault
  carriers : ∀ f c, f < 2 → c < 24 → (s.store.face (2 * n + f)).state = .presenting →
    (s.store.face (2 * n + f)).carrier = some c → (t.store.carrier (24 * n + c)).suspect = true
  counts : ∀ q, (t.store.slot q).count = (s.store.slot q).count
  told : t.told (.carousel n) Flag.carouselFenced
  listed : t.renewed (.status n)

/-- A working part with nothing left due takes a whole message on a drive link of a fitted carousel (R197). -/
structure State.HearsDrive (s : State) (n : Nat) : Prop where
  working : s.path.condition = .working
  fitted : (s.store.cfg.carousel n).fitted = true
  window : (s.store.channel n).window = []
  attended : s.store.Attended
  bounded : s.store.Bounded

/-- A panel has gone OFFLINE (R81). -/
structure State.GoesOffline (s : State) (p : Nat) (wrongType : Bool) (t : State) : Prop where
  panel : t.store.panel p = { s.store.panel p with
    line := .offline, step := none, outstanding := none, attempt := none, timer := none, received := .none
    shown := none, holder := none, inhibit := false, wrongType := wrongType }
  face : (s.store.panel p).line = .ready → (t.store.face p).state = .halted
  others : (s.store.panel p).line ≠ .ready →
    t.JobsAre (s.store.putPanel p (t.store.panel p))
  listed : t.renewed (.status (4 + p))

/-! ## What the allocation pass and the displays never touch

At the end of an event an allocation pass may claim stock for waiting lines, and the displays are brought into
agreement (R86, R100). `Store.standing` is the store without what those two may change: so a statement that gives it
says all that the command itself changed, and that nothing else has changed. -/

/-- A carrier without its FACE_OPEN mark, its load and what is reserved. -/
def Carrier.standing (c : Carrier) : Carrier :=
  { c with faceOpen := false, load := 0, bays := c.bays.map fun q => { q with reserved := 0 } }

/-- A channel without its queue, its pending count and its travel; MOVING counts as IDLE. -/
def Channel.standing (c : Channel) : Channel :=
  { c with
    state := if c.state = .moving then .idle else c.state
    target := none, deadline := none, queue := [], pendingCount := none, sent := [] }

/-- A panel without its exchange. -/
def Panel.standing (x : Panel) : Panel := { x with outstanding := none, attempt := none, timer := none, sentBytes := [] }

/-- A line without what is reserved for it. -/
def Line.standing (l : Line) : Line := { l with reservedFor := 0, setWeek := none }

/-- An order without what is reserved for it. -/
def Order.standing (o : Order) : Order := { o with lines := o.lines.map Line.standing }

/-- An audit record without the progress of its count. -/
def AuditRecord.standing : AuditRecord → AuditRecord
  | .free => .free
  | .listed e => .listed { e with state := .waiting, bays := #v[BayCount.blank, BayCount.blank, BayCount.blank] }
  | .committed e => .committed e

/-- The store without the faces, the reservations, the waiting lines, the notice list and the write-back list, and with
the records above. -/
def Store.standing (s : Store) : Store :=
  { s with
    carriers := s.carriers.map Carrier.standing
    reservations := []
    channels := s.channels.map Channel.standing
    faces := Vector.replicate 8 Face.powerUp
    panels := s.panels.map Panel.standing
    orders := s.orders.map fun o => o.map Order.standing
    waiting := []
    audits := s.audits.map AuditRecord.standing
    notices := []
    writeBack := []
    passDue := false }

end Sys2Proof.Machine
end

