-- ==== Sys2Proof/Certificates/Slice0/Obligations.lean ====
section
/-! DEFINITION. The statements for the provers. A statement that gives `Store.standing` gives everything a command
changed and says that nothing else has changed, but for what an allocation pass and the displays may do at the end of
the same event (R86, R100; log 6). Hypotheses such as `n < 4` only keep an index inside its table. -/

open Sys2Proof Sys2Proof.Machine

/-! ## The step and the invariants -/

/-- A step takes the command at the front of the queue and runs it on the queue's rest. -/
def Obligations.StepRunsFrontCommand : Prop :=
  ∀ (c : Instr) (cs : List Instr) (s : State), s.pending = c :: cs → step s = exec c { s with pending := cs }

/-- A command leaves the queue as it is; on an empty queue a step leaves everything as it is (log 30). -/
def Obligations.QueueIsLeftToTheStep : Prop :=
  (∀ (c : Instr) (s : State), ∃ t, exec c s = .next t ∧ t.pending = s.pending) ∧
    ∀ s : State, s.pending = [] → step s = .next s

/-- The memory keeps its canonical form at every step: addresses rising, no entry equal to what an unwritten byte reads
as. The form, and that such a byte reads as 0, is the model's choice (log 2). -/
def Obligations.MemoryFormKept : Prop := ∀ s t : State, s.MemorySound → step s = .next t → t.MemorySound

/-- The report ring is never overrun: at every step it holds at most 64 unread entries, and a report write has the entry
at the produce index, with room, to itself (R176, R178). And no report write is left to be begun: with none in flight and
room in the ring, a working part has no completion pending, and no notice unless the Intake is RETURNING (R178). -/
def Obligations.ReportRingKept : Prop :=
  ∀ s t : State, step s = .next t → (s.RingSound → t.RingSound) ∧ (s.ReportsBegun → t.ReportsBegun)

/-- The posted write buffer holds at most 8 writes at every step (R187); there are at most 256 reservations, their numbers
distinct (R14), at most 8 entries in each motion queue (R30), at most one pending notice of each source (R179), and no
image record is listed twice (R189); a face that is PRESENTING has a carrier and a kind, any other has neither and empty
bay lists, and a PRESENTED reservation names face 0 or 1 (R14, R53, R54). -/
def Obligations.ListBoundsKept : Prop :=
  ∀ s t : State, step s = .next t →
    (s.BufferSound → t.BufferSound) ∧ (s.store.Bounded → t.store.Bounded) ∧ (s.store.FacesSound → t.store.FacesSound)

/-- The part works, and goes on loading, only with windows that are aligned, apart from each other and clear of the
configuration block (R185, R193). While it loads, no entry of the request ring is being read, and until the carrier image
has been loaded no record of a job block has left its value after reset, but for the configuration and the articles that
the load has taken (R193, R194; log 12). -/
def Obligations.WindowsKept : Prop :=
  ∀ s t : State, step s = .next t → (s.WindowsSound → t.WindowsSound) ∧ (s.LoadSound → t.LoadSound)

/-- At the end of every step no allocation pass is due, every READY panel with nothing outstanding shows what its face
wishes, and no key event waits where it could be taken (R86, R88, R100; log 5, log 6). -/
def Obligations.NothingIsLeftDue : Prop :=
  ∀ s t : State, s.store.Attended → s.store.KeysTaken → step s = .next t → t.store.Attended ∧ t.store.KeysTaken

/-- The state after reset meets every invariant. -/
def Obligations.ResetMeetsTheInvariants : Prop :=
  State.reset.MemorySound ∧ State.reset.RingSound ∧ State.reset.ReportsBegun ∧ State.reset.BufferSound ∧
    State.reset.store.Bounded ∧ State.reset.store.FacesSound ∧ State.reset.WindowsSound ∧ State.reset.LoadSound ∧
    State.reset.store.Attended ∧ State.reset.store.KeysTaken

/-- What reset leaves: the start-up load has begun with the read of the configuration block, the posted write buffer and
the write-back list empty, every commit mark clear, every change count 0, the probe select 0 with no snapshot, the
refusal record empty, the ring indices 0, and the job blocks' lists and tables empty (R187, R188, R189, R191, R193). -/
def Obligations.ResetValues : Prop :=
  let s := State.reset
  s.path.condition = .loading .configuration ∧ s.path.port = some ⟨.load .configuration, false⟩ ∧
  s.path.posted = [] ∧ s.store.writeBack = [] ∧ (∀ e, e < 32 → look s.path.marks true e = false) ∧
  (∀ i, i < 700 → look s.path.changeCounts 1 i = 0) ∧ s.path.probeSelect = 0 ∧ s.path.snapshot = none ∧
  s.path.refusals = ⟨none, 0⟩ ∧ s.intake = ⟨0, .waiting⟩ ∧ s.report = ⟨0, 0, none, none⟩ ∧
  s.store.notices = [] ∧ s.store.reservations = [] ∧ (∀ k, s.store.order k = none) ∧
  (∀ b, s.store.batch b = .free) ∧ (∀ a, s.store.audit a = .free) ∧
  (∀ n, n < 4 → (s.store.channel n).state = .unhomed ∧ (s.store.channel n).queue = []) ∧
  (∀ i, i < 8 → (s.store.face i).state = .halted) ∧ (∀ l, l < 16 → (s.store.lane l).state = .unsettled)

/-! ## Upstream accesses -/

/-- An access that ends RETRY has no effect of any kind (R184): every access during the start-up load; in a working part
a read of a record whose burst is in progress (R189), and a write to the entry in hand (R173); and, while the posted
write buffer is full, a write to be passed: in PASS-ONLY any write, in a working part a write outside every window or
to the REQUEST window, an OWNER write, a write to the attention enable or the probe select word, and a write to the
consume index word that moves it over unread entries (R186, R187). -/
def Obligations.RetryHasNoEffect : Prop :=
  ∀ (s : State) (a : Word) (en : Enables) (d : Word), s.path.inFlight = none →
    let retries (i : Instr) := exec i s = .next { s with path := { s.path with ending := some .retry } }
    let v : Half := (if en.getLsbD 1 then d.extractLsb' 8 8 else s.report.consume.extractLsb' 8 8) ++
      (if en.getLsbD 0 then d.extractLsb' 0 8 else s.report.consume.extractLsb' 0 8)
    ((∃ st, s.path.condition = .loading st) → retries (.upstreamRead a) ∧ retries (.upstreamWrite a en d)) ∧
    (s.path.condition = .working → s.probeWordAt a.toNat = none → s.inBurst a.toNat = true →
      retries (.upstreamRead a)) ∧
    (s.path.condition = .working → en ≠ 0 → s.store.cfg.covers .request a.toNat = true →
      s.entryInHand = some ((a.toNat - s.base .request) / 64) → retries (.upstreamWrite a en d)) ∧
    (s.path.condition = .passOnly → en ≠ 0 → s.path.posted.length = 8 → retries (.upstreamWrite a en d)) ∧
    (s.Decodes → en ≠ 0 → s.path.posted.length = 8 →
      ((∀ w, s.store.cfg.covers w a.toNat = false) ∨ s.store.cfg.covers .request a.toNat = true →
        retries (.upstreamWrite a en d)) ∧
      (∀ e, en.getLsbD 0 = true → retries (.ownerWrite e en d)) ∧
      retries (.attentionEnableWrite en d) ∧ retries (.probeSelectWrite en d) ∧
      ((v - s.report.consume).toNat ≤ (s.report.produce - s.report.consume).toNat →
        retries (.consumeIndexWrite en d)))

/-- A read of any word but the probe data words, with no burst of its record in progress, is passed: it is in flight, and
it claims the port in the second class when no posted write waits (R184, R187, R190). -/
def Obligations.ReadIsPassed : Prop :=
  ∀ (s : State) (a : Word), s.path.inFlight = none →
    (s.path.condition = .passOnly ∨
      (s.path.condition = .working ∧ s.probeWordAt a.toNat = none ∧ s.inBurst a.toNat = false)) →
    ∃ t, exec (.upstreamRead a) s = .next t ∧ t.path.inFlight = some a.toNat ∧ t.path.ending = none ∧
      (s.path.posted = [] → t.owed (.passedRead a.toNat)) ∧ t.path.posted = s.path.posted ∧
      t.path.marks = s.path.marks ∧ s.OnlyPath t

/-- The passed read ends DONE with the data of memory when the port has carried it (R184, R187). -/
def Obligations.PassedReadEnds : Prop :=
  ∀ (s : State) (a : Nat), s.path.port = some ⟨.passedRead a, false⟩ →
    ∃ t, exec .passedReadEnd s = .next t ∧ t.path.inFlight = none ∧
      t.path.ending = some (.data (Memory.readWord s.mem a)) ∧ t.path.posted = s.path.posted ∧
      t.path.marks = s.path.marks ∧ s.OnlyPath t

/-- A write outside every window is accepted at the tail of the posted write buffer and ends DONE, if the buffer holds
fewer than 8 writes; in PASS-ONLY every write is. So is a write to the REQUEST window that leaves out the OWNER byte of
word 0, unless its entry is in hand. A write whose byte enables select no byte ends DONE in a working part and in
PASS-ONLY, is neither posted nor refused, and this holds at the entry in hand and with a full buffer too (log 22); that
the refusal record stays is said where no report write waits to be begun, as every step leaves it (R178, R181). No mark
and no record changes (R171, R184 to R187). -/
def Obligations.WriteIsPosted : Prop :=
  ∀ (s : State) (a : Word) (en : Enables) (d : Word), s.path.inFlight = none →
    let kept (t : State) := t.path.marks = s.path.marks ∧ t.report.consume = s.report.consume ∧
      t.path.attention = s.path.attention ∧ t.path.probeSelect = s.path.probeSelect ∧ s.OnlyPath t
    let offset := a.toNat - s.base .request
    (en ≠ 0 → s.path.posted.length < 8 →
      (s.path.condition = .passOnly ∨
        (s.path.condition = .working ∧ ∀ w, s.store.cfg.covers w a.toNat = false) ∨
        (s.path.condition = .working ∧ s.store.cfg.covers .request a.toNat = true ∧
          (offset % 64 ≠ 0 ∨ en.getLsbD 0 = false) ∧ s.entryInHand ≠ some (offset / 64))) →
      ∃ t, exec (.upstreamWrite a en d) s = .next t ∧ t.path.posted = s.path.posted ++ [⟨a.toNat, en, d⟩] ∧
        t.path.ending = some .done ∧ kept t) ∧
    (s.path.condition = .working ∨ s.path.condition = .passOnly →
      ∃ t, exec (.upstreamWrite a 0 d) s = .next t ∧ t.path.posted = s.path.posted ∧ t.path.ending = some .done ∧
        (s.ReportsBegun → t.path.refusals = s.path.refusals) ∧ kept t)

/-- A write to the report window, to an image window, or to a word of the control window that the processor does not
write is refused: it ends DONE whether or not the buffer is full, is not posted, is counted in the refusal record, and
raises WRITE_REFUSED (R181, R185, R186, R190). -/
def Obligations.WriteIsRefused : Prop :=
  ∀ (s : State) (a : Word) (en : Enables) (d : Word), s.Decodes → en ≠ 0 →
    (s.store.cfg.covers .report a.toNat = true ∨ (recordAt s.store.cfg a.toNat).isSome = true ∨
      (s.store.cfg.covers .control a.toNat = true ∧ 12 ≤ a.toNat - s.base .control)) →
    ∃ t, exec (.upstreamWrite a en d) s = .next t ∧ t.path.ending = some .done ∧
      t.path.posted = s.path.posted ∧ t.told .path Flag.pathWriteRefused ∧
      (t.path.refusals = State.countRefusal s.path.refusals a.toNat ∨
        (t.path.refusals = ⟨none, 0⟩ ∧ ∃ n, n.source = .path ∧
          t.report.writing = some (.notice n (State.countRefusal s.path.refusals a.toNat)))) ∧
      t.path.marks = s.path.marks ∧ t.report.consume = s.report.consume ∧ s.OnlyPath t

/-- A write to word 0 of a request entry with its OWNER byte enabled sets or clears the entry's commit mark when it is
accepted; every other mark stays (R171). -/
def Obligations.OwnerWriteActsOnTheMark : Prop :=
  ∀ (s : State) (e : Fin 32) (en : Enables) (d : Word), s.Decodes → en.getLsbD 0 = true → s.path.posted.length < 8 →
    s.entryInHand ≠ some e.val →
    ∃ t, exec (.ownerWrite e en d) s = .next t ∧ t.path.ending = some .done ∧
      look t.path.marks false e.val = d.getLsbD 0 ∧
      (∀ e', e' ≠ e.val → look t.path.marks false e' = look s.path.marks false e') ∧
      t.path.posted = s.path.posted ++ [⟨s.entryAddress e.val, en, d⟩] ∧ s.OnlyPath t

/-- The consume index: the new value takes the enabled bytes from the write and the rest from the present index; it is
accepted when its distance from the consume index is not more than the unread entries, and refused otherwise (R177). -/
def Obligations.ConsumeWriteMovesForward : Prop :=
  ∀ (s : State) (en : Enables) (d : Word), s.Decodes → en ≠ 0 →
    let v : Half := (if en.getLsbD 1 then d.extractLsb' 8 8 else s.report.consume.extractLsb' 8 8) ++
      (if en.getLsbD 0 then d.extractLsb' 0 8 else s.report.consume.extractLsb' 0 8)
    ((v - s.report.consume).toNat ≤ (s.report.produce - s.report.consume).toNat → s.path.posted.length < 8 →
      ∃ t, exec (.consumeIndexWrite en d) s = .next t ∧ t.report.consume = v ∧ t.report.produce = s.report.produce ∧
        t.path.posted = s.path.posted ++ [⟨s.controlAddress 0, en, d⟩] ∧ t.path.ending = some .done ∧
        s.OnlyPath t) ∧
    ((s.report.produce - s.report.consume).toNat < (v - s.report.consume).toNat →
      ∃ t, exec (.consumeIndexWrite en d) s = .next t ∧ t.report.consume = s.report.consume ∧
        t.path.posted = s.path.posted ∧ t.path.ending = some .done ∧ t.told .path Flag.pathWriteRefused ∧
        s.OnlyPath t)

/-- The attention line is asserted exactly while the produce index differs from the consume index and the attention
enable word allows it; an accepted write to that word acts at once (R182). That a write without byte 0 leaves the enable
as it is, is the model's reading (log 24). -/
def Obligations.AttentionWriteActsOnTheLine : Prop :=
  ∀ (s : State) (en : Enables) (d : Word), s.Decodes → en ≠ 0 → s.path.posted.length < 8 →
    ∃ t, exec (.attentionEnableWrite en d) s = .next t ∧
      t.path.attention = (if en.getLsbD 0 then d.getLsbD 0 else s.path.attention) ∧
      (t.attentionLine = true ↔ s.report.produce ≠ s.report.consume ∧ t.path.attention = true) ∧
      t.path.posted = s.path.posted ++ [⟨s.controlAddress 4, en, d⟩] ∧ t.path.ending = some .done ∧ s.OnlyPath t

/-- The probe: a write to the select word replaces the written bytes and clears the snapshot; a read of data word 0 takes
a snapshot of the selected entry and ends DONE with its word 0; a read of a further word ends DONE with that word of the
snapshot, or with 0 when it is clear (R191). The snapshot of a reservation has the words of spec/11, and a snapshot of a
position beyond the list, or of a code that names no collection, is empty: its word 0 has the code and no present bit,
and its other words are 0. -/
def Obligations.ProbeShowsTheSelectedEntry : Prop :=
  ∀ (s : State), s.Decodes →
    let sel := s.path.probeSelect
    let word (i : Nat) := look (probeSnapshotOf s.store sel) 0 i
    let code := sel.toNat % 256
    let index := sel.toNat / 256
    (∀ (en : Enables) (d : Word), en ≠ 0 → s.path.posted.length < 8 →
      ∃ t, exec (.probeSelectWrite en d) s = .next t ∧ t.path.probeSelect = mergeBytes s.path.probeSelect d en ∧
        t.path.snapshot = none ∧ t.path.posted = s.path.posted ++ [⟨s.controlAddress 8, en, d⟩] ∧
        t.path.ending = some .done ∧ s.OnlyPath t) ∧
    (∃ t, exec .probeSnapshot s = .next t ∧ t.path.snapshot = some (probeSnapshotOf s.store sel) ∧
      t.path.ending = some (.data (word 0)) ∧ t.path.probeSelect = sel ∧ t.path.posted = s.path.posted ∧
      s.OnlyPath t) ∧
    (∀ r, code = 2 → index < 256 → s.store.reservations[index]? = some r →
      let place := match r.state with
        | .reserved => (0, 0xFF)
        | .queued f => (1, f)
        | .presented f => (2, f)
      word 0 = wordOfBytes 2 1 0 0 ∧ word 2 = wordOfBytes r.slot (r.slot / 256) r.quantity 0 ∧
      (∀ k l, r.claim = .pick k l →
        word 1 = wordOfBytes 1 place.1 place.2 r.number ∧ word 3 = wordOfBytes k l 0xFF 0) ∧
      (∀ b, r.claim = .put b →
        word 1 = wordOfBytes 2 place.1 place.2 r.number ∧ word 3 = wordOfBytes 0xFF 0xFF b 0) ∧
      ∀ i, 4 ≤ i → word i = 0) ∧
    ((code = 2 ∧ (256 ≤ index ∨ s.store.reservations[index]? = none)) ∨ code = 0 ∨ 7 < code →
      word 0 = wordOfBytes code 0 0 0 ∧ ∀ i, 0 < i → word i = 0) ∧
    (∀ w : Fin 8, w.val ≠ 0 →
      ∃ t, exec (.probeDataRead w) s = .next t ∧
        t.path.ending = some (.data ((s.path.snapshot.map fun v => look v 0 w.val).getD 0)) ∧
        t.path.snapshot = s.path.snapshot ∧ t.path.posted = s.path.posted ∧ s.OnlyPath t)

/-! ## The downstream port -/

/-- The arbiter: with the port free it grants the posted write buffer first, then the longest waiting claim of the lowest
class that has one, and a burst only when no claim of a higher class waits; a busy port is left as it is (R192). A burst
carries the words of its record as it stands, with the record's change count in its first and its last word (R188, R189):
the carrier, article, order, lane, carousel and face records of spec/11, an enumeration by its code, an absent value as
0xFF or 0xFFFF (R196; log 16), and the fields of an UNDEFINED article and of a free order as 0 (log 15). -/
def Obligations.ArbiterGrantsByClass : Prop :=
  ∀ s : State,
    (s.path.port ≠ none → exec .downstreamGrant s = .next s) ∧
    (s.path.port = none → s.path.posted ≠ [] →
      exec .downstreamGrant s = .next { s with path := { s.path with port := some ⟨.postedWrite, false⟩ } }) ∧
    (∀ (before : List Transfer) (x : Transfer) (after : List Transfer),
      s.path.port = none → s.path.posted = [] → s.path.claims = before ++ x :: after →
      (∀ y ∈ s.path.claims, 2 ≤ State.classOf y ∧ State.classOf y ≤ 4) →
      (∀ y ∈ before, State.classOf x < State.classOf y) → (∀ y ∈ after, State.classOf x ≤ State.classOf y) →
      exec .downstreamGrant s =
        .next { s with path := { s.path with claims := before ++ after, port := some ⟨x, false⟩ } }) ∧
    (∀ (r : ImageRecord) (rest : List ImageRecord),
      s.path.port = none → s.path.posted = [] → s.path.claims = [] → s.path.condition ≠ .passOnly →
      s.store.writeBack = r :: rest → recordIndex r < 700 →
      ∃ t, exec .downstreamGrant s = .next t ∧ t.store = { s.store with writeBack := rest } ∧
        look t.path.changeCounts 0 (recordIndex r) = look s.path.changeCounts 0 (recordIndex r) + 1 ∧
        t.path.port = some ⟨.burst r (recordWords s.store r
          (look s.path.changeCounts 0 (recordIndex r) + 1).toNat), false⟩ ∧
        t.mem = s.mem) ∧
    ∀ cc : Nat,
      let st := s.store
      let words (r : ImageRecord) := recordWords st r cc
      let ends := wordOfBytes cc 0 0 0
      let bit (b : Bool) : Nat := if b then 1 else 0
      let byte (x : Option Nat) : Nat := x.getD 0xFF
      let half (i : Int) : Nat := (BitVec.ofInt 16 i).toNat
      (∀ i, words (.carrier i) =
        let c := st.carrier i
        let bay (b : Nat) : List Word :=
          let q := look c.bays Slot.empty b
          let reason := [none, some BlockReason.request, some .disputed, some .foreign, some .imageFault].idxOf
            q.blockReason
          [wordOfHalves ((if 0 < q.count + q.incoming then 1 else 0) + 256 * reason) (q.article.getD 0xFFFF),
            wordOfHalves (q.lotWeek.getD 0) (bit q.lotWeek.isSome), wordOfBytes q.count q.reserved q.incoming 0, 0]
        [wordOfBytes cc (bit c.suspect + 2 * bit c.auditWanted + 4 * bit c.faceOpen) (bit c.frozen) 0,
          BitVec.ofNat 32 c.load] ++ bay 0 ++ bay 1 ++ bay 2 ++ [0, ends]) ∧
      (∀ a, words (.article a) = match st.article a with
        | none => [ends, 0, 0, ends]
        | some x => [wordOfBytes cc 1 x.sizeClass 0, x.catalogue, wordOfHalves x.weight (x.tolerance % 256), ends]) ∧
      (∀ k, words (.order k) = match st.order k with
        | none => [wordOfBytes cc 0xFF 0 0, 0, wordOfBytes 0 0 0xFF 0, 0, 0, 0, 0, 0, 0, 0, 0, 0, 0, 0, 0, ends]
        | some o =>
          let line (i : Nat) : Word := match o.lines[i]? with
            | none => 0
            | some l => BitVec.ofNat 32 (l.article % 512 + 2 ^ 9 * (l.quantity % 32) + 2 ^ 14 * (l.filled % 32) +
                2 ^ 19 * (l.reservedFor % 32) + 2 ^ 24 * bit l.setFlag + 2 ^ 25 * bit (l.filled == l.quantity) +
                2 ^ 26 * bit l.setWeek.isSome)
          let week (i : Nat) : Nat := ((o.lines[i]?).bind fun l => l.setWeek).getD 0
          let state := [OrderState.admitting, .active, .cancelling, .complete, .abandoned].idxOf o.state
          let sequence : Half := o.admissionSequence.getD 0
          [wordOfBytes cc state o.urgency o.passOver, o.tag,
            wordOfHalves sequence.toNat (byte o.lane % 256 + 256 * o.lines.length),
            line 0, line 1, line 2, line 3, line 4, line 5, line 6, line 7, wordOfHalves (week 0) (week 1),
            wordOfHalves (week 2) (week 3), wordOfHalves (week 4) (week 5), wordOfHalves (week 6) (week 7), ends]) ∧
      (∀ l, words (.lane l) =
        let c := st.cfg.lane l
        let x := st.lane l
        let state := [LaneState.unsettled, .free, .occupied, .assigned, .done, .abandoned].idxOf x.state
        let weight := [none, some WeightState.matched, some .arriving, some .mismatch].idxOf x.weight
        [wordOfBytes cc (bit c.fitted) c.capacity state,
          wordOfBytes weight (byte x.order)
            (bit (x.scale == .fault) + 2 * bit x.arrival.isSome + 4 * bit x.settled.isSome) 0,
          wordOfHalves (half x.expected) x.tolerance, wordOfHalves (half x.tare) (half (x.settled.getD 0)), 0, 0, 0,
          ends]) ∧
      (∀ n, n < 4 → words (.status n) =
        let c := st.channel n
        let head := c.queue.head?
        let state := [ChannelState.unhomed, .homing, .idle, .moving, .held, .fenced].idxOf c.state
        let direction := match c.target with
          | none => 0xFF
          | some (_, d) => if d = .forward then 0 else 1
        let cause := [none, some FenceCause.driveFault, some .deadline, some .unsolicited, some .wrongPosition,
          some .homingStopped].idxOf c.fenceCause
        [wordOfBytes cc state (byte c.position) (byte (c.target.map Prod.fst)),
          wordOfBytes direction (if c.gate = .closed then 1 else 0) c.queue.length (byte (head.map fun e => e.carrier)),
          wordOfBytes (byte (head.map fun e => e.face)) (bit c.pendingCount.isSome) cause (byte c.faultCode),
          0, 0, 0, 0, 0, 0, 0, 0, 0, 0, 0, 0, ends]) ∧
      ∀ p, p < 8 → words (.status (4 + p)) =
        let f := st.face p
        let x := st.panel p
        let state := [FaceState.idle, .presenting, .halted].idxOf f.state
        let kind := match f.kind with
          | none => 0
          | some .work => 1
          | some .count => 3
        let head (b : Nat) := (look f.bays [] b).head?
        let bay (b : Nat) : Word :=
          let item := match head b with
            | none => (0, 0xFF, 0xFF)
            | some i => (match i.ref with
                | .pick _ => 1
                | .put _ => 2
                | .count _ => 3, byte i.expected, i.displayed)
          wordOfBytes (look f.bays [] b).length item.1 item.2.1 item.2.2
        let held (i : Nat) := byte f.held[i]?
        let note := [DisplayNote.blank, .wait, .fault, .count].idxOf f.desired.note
        let display (b : Nat) : Word :=
          let d := look f.desired.bays BayDisplay.off b
          wordOfBytes ([DisplayMode.off, .pick, .put, .count].idxOf d.mode) d.quantity (byte d.lane) 0
        let line := [LineState.offline, .identifying, .ready].idxOf x.line
        let flags := bit x.overrun + 2 * bit x.parity + 4 * bit x.framing + 8 * bit x.wrongType
        let reference (b : Nat) : Word := match head b with
          | none => wordOfHalves 0xFFFF 0
          | some i => match i.ref with
            | .pick n => wordOfHalves n 0
            | .put n => wordOfHalves n 0
            | .count n => wordOfHalves n 0
        [wordOfBytes cc state (byte f.carrier) kind, bay 0, bay 1, bay 2,
          wordOfBytes (held 0) (held 1) (held 2) (byte f.selected), wordOfBytes (bit f.desired.enabled) note 0 0,
          display 0, display 1, display 2, wordOfBytes line flags 0 0, reference 0, reference 1, reference 2, 0, 0, ends]

/-- The oldest posted write is written to memory with its own byte enables and leaves the buffer; every byte it does not
enable is as before (R187). -/
def Obligations.PostedWriteReachesMemory : Prop :=
  ∀ (s : State) (w : PostedWrite) (ws : List PostedWrite) (b : Bool), s.MemorySound →
    s.path.port = some ⟨.postedWrite, b⟩ → s.path.posted = w :: ws →
    ∃ t, exec .postedWriteEnd s = .next t ∧ t.path.posted = ws ∧
      (∀ a, Memory.read t.mem a =
        if w.address ≤ a ∧ a < w.address + 4 ∧ w.enables.getLsbD (a - w.address) = true
        then byteAt w.data (a - w.address) else Memory.read s.mem a) ∧
      (∀ a, s.path.inFlight = some a → ws = [] → t.owed (.passedRead a)) ∧
      t.path.marks = s.path.marks ∧ t.gateLines = s.gateLines ∧ s.SameJobs t

/-- A burst writes its version to the record's place, whole and in word order; every other byte is as before (R189). -/
def Obligations.BurstReachesMemory : Prop :=
  ∀ (s : State) (r : ImageRecord) (ws : List Word) (b : Bool), s.MemorySound → s.path.port = some ⟨.burst r ws, b⟩ →
    ∃ t, exec .writeBackBurstEnd s = .next t ∧
      Memory.readWords t.mem (recordAddress s.store.cfg r) ws.length = ws ∧
      (∀ a, a < recordAddress s.store.cfg r ∨ recordAddress s.store.cfg r + 4 * ws.length ≤ a →
        Memory.read t.mem a = Memory.read s.mem a) ∧
      t.path.marks = s.path.marks ∧ t.path.posted = s.path.posted ∧ t.gateLines = s.gateLines ∧ s.SameJobs t

/-- CONTROL_WORD_WRITE_END: the word of a control word write, or of the index write of a link reset or of the start-up
load (log 21: this row ends those too), is in memory, no byte outside its 4 bytes has changed, and nothing else of the
link or of the job blocks has (R183, R194). -/
def Obligations.ControlWordReachesMemory : Prop :=
  ∀ (s : State) (b : Bool), s.MemorySound →
    let writes (o : Nat) (v : Word) := ∃ t, exec .controlWordWriteEnd s = .next t ∧
      Memory.readWord t.mem (s.controlAddress o) = v ∧
      (∀ a, a < s.controlAddress o ∨ s.controlAddress o + 4 ≤ a → Memory.read t.mem a = Memory.read s.mem a) ∧
      t.path.marks = s.path.marks ∧ t.path.posted = s.path.posted ∧ t.intake.index = s.intake.index ∧
      t.report.produce = s.report.produce ∧ t.report.consume = s.report.consume ∧ s.SameJobs t
    (∀ (o : Nat) (v : Word), s.path.port = some ⟨.controlWord o v, b⟩ → writes o v) ∧
    (∀ v : Half, s.path.port = some ⟨.intakeIndex v false, b⟩ → writes Config.offIntake (wordOfHalves v.toNat 0)) ∧
    (∀ v : Half, s.path.port = some ⟨.produceIndex v false, b⟩ → writes Config.offProduce (wordOfHalves v.toNat 0))

/-! ## The Intake and the Report Writer -/

/-- INTAKE_TAKE: in WAITING the Intake takes the entry at its index when the entry's mark is set, no posted write to it
waits, the report ring has room, and no completion is pending or being written: it claims the read of the entry and
enters READING; otherwise it takes nothing (R172). -/
def Obligations.IntakeTakesACommittedEntry : Prop :=
  ∀ s : State, s.path.condition = .working → s.intake.state = .waiting →
    let e := s.intake.index.toNat % 32
    let ready := look s.path.marks false e = true ∧
      (∀ w ∈ s.path.posted, ¬ (s.entryAddress e ≤ w.address ∧ w.address < s.entryAddress e + 64)) ∧
      (s.report.produce - s.report.consume).toNat < 64 ∧ s.report.completion = none ∧
      s.report.writing ≠ some .completion
    (ready → ∃ t, exec .intakeTake s = .next t ∧ t.intake = ⟨s.intake.index, .reading e⟩ ∧ t.owed (.entryRead e) ∧
      t.path.marks = s.path.marks ∧ t.path.posted = s.path.posted ∧ s.OnlyPath t) ∧
    (¬ ready → ∃ t, exec .intakeTake s = .next t ∧ t.intake = s.intake ∧ t.path.marks = s.path.marks ∧
      t.path.posted = s.path.posted ∧ s.OnlyPath t)

/-- GIVE_BACK_END: word 0 of the entry is in memory and no other byte has changed, the intake index rises by 1, and its
write to the control window is claimed (R175). -/
def Obligations.GiveBackRaisesTheIndex : Prop :=
  ∀ (s : State) (e : Nat) (w : Word), s.MemorySound → s.path.port = some ⟨.giveBack e w, false⟩ →
    ∃ t, exec .giveBackEnd s = .next t ∧ Memory.readWord t.mem (s.entryAddress e) = w ∧
      (∀ a, a < s.entryAddress e ∨ s.entryAddress e + 4 ≤ a → Memory.read t.mem a = Memory.read s.mem a) ∧
      t.intake.index = s.intake.index + 1 ∧ t.owed (.intakeIndex (s.intake.index + 1) true) ∧
      (s.intake.state ≠ .waiting → t.intake.state = s.intake.state) ∧ t.path.marks = s.path.marks ∧ s.SameJobs t

/-- INTAKE_INDEX_WRITE_END: the intake index word is in memory, the Intake enters WAITING, and the completion becomes
pending; its report write begins at once where none is in flight and the ring has room (R175, R178). -/
def Obligations.IndexWriteHandsTheCompletionOver : Prop :=
  ∀ (s : State) (v : Half) (e : Nat) (ws : List Word), s.MemorySound → s.path.condition = .working →
    s.path.port = some ⟨.intakeIndex v true, false⟩ → s.intake.state = .returning e ws →
    ∃ t, exec .intakeIndexWriteEnd s = .next t ∧
      Memory.readWord t.mem (s.controlAddress Config.offIntake) = wordOfHalves v.toNat 0 ∧
      t.intake = ⟨s.intake.index, .waiting⟩ ∧
      (if s.report.writing = none ∧ (s.report.produce - s.report.consume).toNat < 64
        then t.report = { s.report with completion := none, writing := some .completion } ∧
          t.owed (.reportEntry (s.report.produce.toNat % 64) ws)
        else t.report = { s.report with completion := some ws }) ∧
      t.path.marks = s.path.marks ∧ s.SameJobs t

/-- REPORT_WRITE_BEGIN: with no report write in flight and room in the ring, a pending completion is written; else, if
the Intake is not RETURNING, the notice at the head of the list, which leaves the list; the write of the entry at
produce mod 64 is claimed with the content as it then stands; with neither, or with no room, nothing is begun
(R176, R178, R179). A notice is eight words: the class 2, the code of its source kind and its flags, then the source's
index, then six words of data, which for a batch are those of its record, and for the PATH source the first address and
the count of the refusal record (spec/11); that the six words of a FREE batch, and the word of an absent first address,
are 0 is the model's choice (log 15). -/
def Obligations.ReportWriterChooses : Prop :=
  ∀ s : State, s.path.condition = .working →
    let slot := s.report.produce.toNat % 64
    let free := s.report.writing = none ∧ (s.report.produce - s.report.consume).toNat < 64
    (∀ ws, free → s.report.completion = some ws → ∃ t, exec .reportWriteBegin s = .next t ∧
      t.report = { s.report with completion := none, writing := some .completion } ∧
      t.owed (.reportEntry slot ws) ∧ t.store.notices = s.store.notices ∧ s.OnlyPath t) ∧
    (∀ n rest, free → s.report.completion = none → s.returning = false → s.store.notices = n :: rest →
      ∃ t, exec .reportWriteBegin s = .next t ∧ (∃ r, t.report.writing = some (.notice n r)) ∧
        t.owed (.reportEntry slot (noticeWords s n)) ∧ t.store.notices = rest ∧ s.OnlyPath t) ∧
    (¬ free ∨ (s.report.completion = none ∧ (s.returning = true ∨ s.store.notices = [])) →
      ∃ t, exec .reportWriteBegin s = .next t ∧ t.report = s.report ∧ t.store.notices = s.store.notices ∧
        s.OnlyPath t) ∧
    ∀ (src : Source) (flags : Half),
      let ws := noticeWords s ⟨src, flags⟩
      let source := match src with
        | .device => (1, 0)
        | .path => (2, 0)
        | .carousel n => (3, n)
        | .face f => (4, f)
        | .lane l => (5, l)
        | .order k => (6, k)
        | .batch b => (7, b)
        | .audit a => (8, a)
      let batch (code : Nat) (x : Batch) := [wordOfBytes code 0 0 0, x.tag, wordOfHalves x.article 0,
        wordOfHalves x.lotWeek 0, wordOfHalves x.quantity x.planned, wordOfHalves x.placed x.unplaced]
      ws.length = 8 ∧ wordAt ws 0 = wordOfBytes 2 source.1 flags.toNat (flags.toNat / 256) ∧
      wordAt ws 1 = BitVec.ofNat 32 source.2 ∧
      (∀ b, src = .batch b → (s.store.batch b = .free → ws.drop 2 = [0, 0, 0, 0, 0, 0]) ∧
        (∀ x, s.store.batch b = .opened x → ws.drop 2 = batch 1 x) ∧
        ∀ x, s.store.batch b = .done x → ws.drop 2 = batch 2 x) ∧
      (src = .path → ws.drop 2 = [BitVec.ofNat 32 (s.path.refusals.first.getD 0),
        wordOfHalves s.path.refusals.count 0, 0, 0, 0, 0])

/-- REPORT_ENTRY_WRITE_END: the whole entry is in memory and no other byte has changed, and the write of the produce
index plus 1 is claimed; the produce index has not risen (R176). -/
def Obligations.ReportEntryReachesMemory : Prop :=
  ∀ (s : State) (e : Nat) (ws : List Word), s.MemorySound → s.path.port = some ⟨.reportEntry e ws, false⟩ →
    ∃ t, exec .reportEntryWriteEnd s = .next t ∧ Memory.readWords t.mem (s.reportAddress e) ws.length = ws ∧
      (∀ a, a < s.reportAddress e ∨ s.reportAddress e + 4 * ws.length ≤ a →
        Memory.read t.mem a = Memory.read s.mem a) ∧
      t.report.produce = s.report.produce ∧ t.owed (.produceIndex (s.report.produce + 1) true) ∧
      t.path.marks = s.path.marks ∧ s.SameJobs t

/-- PRODUCE_INDEX_WRITE_END: the produce index word is in memory, no byte outside its 4 bytes has changed, and the
produce index has its value. A DONE batch whose notice carried DONE is freed, and nothing else changes. An audit record
that is COMMITTED and whose notice carried COMMITTED is no longer so; it is FREE where no carrier of a fitted carousel is
AUDIT_WANTED, and otherwise the promotion gives the lowest such carrier that has no entry an entry in the lowest FREE
record. A notice of any other source, a notice without that flag, and a completion change nothing in any block
(R129, R156, R164, R176, R179). -/
def Obligations.ProduceIndexRises : Prop :=
  ∀ (s : State) (v : Half), s.MemorySound → s.path.port = some ⟨.produceIndex v true, false⟩ →
    let address := s.controlAddress Config.offProduce
    let wanted (r : Nat) := r < 96 ∧ (s.store.cfg.carousel (r / 24)).fitted = true ∧
      (s.store.carrier r).auditWanted = true
    ∃ t, exec .produceIndexWriteEnd s = .next t ∧ t.report.produce = v ∧ t.report.consume = s.report.consume ∧
      Memory.readWord t.mem address = wordOfHalves v.toNat 0 ∧
      (∀ a, a < address ∨ address + 4 ≤ a → Memory.read t.mem a = Memory.read s.mem a) ∧
      t.path.marks = s.path.marks ∧ t.path.posted = s.path.posted ∧
      (s.report.writing = none ∨ s.report.writing = some .completion → s.SameJobs t) ∧
      ∀ src flags r, s.report.writing = some (.notice ⟨src, flags⟩ r) →
        (∀ b, src = .batch b →
          (∀ x, hasFlag flags Flag.batchDone = true → s.store.batch b = .done x →
            t.JobsAre (s.store.setBatch b .free)) ∧
          (hasFlag flags Flag.batchDone = false ∨ (∀ x, s.store.batch b ≠ .done x) → s.SameJobs t)) ∧
        (∀ a, src = .audit a →
          (hasFlag flags Flag.auditCommitted = false → s.SameJobs t) ∧
          (s.store.Attended → (∀ x, s.store.audit a ≠ .committed x) → s.SameJobs t) ∧
          (∀ x, hasFlag flags Flag.auditCommitted = true → s.store.audit a = .committed x →
            (∀ y, t.store.audit a ≠ .committed y) ∧
            (∀ a' y, a' ≠ a → s.store.audit a' = .committed y → t.store.audit a' = .committed y) ∧
            (s.store.Attended → (∀ c, ¬ wanted c) → t.JobsAre (s.store.setAudit a .free)) ∧
            (∀ c low, wanted c → s.store.entryOf c = none → (∀ c', c' < c → wanted c' → s.store.entryOf c' ≠ none) →
              low < 16 → low = a ∨ s.store.audit low = .free →
              (∀ a', a' < low → a' ≠ a ∧ s.store.audit a' ≠ .free) →
              (t.store.carrier c).frozen = true ∧ t.told (.audit low) Flag.auditCreated ∧
              ∃ y, t.store.audit low = .listed y ∧ y.carousel = c / 24 ∧ y.carrier = c % 24 ∧
                y.origin = (if (s.store.carrier c).suspect then .suspect else .shortPick)))) ∧
        ((∀ b, src ≠ .batch b) → (∀ a, src ≠ .audit a) → s.SameJobs t)

/-! ## Power-up, the start-up load and the link reset -/

/-- POWER_UP: every register of the part takes its reset value, and the start-up load begins with the read of the
configuration block; memory keeps its bytes where no transfer that writes was in progress, whatever the operand says
(R193; log 1, log 8). -/
def Obligations.PowerUpBeginsTheLoad : Prop :=
  ∀ (s : State) (k : Nat),
    ∃ t, exec (.powerUp k) s = .next t ∧ t.path = State.reset.path ∧ t.intake = State.reset.intake ∧
      t.report = State.reset.report ∧ t.store = State.reset.store ∧ t.gateLines = s.gateLines ∧
      (k = 0 ∨ s.path.port = none ∨ (∃ x b, s.path.port = some ⟨x, b⟩ ∧
          ((∃ a, x = .passedRead a) ∨ (∃ e, x = .entryRead e) ∨ ∃ stage, x = .load stage)) →
        t.mem = s.mem)

/-- CONFIGURATION_CHECK: the block at 0x0000_F000 is taken word by word; the load goes on when its format code is 0x21,
its windows are aligned, apart and clear of the block, a carousel and a lane are fitted, and every value lies in its
range; in every other case the part enters PASS-ONLY. A lane that is not fitted has capacity and tare 0
(R3, R27, R76, R132, R182, R185, R193, spec/11). -/
def Obligations.ConfigurationIsChecked : Prop :=
  ∀ s : State, s.path.condition = .loading .configuration → s.path.port = some ⟨.load .configuration, false⟩ →
    let word (i : Nat) : Word := Memory.readWord s.mem (0xF000 + 4 * i)
    let byte (i b : Nat) := ((word i).extractLsb' (8 * b) 8).toNat
    let low (i : Nat) := ((word i).extractLsb' 0 16).toNat
    let high (i : Nat) := ((word i).extractLsb' 16 16).toNat
    let base (i : Nat) := (word (1 + i)).toNat
    let size (i : Nat) := [2048, 2048, 256, 6144, 8192, 4096, 512, 768].getD i 0
    let span (i : Nat) := [2048, 2048, 256, 8192, 8192, 4096, 512, 1024].getD i 0
    let carousel (n : Nat) := (word 9).getLsbD n
    let lane (l : Nat) := (word 9).getLsbD (16 + l)
    let within (least value most : Nat) := least ≤ value ∧ value ≤ most
    let good := byte 0 0 = 0x21 ∧ (∀ i, i < 8 → base i % span i = 0) ∧
      (∀ i j, i < 8 → j < 8 → i ≠ j → base i + size i ≤ base j ∨ base j + size j ≤ base i) ∧
      (∀ i, i < 8 → base i + size i ≤ 0xF000 ∨ 0xF100 ≤ base i) ∧
      (∃ n, n < 4 ∧ carousel n = true) ∧ (∃ l, l < 16 ∧ lane l = true) ∧
      (∀ n, n < 4 → carousel n = true →
        within 1 (byte (10 + n) 0) 12 ∧ within 2 (low (14 + n)) 50 ∧ within 5 (high (14 + n)) 100) ∧
      (∀ l, l < 16 → lane l = true → within 4 (byte (20 + l) 0) 32) ∧
      within 1 (low 18) 6000 ∧ high 18 ≤ 6000 ∧ byte 19 0 ≤ 1 ∧ byte 19 1 ≤ 63 ∧ within 50 (low 36) 1000 ∧
      within 1 (byte 36 2) 50 ∧ byte 36 3 ≤ 200 ∧ within 2 (byte 37 0) 60 ∧ byte 37 1 ≤ 1
    (good → ∃ t, exec .configurationCheck s = .next t ∧ t.path.condition = .loading .articles ∧
      t.store.cfg = {
        bases := Vector.ofFn fun i : Fin 8 => base i
        carousels := Vector.ofFn fun n : Fin 4 => {
          fitted := carousel n, bayDepth := byte (10 + n) 0
          sizeClasses := #v[byte (10 + n) 1 % 8, byte (10 + n) 1 / 8 % 8, byte (10 + n) 2 % 8]
          stepTime := low (14 + n), settleAllowance := high (14 + n) }
        loadLimit := low 18, imbalanceLimit := high 18, panelRate := byte 19 0
        repeatByte := (word 19).extractLsb' 8 8
        lanes := Vector.ofFn fun l : Fin 16 =>
          if lane l = true then ⟨true, byte (20 + l) 0, ((word (20 + l)).extractLsb' 16 16).toInt⟩ else ⟨false, 0, 0⟩
        scanInterval := low 36, settleBand := byte 36 2, emptyThreshold := byte 36 3, arrivalWindow := byte 37 0
        attention := byte 37 1 } ∧
      t.owed (.load .articles) ∧ (t.path.attention = true ↔ byte 37 1 = 1) ∧ t.mem = s.mem) ∧
    (¬ good → ∃ t, exec .configurationCheck s = .next t ∧ t.path.condition = .passOnly ∧ t.attentionLine = false ∧
      t.mem = s.mem ∧ t.store.notices = s.store.notices)

/-- ARTICLE_IMAGE_LOAD: with a matching header an entry is DEFINED with the four fields of its image record where the
change counts of the record agree, its DEFINED bit is set and its size class, weight and tolerance lie in their ranges,
and UNDEFINED otherwise; with another header every entry is UNDEFINED and the image is marked as discarded. Every article
record is listed for write-back (R25, R194, spec/11). -/
def Obligations.ArticleImageIsLoaded : Prop :=
  ∀ s : State, s.path.condition = .loading .articles → s.path.port = some ⟨.load .articles, false⟩ →
    let good := byteNat (Memory.readWord s.mem (s.controlAddress Config.offArticleHeader)) 0 = 0x2A
    let word (a i : Nat) := Memory.readWord s.mem (s.base .article + 16 * a + 4 * i)
    let x (a : Nat) : Article :=
      ⟨word a 1, byteNat (word a 0) 2, lowHalf (word a 2), byteNat (word a 2) 2⟩
    let defined (a : Nat) := good ∧ byteNat (word a 0) 0 = byteNat (word a 3) 0 ∧
      byteNat (word a 0) 1 % 2 = 1 ∧ (x a).sizeClass ≤ 7 ∧ 1 ≤ (x a).weight ∧ (x a).weight ≤ 1000 ∧
      (x a).tolerance ≤ 100
    ∃ t, exec .articleImageLoad s = .next t ∧ t.path.condition = .loading .carriers ∧ t.owed (.load .carriers) ∧
      (∀ a, a < 512 → (defined a → t.store.article a = some (x a)) ∧ (¬ defined a → t.store.article a = none) ∧
        ImageRecord.article a ∈ t.store.writeBack) ∧
      (t.path.articlesDiscarded = true ↔ ¬ good) ∧ t.store.carriers = s.store.carriers ∧ t.store.cfg = s.store.cfg ∧
      t.mem = s.mem

/-- CARRIER_IMAGE_LOAD, in a part whose blocks stand as the load has left them so far. With a matching header each slot
of a fitted carousel has the count, article, lot week and block reason of its image record, with nothing reserved or
incoming, and a slot with count 0 no article and no lot week; a faulty slot is EMPTY with the reason IMAGE_FAULT: one of
a record whose change counts differ, with a count above the bay depth, an article that is UNDEFINED, a count without an
article, or a code that no table names (log 25). With another header, and on a carousel that is not fitted, every slot is
EMPTY with no reason. The load is computed anew. SUSPECT is set where the record had SUSPECT or FACE_OPEN; AUDIT_WANTED
where it had AUDIT_WANTED or SUSPECT, or had FACE_OPEN and found no FREE audit record; FACE_OPEN is clear. The carriers
that had FACE_OPEN and not SUSPECT, then those with AUDIT_WANTED, are given READY audit entries in carrier order while
records are FREE, each freezing its carrier, and no other carrier is frozen. The number of slots with IMAGE_FAULT is the
faulted-record count. The other blocks are at their power-up values: the lanes UNSETTLED with the configured tare, the
channels UNHOMED with their gate lines sampled, the faces HALTED, no order, batch or reservation; that the channel of a
carousel that is not fitted has its gate OPEN, and that nothing has been sent on a drive link, is the model's choice
(logs 26 and 31), and so is that a torn record's FACE_OPEN marks nothing (log 39). Every record is listed and the control
words are claimed (R26, R170, R194). -/
def Obligations.CarrierImageIsLoaded : Prop :=
  ∀ s : State, s.LoadSound → s.path.condition = .loading .carriers → s.path.port = some ⟨.load .carriers, false⟩ →
    let good := byteNat (Memory.readWord s.mem (s.controlAddress Config.offCarrierHeader)) 0 == 0x2C
    let word (r i : Nat) := Memory.readWord s.mem (s.base .carrier + 64 * r + 4 * i)
    let taken (r : Nat) := good && (s.store.cfg.carousel (r / 24)).fitted
    let torn (r : Nat) := byteNat (word r 0) 0 != byteNat (word r 15) 0
    let mark (r i : Nat) := taken r && !torn r && (byteNat (word r 0) 1).testBit i
    let code (r b : Nat) := byteNat (word r (2 + 4 * b)) 1
    let article (r b : Nat) := highHalf (word r (2 + 4 * b))
    let count (r b : Nat) := byteNat (word r (4 + 4 * b)) 0
    let faulty (r b : Nat) := torn r || decide (1 < byteNat (word r (2 + 4 * b)) 0) || decide (4 < code r b) ||
      decide ((s.store.cfg.carousel (r / 24)).bayDepth < count r b) ||
      (article r b != 0xFFFF && (s.store.article (article r b)).isNone) ||
      (decide (0 < count r b) && article r b == 0xFFFF)
    let reason (r b : Nat) : Option BlockReason :=
      [none, some .request, some .disputed, some .foreign, some .imageFault].getD (code r b) none
    let slot (r b : Nat) : Slot :=
      if !taken r then ⟨none, none, none, 0, 0, 0⟩
      else if faulty r b then ⟨some .imageFault, none, none, 0, 0, 0⟩
      else if count r b == 0 then ⟨reason r b, none, none, 0, 0, 0⟩
      else ⟨reason r b, some (article r b),
        if (word r (3 + 4 * b)).getLsbD 16 then some (lowHalf (word r (3 + 4 * b))) else none, count r b, 0, 0⟩
    let weight (r b : Nat) := (((slot r b).article.bind s.store.article).map fun x => x.weight).getD 0
    let held := (List.range 96).filter fun r => mark r 2 && !mark r 0
    let wanted := (List.range 96).filter fun r => (mark r 0 || mark r 1) && !held.contains r
    let entries := (held ++ wanted).take 16
    ∃ t, exec .carrierImageLoad s = .next t ∧ t.path.condition = .loading .writeBack ∧
      (∀ r, r < 96 → t.store.carrier r = {
        suspect := mark r 0 || mark r 2
        auditWanted := mark r 0 || mark r 1 || (held.drop 16).contains r
        faceOpen := false
        frozen := entries.contains r
        load := ((List.range 3).map fun b => (slot r b).count * weight r b).sum
        bays := #v[slot r 0, slot r 1, slot r 2] }) ∧
      t.store.auditList = List.range entries.length ∧
      (∀ a r, entries[a]? = some r → t.store.audit a = .listed {
        carousel := r / 24, carrier := r % 24, state := .ready
        origin := if mark r 0 || mark r 2 then .suspect else .shortPick
        bays := #v[⟨none, [], none⟩, ⟨none, [], none⟩, ⟨none, [], none⟩] }) ∧
      (∀ a, entries.length ≤ a → t.store.audit a = .free) ∧
      t.path.faultedRecords = ((List.range 96).map fun r =>
        (List.range 3).countP fun b => (slot r b).blockReason == some .imageFault).sum ∧
      (t.path.carriersDiscarded = true ↔ good = false) ∧
      (∀ l, l < 16 → t.store.lane l = Lane.powerUp (s.store.cfg.lane l).tare) ∧
      (∀ n, n < 4 → t.store.channel n = { Channel.powerUp with
        gate := if (s.store.cfg.carousel n).fitted && look s.gateLines true n then .closed else .opened }) ∧
      (∀ f, f < 8 → (t.store.face f).state = .halted) ∧ (∀ k, t.store.order k = none) ∧
      (∀ b, t.store.batch b = .free) ∧ t.store.reservations = [] ∧ t.store.waiting = [] ∧ t.store.admission = [] ∧
      (∀ x ∈ Store.everyRecord, t.renewed x) ∧
      t.owed (.intakeIndex 0 false) ∧ t.owed (.produceIndex 0 false) ∧ t.owed (.controlWord 0 0) ∧
      t.owed (.controlWord 4 (if s.store.cfg.attention = 1 then 1 else 0)) ∧ t.owed (.controlWord 8 0) ∧
      (good = false → t.owed (.controlWord 0x18 0x2C)) ∧
      (s.path.articlesDiscarded = true → t.owed (.controlWord 0x14 0x2A)) ∧
      t.store.articles = s.store.articles ∧ t.mem = s.mem

/-- START_UP_LOAD_END: when the write-back list is empty and the control word writes have completed, be a burst still in
progress or not, the part works, the start-up notices are raised, every fitted panel's line is being identified and every
fitted lane's scan timer runs (R180, R194). -/
def Obligations.StartUpLoadEnds : Prop :=
  ∀ s : State, s.path.condition = .loading .writeBack → s.store.writeBack = [] → s.path.claims = [] →
    (s.path.port = none ∨ ∃ r ws b, s.path.port = some ⟨.burst r ws, b⟩) →
    ∃ t, exec .startUpLoadEnd s = .next t ∧ t.path.condition = .working ∧ t.told .device Flag.devicePowerUp ∧
      (s.path.articlesDiscarded = true ∨ s.path.carriersDiscarded = true → t.told .device Flag.deviceImageDiscarded) ∧
      (∀ n, n < 4 → s.store.fitted n = true → t.told (.carousel n)
        (if (s.store.channel n).gate = .closed then Flag.carouselGateClosed else Flag.carouselGateOpened)) ∧
      (∀ a, a < 16 → (s.store.entry a).isSome = true → t.told (.audit a) Flag.auditCreated) ∧
      (∀ p, p < 8 → s.store.fitted (p / 2) = true →
        (t.store.panel p).line = .identifying ∧ (t.store.panel p).step = some .awaitAck ∧
        (t.store.panel p).outstanding = some .identify ∧ (t.store.panel p).attempt = some 1) ∧
      (∀ l, l < 16 → (s.store.cfg.lane l).fitted = true → (t.store.lane l).scan = some s.store.cfg.scanInterval) ∧
      t.mem = s.mem

/-- LINK_RESET: the Intake is WAITING with index 0, the ring indices are 0 with no completion pending, every mark is
clear, the probe is cleared, a passed read is dropped, the attention enable has its configured value, the index and
control word writes are claimed, the notice in write goes back to the list, and LINK_RESET is raised; the posted writes,
memory and every record of the job blocks stay. While the configuration block has not been read the configured value is
not known, and the enable clear and the word 0 that is claimed are the model's choice (log 36). In PASS-ONLY it drops a
passed read and does nothing more (R183, R193, R195). -/
def Obligations.LinkResetClearsTheLink : Prop :=
  ∀ s : State,
    (s.path.condition ≠ .passOnly →
      ∃ t, exec .linkReset s = .next t ∧ t.intake = ⟨0, .waiting⟩ ∧ t.report.produce = 0 ∧ t.report.consume = 0 ∧
        t.report.completion = none ∧ t.report.writing ≠ some .completion ∧
        (∀ e, look t.path.marks false e = false) ∧ t.path.probeSelect = 0 ∧ t.path.snapshot = none ∧
        t.path.inFlight = none ∧ t.path.attention = (s.store.cfg.attention == 1) ∧
        t.owed (.intakeIndex 0 false) ∧ t.owed (.produceIndex 0 false) ∧ t.owed (.controlWord 0 0) ∧
        t.owed (.controlWord 4 (if s.store.cfg.attention = 1 then 1 else 0)) ∧
        (∀ n r, s.report.writing = some (.notice n r) → t.told n.source n.flags) ∧
        t.told .device Flag.deviceLinkReset ∧ t.path.posted = s.path.posted ∧ s.OnlyPath t) ∧
    (s.path.condition = .passOnly →
      ∃ t, exec .linkReset s = .next t ∧ t.path.inFlight = none ∧ t.path.condition = .passOnly ∧
        t.path.posted = s.path.posted ∧ t.report = s.report ∧ t.store = s.store ∧ t.mem = s.mem)

/-! ## Requests -/

/-- The checks common to every request: a format code that is not the request format is refused BAD_FIELD whatever the
kind, and a kind code that names none of the twelve kinds UNKNOWN_KIND; nothing changes in any block (R174). -/
def Obligations.CommonChecksRefuse : Prop :=
  ∀ (s : State) (e : Nat), e < 32 → s.path.port = some ⟨.entryRead e, false⟩ → s.intake.state = .reading e →
    let kind := Req.kind (s.entryWords e)
    (Req.format (s.entryWords e) ≠ 0x10 →
      ∀ row ∈ [(Instr.articleDefine, 1), (.articleRemove, 2), (.receive, 3), (.orderOpen, 4), (.orderCancel, 5),
        (.audit, 6), (.slotBlock, 7), (.slotUnblock, 8), (.home, 9), (.laneAccept, 10), (.laneRelease, 11),
        (.panelRestart, 12)],
      kind = row.2 → s.Refuses row.1 e .badField) ∧
    (kind = 0 ∨ 12 < kind →
      s.Refuses .unknownKind e (if Req.format (s.entryWords e) = 0x10 then .unknownKind else .badField))

/-- ARTICLE_DEFINE: the entry becomes DEFINED with the four fields, and its record is listed; BAD_FIELD outside the
ranges; IN_USE when the entry is DEFINED, held by a slot, and its class or weight would change (R12). -/
def Obligations.ArticleDefineSetsTheEntry : Prop :=
  ∀ (s : State) (e : Nat), s.Reads e Code.articleDefine →
    let ws := s.entryWords e
    let a := (wordAt ws 2).toNat
    let x : Article := ⟨wordAt ws 3, byteNat (wordAt ws 4) 0, highHalf (wordAt ws 4), byteNat (wordAt ws 4) 1⟩
    let good := a ≤ 511 ∧ x.sizeClass ≤ 7 ∧ 1 ≤ x.weight ∧ x.weight ≤ 1000 ∧ x.tolerance ≤ 100
    let inUse := (∃ q, q < 288 ∧ (s.store.slot q).article = some a) ∧
      ∃ y, s.store.article a = some y ∧ (x.sizeClass ≠ y.sizeClass ∨ x.weight ≠ y.weight)
    (¬ good → s.Refuses .articleDefine e .badField) ∧
    (good → inUse → s.Refuses .articleDefine e .inUse) ∧
    (good → ¬ inUse → s.Accepts .articleDefine e .accepted [] fun t =>
      t.article a = some x ∧ (∀ b, b ≠ a → t.article b = s.store.article b) ∧ .article a ∈ t.writeBack ∧
      t.standing = { s.store.standing with articles := t.articles } ∧ t.notices = s.store.notices)

/-- ARTICLE_REMOVE: the entry becomes UNDEFINED, and its record is listed; NOT_FOUND above 511 or where it is UNDEFINED;
IN_USE when a slot holds it, a line of an order not yet freed names it, or an OPEN batch does (R11, R13). -/
def Obligations.ArticleRemoveClearsTheEntry : Prop :=
  ∀ (s : State) (e : Nat), s.Reads e Code.articleRemove →
    let a := (wordAt (s.entryWords e) 2).toNat
    let inUse := (∃ q, q < 288 ∧ (s.store.slot q).article = some a) ∨
      (∃ k o l, s.store.order k = some o ∧ l ∈ o.lines ∧ l.article = a) ∨
      (∃ b x, s.store.batch b = .opened x ∧ x.article = a)
    (511 < a ∨ s.store.article a = none → s.Refuses .articleRemove e .notFound) ∧
    (a ≤ 511 → s.store.article a ≠ none → inUse → s.Refuses .articleRemove e .inUse) ∧
    (a ≤ 511 → s.store.article a ≠ none → ¬ inUse → s.Accepts .articleRemove e .accepted [] fun t =>
      t.article a = none ∧ (∀ b, b ≠ a → t.article b = s.store.article b) ∧ .article a ∈ t.writeBack ∧
      t.standing = { s.store.standing with articles := t.articles } ∧ t.notices = s.store.notices)

/-- SLOT_BLOCK and SLOT_UNBLOCK: the slot's block reason becomes REQUEST, or is cleared, its carrier's record is listed,
and nothing else of the slot changes; NOT_FITTED, then FROZEN, then for SLOT_UNBLOCK WRONG_STATE where there is no reason
(R22, R23). -/
def Obligations.SlotBlockAndUnblock : Prop :=
  ∀ (s : State) (e : Nat),
    let q := (wordAt (s.entryWords e) 2).toNat
    let fitted := q ≤ 287 ∧ (s.store.cfg.carousel (q / 72)).fitted = true
    let frozen := (s.store.carrier (q / 3)).frozen = true
    (s.Reads e Code.slotBlock →
      (¬ fitted → s.Refuses .slotBlock e .notFitted) ∧
      (fitted → frozen → s.Refuses .slotBlock e .frozen) ∧
      (fitted → ¬ frozen → s.Accepts .slotBlock e .accepted [] fun t =>
        (t.slot q).blockReason = some .request ∧ .carrier (q / 3) ∈ t.writeBack ∧
        t.standing = (s.store.setReason q (some .request)).standing ∧ t.notices = s.store.notices)) ∧
    (s.Reads e Code.slotUnblock →
      (¬ fitted → s.Refuses .slotUnblock e .notFitted) ∧
      (fitted → frozen → s.Refuses .slotUnblock e .frozen) ∧
      (fitted → ¬ frozen → (s.store.slot q).blockReason = none → s.Refuses .slotUnblock e .wrongState) ∧
      (fitted → ¬ frozen → (s.store.slot q).blockReason ≠ none → s.Accepts .slotUnblock e .accepted [] fun t =>
        (t.slot q).blockReason = none ∧ .carrier (q / 3) ∈ t.writeBack ∧
        t.standing = (s.store.setReason q none).standing ∧ t.passDue = false))

/-- RECEIVE: the lowest FREE batch record is planned over its whole quantity; the completion is ACCEPTED when all of it is
planned and PARTIAL when some is, with the batch index, planned and unplaced; a run that plans nothing is refused
NO_SPACE and leaves no trace; BAD_FIELD, UNKNOWN_ARTICLE and NO_ROOM come first, in that order (R120, R121). The run
first offers the whole quantity: to the lowest top-up slot that allows any, or, where no top-up slot does, to the EMPTY
slot that allows any on the lightest carrier, the lowest on a tie; it takes the largest quantity up to 12 that the
quantity, the bay depth, the load limit and the balance allow; it plans nothing where no slot allows any. Every slot it
plans into is a top-up slot or an EMPTY one that fits, and stays within its depth (R122 to R125). -/
def Obligations.ReceivePlansABatch : Prop :=
  ∀ (s : State) (e : Nat), s.Reads e Code.receive →
    let ws := s.entryWords e
    let article := (wordAt ws 3).toNat
    let week := (wordAt ws 4).toNat
    let quantity := (wordAt ws 5).toNat
    let good := 1 ≤ quantity ∧ quantity ≤ 96 ∧ week ≤ 65535
    let batch (planned unplaced : Nat) : Batch := ⟨wordAt ws 2, article, week, quantity, planned, 0, unplaced⟩
    let st := s.store
    let weight := ((st.article article).map fun x => x.weight).getD 0
    let held (q : Nat) := (st.slot q).count + (st.slot q).incoming
    let depth (q : Nat) := (st.cfg.carousel (q / 72)).bayDepth
    let load (q : Nat) := (st.carrier (q / 3)).load
    let across (q : Nat) := (st.carrier (q / 72 * 24 + (q / 3 + 12) % 24)).load
    let apart (x y : Nat) := ((x : Int) - y).natAbs
    let fits (q : Nat) := ∃ x, st.article article = some x ∧ x.sizeClass ≤ st.cfg.maxClass (q / 72) (q % 3)
    let ready (q : Nat) := q < 288 ∧ (st.cfg.carousel (q / 72)).fitted = true ∧ (st.slot q).blockReason = none ∧
      (st.carrier (q / 3)).frozen = false ∧ (st.carrier (q / 3)).suspect = false ∧
      ((st.channel (q / 72)).state = .idle ∨ (st.channel (q / 72)).state = .moving ∨
        (st.channel (q / 72)).state = .held)
    let topUp (q : Nat) := ready q ∧ (st.slot q).article = some article ∧ (st.slot q).lotWeek = some week ∧
      held q < depth q
    let empty (q : Nat) := ready q ∧ held q = 0 ∧ fits q
    let allows (q k : Nat) := 1 ≤ k ∧ k ≤ 12 ∧ k ≤ quantity ∧ held q + k ≤ depth q ∧
      load q + k * weight ≤ st.cfg.loadLimit ∧ (held q = 0 → fits q) ∧
      (apart (load q + k * weight) (across q) ≤ st.cfg.imbalanceLimit ∨
        apart (load q + k * weight) (across q) < apart (load q) (across q))
    let first (q : Nat) := (topUp q ∧ ∀ q', topUp q' → q' < q → ∀ k, ¬ allows q' k) ∨
      ((∀ q', topUp q' → ∀ k, ¬ allows q' k) ∧ empty q ∧
        ∀ q', empty q' → load q' < load q ∨ load q' = load q ∧ q' < q → ∀ k, ¬ allows q' k)
    (¬ good → s.Refuses .receive e .badField) ∧
    (good → s.store.article article = none → s.Refuses .receive e .unknownArticle) ∧
    (good → s.store.article article ≠ none → (∀ b, b < 16 → s.store.batch b ≠ .free) →
      s.Refuses .receive e .noRoom) ∧
    (∀ b, good → s.store.article article ≠ none → b < 16 → s.store.batch b = .free →
      (∀ b', b' < b → s.store.batch b' ≠ .free) →
      let short := ((s.store.setBatch b (.opened (batch 0 0))).planRun b quantity).2
      ((∀ q k, topUp q ∨ empty q → ¬ allows q k) → quantity ≤ short) ∧
      (∀ q k, first q → allows q k → st.reservations.length < 256 → short + k ≤ quantity) ∧
      (quantity ≤ short → s.Refuses .receive e .noSpace) ∧
      (short < quantity → s.Accepts .receive e (if short = 0 then .accepted else .partialDone)
        [BitVec.ofNat 32 b, BitVec.ofNat 32 (quantity - short), BitVec.ofNat 32 short] fun t =>
          t.batch b = .opened (batch (quantity - short) short) ∧
          (∀ b', b' ≠ b → t.batch b' = s.store.batch b') ∧
          (∀ q k, first q → allows q k → (∀ j, allows q j → j ≤ k) → st.reservations.length < 256 →
            (t.slot q).incoming = (st.slot q).incoming + k ∧
            (k = quantity → ∀ q', q' ≠ q → (t.slot q').incoming = (st.slot q').incoming)) ∧
          (∀ q, (t.slot q).incoming ≠ (st.slot q).incoming → (topUp q ∨ empty q) ∧
            (st.slot q).incoming < (t.slot q).incoming ∧ (st.slot q).count + (t.slot q).incoming ≤ depth q ∧
            (t.slot q).article = some article ∧ (t.slot q).lotWeek = some week) ∧
          (∀ q, (t.slot q).count = (st.slot q).count) ∧ t.articles = s.store.articles ∧
          t.notices = s.store.notices))

/-- ORDER_OPEN: the lowest free order record takes the tag, the urgency and the lines, with nothing filled; it is ADMITTING
on the admission list, or ACTIVE with a lane where the pass that follows admits it; the completion carries its index.
BAD_FIELD, UNKNOWN_ARTICLE, DUPLICATE, TOO_LARGE and NO_ROOM, in that order (R93, R94). Where an order of one line is
admitted and no other order or line waits, the allocation pass of the same event serves that line: from the slots that
are eligible, hold its article and have tyres available, up to its need, oldest lot week first and lowest slot first (a
slot without a lot week last: log 33), each until it is exhausted; a set from the oldest week alone that covers it
whole, and not at all where no week does; the line waits on while it needs more (R101 to R106). -/
def Obligations.OrderOpenFillsARecord : Prop :=
  ∀ (s : State) (e : Nat), s.Reads e Code.orderOpen →
    let ws := s.entryWords e
    let urgency := byteNat (wordAt ws 3) 0
    let count := byteNat (wordAt ws 3) 1
    let lines := (List.range count).map (Req.line ws)
    let total := (lines.map fun l => l.quantity).sum
    let good := urgency ≤ 3 ∧ 1 ≤ count ∧ count ≤ 8 ∧ ∀ l ∈ lines,
      1 ≤ l.quantity ∧ l.quantity ≤ 16 ∧ ¬ (l.setFlag = true ∧ l.quantity = 1) ∧ l.article ≤ 511
    let known := ∀ l ∈ lines, s.store.article l.article ≠ none
    let fresh := ∀ k o, s.store.order k = some o → o.tag ≠ wordAt ws 2
    let fits := total ≤ 32 ∧ ∃ l, l < 16 ∧ (s.store.cfg.lane l).fitted = true ∧ total ≤ (s.store.cfg.lane l).capacity
    (¬ good → s.Refuses .orderOpen e .badField) ∧
    (good → ¬ known → s.Refuses .orderOpen e .unknownArticle) ∧
    (good → known → ¬ fresh → s.Refuses .orderOpen e .duplicate) ∧
    (good → known → fresh → ¬ fits → s.Refuses .orderOpen e .tooLarge) ∧
    (good → known → fresh → fits → (∀ k, k < 64 → s.store.order k ≠ none) → s.Refuses .orderOpen e .noRoom) ∧
    (∀ k, good → known → fresh → fits → k < 64 → s.store.order k = none → (∀ j, j < k → s.store.order j ≠ none) →
      s.Accepts .orderOpen e .accepted [BitVec.ofNat 32 k] fun t =>
        (∃ o, t.order k = some o ∧ o.tag = wordAt ws 2 ∧ o.urgency = urgency ∧
          o.lines.map Line.standing = lines.map Line.standing ∧
          ((o.state = .admitting ∧ o.lane = none ∧ k ∈ t.admission) ∨
            (o.state = .active ∧ o.lane ≠ none ∧ k ∉ t.admission))) ∧
        (∀ o x y, s.store.admission = [] → s.store.waiting = [] → t.order k = some o → o.state = .active →
          lines = [x] → o.lines = [y] →
          let st := s.store
          let free (q : Nat) := (st.slot q).count - (st.slot q).reserved
          let week (q : Nat) := (st.slot q).lotWeek.getD 65536
          let candidate (q : Nat) : Bool := (st.slot q).blockReason.isNone && decide (0 < free q) &&
            !(st.carrier (q / 3)).frozen && !(st.carrier (q / 3)).suspect &&
            [ChannelState.idle, .moving, .held].contains (st.channel (q / 72)).state &&
            (st.slot q).article == some x.article
          let took (q : Nat) := (t.slot q).reserved - (st.slot q).reserved
          let offer (w : Nat) :=
            (((List.range 288).filter fun q => candidate q && (st.slot q).lotWeek == some w).map free).sum
          let covers (w : Nat) := x.quantity ≤ offer w
          (∀ q, q < 288 → candidate q = true → min (free q) x.quantity ≤ 12) →
          let serves (p : Nat → Prop) :=
            (∀ q, q < 288 → took q ≤ free q ∧ (0 < took q → candidate q = true ∧ p q)) ∧
            (∀ q q', q < 288 → q' < 288 → candidate q = true → p q → 0 < took q' →
              week q < week q' ∨ week q = week q' ∧ q < q' → took q = free q) ∧
            (y.reservedFor = x.quantity ∨ (∀ q, q < 288 → candidate q = true → p q → took q = free q) ∨
              256 ≤ t.reservations.length)
          y.reservedFor = ((List.range 288).map took).sum ∧ y.reservedFor ≤ x.quantity ∧
          ((k, 0) ∈ t.waiting ↔ y.reservedFor < x.quantity) ∧
          (x.setFlag = false → serves fun _ => True) ∧
          (x.setFlag = true → (∀ w, ¬ covers w) → y.reservedFor = 0 ∧ y.setWeek = none) ∧
          (∀ w, x.setFlag = true → covers w → (∀ w', w' < w → ¬ covers w') →
            serves (fun q => (st.slot q).lotWeek = some w) ∧
            (st.reservations.length < 256 → y.setWeek = some w))) ∧
        .order k ∈ t.writeBack ∧ t.articles = s.store.articles ∧ t.batches = s.store.batches ∧
        t.carriers.map Carrier.standing = s.store.carriers.map Carrier.standing)

/-- ORDER_CANCEL: an ADMITTING order is freed and FREED is raised; of an ACTIVE order no line waits any more, and no PICK
reservation is left RESERVED or QUEUED. It is CANCELLING while a line has reserved-for-line left when those reservations
are taken off; else, with tyres filled, it is ABANDONED and so is its lane, and ABANDONED is raised, and with none filled
it is free and FREED is raised, its lane FREE or OCCUPIED or given to an order of the admission list. The completion
carries its index and the state it reached. NOT_FOUND where no order in use has the tag; WRONG_STATE in the other states
(R111 to R114). -/
def Obligations.OrderCancelEndsTheOrder : Prop :=
  ∀ (s : State) (e : Nat), s.Reads e Code.orderCancel →
    let tag := wordAt (s.entryWords e) 2
    ((∀ k o, s.store.order k = some o → o.tag ≠ tag) → s.Refuses .orderCancel e .notFound) ∧
    (∀ k o, s.store.order k = some o → o.tag = tag → (∀ j x, j < k → s.store.order j = some x → x.tag ≠ tag) →
      (o.state = .cancelling ∨ o.state = .complete ∨ o.state = .abandoned → s.Refuses .orderCancel e .wrongState) ∧
      (o.state = .admitting → s.Accepts .orderCancel e .accepted [BitVec.ofNat 32 k, 0xFF] fun t =>
        t.order k = none ∧ k ∉ t.admission ∧
        (∃ n ∈ t.notices, n.source = .order k ∧ n.flags &&& Flag.orderFreed = Flag.orderFreed) ∧
        t.batches = s.store.batches ∧ t.carriers.map Carrier.standing = s.store.carriers.map Carrier.standing) ∧
      (o.state = .active → s.store.Bounded →
        ∃ st, s.Accepts .orderCancel e .accepted [BitVec.ofNat 32 k, BitVec.ofNat 32 st] fun t =>
          (match t.order k with
            | none => st = 0xFF
            | some x => st = Code.orderState x.state ∧ (x.state = .cancelling ∨ x.state = .abandoned)) ∧
          (∀ l, (k, l) ∉ t.waiting) ∧
          (∀ r ∈ t.reservations, ∀ l, r.claim = .pick k l → ∃ f, r.state = .presented f) ∧
          let released (l : Nat) : Nat := ((s.store.reservations.filter fun r => r.claim == .pick k l &&
            match r.state with
            | .reserved => true
            | .queued _ => true
            | .presented _ => false).map fun r => r.quantity).sum
          let cleared := ∀ l y, o.lines[l]? = some y → y.reservedFor ≤ released l
          let filled := (o.lines.map fun y => y.filled).sum
          let raised (f : Half) := ∃ n ∈ t.notices, n.source = .order k ∧ n.flags &&& f = f
          (¬ cleared → st = 2) ∧
          (cleared → 0 < filled → st = 4 ∧ raised Flag.orderAbandoned ∧
            ∀ ln, ln < 16 → o.lane = some ln → (t.lane ln).state = .abandoned ∧ .lane ln ∈ t.writeBack) ∧
          (cleared → filled = 0 → st = 0xFF ∧ raised Flag.orderFreed ∧
            ∀ ln, ln < 16 → o.lane = some ln → .lane ln ∈ t.writeBack ∧
              ((((t.lane ln).state = .free ∨ (t.lane ln).state = .occupied) ∧ (t.lane ln).order = none) ∨
                ∃ j ∈ s.store.admission, (t.lane ln).order = some j))))

/-- AUDIT: a carrier that has an entry answers MERGED with its index and no record changes; otherwise the lowest FREE
record becomes an entry at the tail of the list, and the carrier is frozen: the completion carries its index and its
entry state, WAITING where the carrier has a reservation on a slot, READY on a carousel out of service. NOT_FITTED comes
first, and NO_ROOM where no record is FREE (R154, R155). -/
def Obligations.AuditListsACarrier : Prop :=
  ∀ (s : State) (e : Nat), s.Reads e Code.audit →
    let n := byteNat (wordAt (s.entryWords e) 2) 0
    let c := byteNat (wordAt (s.entryWords e) 2) 1
    let r := n * 24 + c
    let fitted := n ≤ 3 ∧ c ≤ 23 ∧ (s.store.cfg.carousel n).fitted = true
    let drained := ∀ x ∈ s.store.reservations, x.slot / 3 ≠ r
    (¬ fitted → s.Refuses .audit e .notFitted) ∧
    (∀ a, fitted → s.store.entryOf r = some a → s.store.Attended →
      s.Accepts .audit e .merged [BitVec.ofNat 32 a] fun t => t = s.store) ∧
    (fitted → s.store.entryOf r = none → (∀ a, a < 16 → s.store.audit a ≠ .free) → s.Refuses .audit e .noRoom) ∧
    (∀ a, fitted → s.store.entryOf r = none → a < 16 → s.store.audit a = .free →
      (∀ a', a' < a → s.store.audit a' ≠ .free) →
      ∃ st, (¬ drained → st = 0) ∧ (drained → st = 1 ∨ st = 2) ∧
        (drained → (s.store.channel n).state = .unhomed ∨ (s.store.channel n).state = .homing ∨
          (s.store.channel n).state = .fenced → st = 1) ∧
        s.Accepts .audit e .accepted [BitVec.ofNat 32 a, BitVec.ofNat 32 st] fun t =>
          (∃ x, t.audit a = .listed x ∧ x.carousel = n ∧ x.carrier = c ∧ x.origin = .request) ∧
          t.auditList = s.store.auditList ++ [a] ∧ (t.carrier r).frozen = true ∧ .carrier r ∈ t.writeBack ∧
          t.notices = s.store.notices)

/-- HOME: with the channel UNHOMED or FENCED and the gate CLOSED, HOME is sent, the deadline is 24 steps and the settle
allowance, and the channel is HOMING. NOT_FITTED, WRONG_STATE and GATE_OPEN, in that order (R48, R197). -/
def Obligations.HomeStartsTheRun : Prop :=
  ∀ (s : State) (e : Nat), s.Reads e Code.home →
    let n := (wordAt (s.entryWords e) 2).toNat
    let c := s.store.channel n
    let fitted := n ≤ 3 ∧ (s.store.cfg.carousel n).fitted = true
    let still := c.state = .unhomed ∨ c.state = .fenced
    (¬ fitted → s.Refuses .home e .notFitted) ∧
    (fitted → ¬ still → s.Refuses .home e .wrongState) ∧
    (fitted → still → c.gate = .opened → s.Refuses .home e .gateOpen) ∧
    (fitted → still → c.gate = .closed → s.store.passDue = false → s.Accepts .home e .accepted [] fun t =>
      t.channel n = { c with
        state := .homing
        deadline := some (24 * (s.store.cfg.carousel n).stepTime + (s.store.cfg.carousel n).settleAllowance)
        sent := [0xA2, 0x00, 0xF8] } ∧
      (∀ m, m ≠ n → t.channel m = s.store.channel m) ∧ .status n ∈ t.writeBack ∧
      t.reservations = s.store.reservations ∧ t.notices = s.store.notices)

/-- LANE_ACCEPT: the expected weight becomes the settled reading, the arrival timer stops, the tolerance stays, and the
lane is in MATCH, or DONE where the report of MATCH completes its order: where the lane was not in MATCH and its order is
ACTIVE with every line FILLED, the order enters COMPLETE with the rest of its record as it was, and COMPLETE is raised;
in every other case it stays as it was (R109, R110, R144). The completion carries the lane and the weight.
WRONG_STATE unless the lane is fitted and ASSIGNED, UNSETTLED without a settled reading (R146). -/
def Obligations.LaneAcceptTakesTheWeight : Prop :=
  ∀ (s : State) (e : Nat), s.Reads e Code.laneAccept →
    let l := (wordAt (s.entryWords e) 2).toNat
    let x := s.store.lane l
    let good := l ≤ 15 ∧ (s.store.cfg.lane l).fitted = true ∧ x.state = .assigned
    (¬ good → s.Refuses .laneAccept e .wrongState) ∧
    (good → x.settled = none → s.Refuses .laneAccept e .unsettled) ∧
    (∀ r, good → x.settled = some r →
      s.Accepts .laneAccept e .accepted [BitVec.ofNat 32 l, BitVec.ofInt 32 r] fun t =>
        (t.lane l).expected = r ∧ (t.lane l).arrival = none ∧ (t.lane l).tolerance = x.tolerance ∧
        (((t.lane l).state = .assigned ∧ (t.lane l).weight = some .matched) ∨
          ((t.lane l).state = .done ∧ (t.lane l).weight = none)) ∧
        (x.weight = some .mismatch → ∃ n ∈ t.notices, n.source = .lane l ∧
          n.flags &&& Flag.laneMatchRestored = Flag.laneMatchRestored) ∧
        .lane l ∈ t.writeBack ∧ t.batches = s.store.batches ∧
        ((∀ k o, x.order = some k → s.store.order k = some o → o.lane = some l) →
          ∀ m, m ≠ l → t.lane m = s.store.lane m) ∧
        ∀ k o, x.order = some k → s.store.order k = some o → o.lane = some l →
          let ends := x.weight ≠ some .matched ∧ o.state = .active ∧ ∀ y ∈ o.lines, y.filled = y.quantity
          (ends → t.order k = some { o with state := .complete } ∧ (t.lane l).state = .done ∧ .order k ∈ t.writeBack ∧
            ∃ n ∈ t.notices, n.source = .order k ∧ n.flags &&& Flag.orderComplete = Flag.orderComplete) ∧
          (¬ ends → (t.lane l).state = .assigned ∧ (t.order k).map Order.standing = some o.standing))

/-- LANE_RELEASE: the tare offset rises by the settled reading, held in −32768..32767, every reading falls by as much, the
order of a DONE or ABANDONED lane is freed, and the lane is FREE, unless the pass that follows gives it to an order of
the admission list; the completion carries the lane, the tare and the freed order. WRONG_STATE, UNSETTLED and
NOT_EMPTY, in that order (R147). -/
def Obligations.LaneReleaseTaresTheLane : Prop :=
  ∀ (s : State) (e : Nat), s.Reads e Code.laneRelease →
    let l := (wordAt (s.entryWords e) 2).toNat
    let x := s.store.lane l
    let good := l ≤ 15 ∧ (s.store.cfg.lane l).fitted = true ∧
      (x.state = .occupied ∨ x.state = .done ∨ x.state = .abandoned)
    let empty (r : Int) := r ≤ (s.store.cfg.emptyThreshold : Int)
    (¬ good → s.Refuses .laneRelease e .wrongState) ∧
    (good → x.settled = none → s.Refuses .laneRelease e .unsettled) ∧
    (∀ r, good → x.settled = some r → ¬ empty r → s.Refuses .laneRelease e .notEmpty) ∧
    (∀ r, good → x.settled = some r → empty r → -32768 ≤ x.tare → x.tare ≤ 32767 →
      let tare := max (-32768) (min 32767 (x.tare + r))
      let freed := if x.state = .occupied then none else x.order
      s.Accepts .laneRelease e .accepted [BitVec.ofNat 32 l, BitVec.ofInt 32 tare, BitVec.ofNat 32 (freed.getD 0xFF)]
        fun t =>
          (t.lane l).tare = tare ∧ (t.lane l).settled = some (r - (tare - x.tare)) ∧
          (t.lane l).samples = x.samples.map (· - (tare - x.tare)) ∧
          ((t.lane l).state = .free ∨ ∃ k ∈ s.store.admission, (t.lane l).order = some k) ∧
          (∀ k, freed = some k → t.order k = none ∧
            ∃ n ∈ t.notices, n.source = .order k ∧ n.flags &&& Flag.orderFreed = Flag.orderFreed) ∧
          .lane l ∈ t.writeBack ∧ t.batches = s.store.batches)

/-- PANEL_RESTART of an OFFLINE or READY panel: the error flags are clear, nothing is outstanding but IDENTIFY with try 1,
no message and no key is held, the line is IDENTIFYING; of a READY panel the sent record is absent and the face is
HALTED, and of an OFFLINE one nothing else changes. NOT_FITTED, then WRONG_STATE in IDENTIFYING (R82). -/
def Obligations.PanelRestartIdentifies : Prop :=
  ∀ (s : State) (e : Nat), s.Reads e Code.panelRestart →
    let p := (wordAt (s.entryWords e) 2).toNat
    let fitted := p ≤ 7 ∧ (s.store.cfg.carousel (p / 2)).fitted = true
    (¬ fitted → s.Refuses .panelRestart e .notFitted) ∧
    (fitted → (s.store.panel p).line = .identifying → s.Refuses .panelRestart e .wrongState) ∧
    (fitted → (s.store.panel p).line ≠ .identifying → s.Accepts .panelRestart e .accepted [] fun t =>
      t.panel p = { s.store.panel p with
        line := .identifying, step := some .awaitAck, outstanding := some .identify, attempt := some 1
        timer := some 50, received := .none, holder := none, inhibit := false
        shown := if (s.store.panel p).line = .ready then none else (s.store.panel p).shown
        overrun := false, parity := false, framing := false, wrongType := false, sentBytes := [0xC1] } ∧
      ((s.store.panel p).line = .ready → (t.face p).state = .halted) ∧ .status (4 + p) ∈ t.writeBack ∧
      ((s.store.panel p).line = .offline → s.store.Attended →
        t = { s.store.putPanel p (t.panel p) with writeBack := t.writeBack }))

/-! ## The floor: carousels -/

/-- Geometry and face choice: face 0 shows the position and face 1 the carrier twelve on; the travel follows the table of
forward distances and ends at the target; the reference position is the target in MOVING. The face of a new entry is the
one that is not HALTED with the shorter travel, face 0 on a tie; the two travels add up to 12 (R28, R32). -/
def Obligations.FaceIsChosenByTravel : Prop :=
  (∀ c f t, c < 24 → f < 2 → t < 24 → (t = targetOf c f ↔ shownAt t f = c)) ∧
  (∀ p t, p < 24 → t < 24 →
    let d := (t + 24 - p) % 24
    (d = 0 → (travel p t).1 = 0) ∧ (1 ≤ d → d ≤ 12 → travel p t = (d, .forward)) ∧
    (13 ≤ d → travel p t = (24 - d, .back)) ∧ (travel p t).1 ≤ 12 ∧
    ((travel p t).2 = .forward → (p + (travel p t).1) % 24 = t) ∧
    ((travel p t).2 = .back → (t + (travel p t).1) % 24 = p)) ∧
  (∀ c : Channel, ∀ p t d, (c.state = .idle ∨ c.state = .held → c.position = some p → referencePosition c = p) ∧
    (c.state = .moving → c.target = some (t, d) → referencePosition c = t)) ∧
  (∀ (s : Store) (n c : Nat), c < 24 → referencePosition (s.channel n) < 24 →
    let steps (f : Nat) := (travel (referencePosition (s.channel n)) ((c + 24 - 12 * f) % 24)).1
    let halted (f : Nat) := (s.face (2 * n + f)).state = .halted
    (halted 0 → halted 1 → s.chooseFace n c = none) ∧ (halted 0 → ¬ halted 1 → s.chooseFace n c = some 1) ∧
    (¬ halted 0 → halted 1 → s.chooseFace n c = some 0) ∧
    (¬ halted 0 → ¬ halted 1 → (steps 0 < steps 1 ∨ steps 0 = steps 1 → s.chooseFace n c = some 0) ∧
      (steps 1 < steps 0 → s.chooseFace n c = some 1) ∧ (steps 0 ≤ 6 → s.chooseFace n c = some 0) ∧
      (7 ≤ steps 0 → s.chooseFace n c = some 1)) ∧
    steps 0 + steps 1 = 12)

/-- ARRIVED in MOVING: at the target the channel is IDLE there, or MOVING on; the entries whose carrier stands at their
face are presented, and no notice is raised. At another position the carousel is fenced WRONG_POSITION (R38, R41). -/
def Obligations.ArrivalServesThePosition : Prop :=
  ∀ (s : State) (n : Fin 4) (x : Byte), s.HearsDrive n → s.store.FacesSound →
    (s.store.channel n).state = .moving → x.toNat ≤ 23 →
    let c := s.store.channel n
    (∀ d, c.target = some (x.toNat, d) → s.Ends (.arrived n x) fun t =>
      (t.store.channel n).position = some x.toNat ∧
      (((t.store.channel n).state = .idle ∧ (t.store.channel n).target = none ∧ (t.store.channel n).deadline = none) ∨
        (t.store.channel n).state = .moving) ∧
      (∀ f, f < 2 → (s.store.face (2 * n.val + f)).state ≠ .halted →
        (∃ e ∈ c.queue, e.face = f ∧ e.carrier = (x.toNat + 12 * f) % 24) →
        (t.store.face (2 * n.val + f)).state = .presenting ∧
        (t.store.face (2 * n.val + f)).carrier = some ((x.toNat + 12 * f) % 24) ∧
        (t.store.channel n).state = .idle) ∧
      (∀ m ∈ t.store.notices, m ∈ s.store.notices) ∧ t.renewed (.status n) ∧
      t.store.standing = (s.store.putChannel n { c with state := .idle, position := some x.toNat }).standing) ∧
    (c.target.map Prod.fst ≠ some x.toNat → s.Ends (.arrived n x) (s.Fences n .wrongPosition none))

/-- STOPPED in MOVING: with the gate OPEN the channel is HELD at the reported position, its target kept and its deadline
stopped, and HELD is raised; with the gate CLOSED it is IDLE there, or MOVING on, and HELD and RESUMED are raised
(R42, R45). -/
def Obligations.StopHoldsTheCarousel : Prop :=
  ∀ (s : State) (n : Fin 4) (x : Byte), s.HearsDrive n → (s.store.channel n).state = .moving → x.toNat ≤ 23 →
    let c := s.store.channel n
    (c.gate = .opened → s.Ends (.stopped n x) fun t =>
      t.store.channel n = { c with state := .held, position := some x.toNat, deadline := none } ∧
      (∀ m, m ≠ n.val → t.store.channel m = s.store.channel m) ∧ t.store.reservations = s.store.reservations ∧
      t.told (.carousel n) Flag.carouselHeld ∧ t.renewed (.status n) ∧
      t.store.standing = (s.store.putChannel n { c with state := .held, position := some x.toNat }).standing) ∧
    (c.gate = .closed → s.Ends (.stopped n x) fun t =>
      (t.store.channel n).position = some x.toNat ∧
      (((t.store.channel n).state = .idle ∧ (t.store.channel n).target = none ∧ (t.store.channel n).deadline = none) ∨
        (t.store.channel n).state = .moving) ∧
      t.told (.carousel n) (Flag.carouselHeld ||| Flag.carouselResumed) ∧ t.renewed (.status n) ∧
      t.store.standing = (s.store.putChannel n { c with state := .idle, position := some x.toNat }).standing)

/-- HOMED in HOMING, with any parameter: the channel is at position 0, IDLE or already MOVING, with no fence cause and no
fault code; its displays are enabled; HOMED is raised (R49). -/
def Obligations.HomedBringsIntoService : Prop :=
  ∀ (s : State) (n : Fin 4) (y : Byte), s.HearsDrive n → (s.store.channel n).state = .homing →
    s.Ends (.homed n y) fun t =>
      (t.store.channel n).position = some 0 ∧ (t.store.channel n).fenceCause = none ∧
      (t.store.channel n).faultCode = none ∧
      ((t.store.channel n).state = .idle ∨ (t.store.channel n).state = .moving) ∧
      (∀ f, f < 2 → (t.store.face (2 * n.val + f)).desired.enabled = true) ∧
      t.told (.carousel n) Flag.carouselHomed ∧ t.renewed (.status n) ∧
      t.store.standing = (s.store.putChannel n { s.store.channel n with
        state := .idle, position := some 0, fenceCause := none, faultCode := none }).standing

/-- Reports by the channel's state: in UNHOMED and FENCED every report is ignored; in every other state a report that the
state does not expect fences the carousel, with the cause of the table; a FAULT that fences leaves its code (R46, R50). -/
def Obligations.UnexpectedReportFences : Prop :=
  ∀ (s : State) (n : Fin 4) (x y z : Byte), s.HearsDrive n → s.store.FacesSound → x.toNat ≤ 23 → 1 ≤ z.toNat →
    z.toNat ≤ 15 →
    let c := s.store.channel n
    let code := some z.toNat
    (c.state = .unhomed ∨ c.state = .fenced →
      s.Ignores (.arrived n x) ∧ s.Ignores (.stopped n x) ∧ s.Ignores (.homed n y) ∧ s.Ignores (.fault n z)) ∧
    (c.state = .homing →
      s.Ends (.arrived n x) (s.Fences n .unsolicited none) ∧ s.Ends (.stopped n x) (s.Fences n .homingStopped none) ∧
      s.Ends (.fault n z) (s.Fences n .driveFault code)) ∧
    (c.state = .idle ∨ c.state = .held →
      s.Ends (.arrived n x) (s.Fences n .unsolicited none) ∧ s.Ends (.stopped n x) (s.Fences n .unsolicited none) ∧
      s.Ends (.homed n y) (s.Fences n .unsolicited none) ∧ s.Ends (.fault n z) (s.Fences n .unsolicited code)) ∧
    (c.state = .moving →
      s.Ends (.homed n y) (s.Fences n .unsolicited none) ∧ s.Ends (.fault n z) (s.Fences n .driveFault code))

/-- DEADLINE: when a running deadline expires, the carousel is fenced with cause DEADLINE; with none running nothing
happens. Drive link bytes that complete no report change the window alone: a failed check byte passes over the oldest
byte, and a message that is discarded leaves the window empty (R43, R197). -/
def Obligations.DeadlineFencesAndNoiseDoesNot : Prop :=
  ∀ (s : State) (n : Fin 4), s.path.condition = .working → s.store.Attended → s.store.Bounded →
    s.store.FacesSound →
    let c := s.store.channel n
    let window (w : List Byte) (t : State) := t.JobsAre (s.store.putChannel n { c with window := w }) ∧ s.AddsNothing t
    (c.deadline ≠ none → s.Ends (.deadline n) (s.Fences n .deadline none)) ∧
    (c.deadline = none → s.Ignores (.deadline n)) ∧
    ((s.store.cfg.carousel n).fitted = true →
      (∀ bs, driveSilent c.window bs = true → s.Ends (.driveMessageDiscarded n bs)
        (window (bs.foldl (fun w b => (driveGather w b).1) c.window))) ∧
      (c.window = [] → ∀ k x b : Byte,
        (b ≠ k ^^^ x ^^^ 0x5A → s.Ends (.driveMessageDiscarded n [k, x, b]) (window [x, b])) ∧
        (b = k ^^^ x ^^^ 0x5A →
          k ≠ 0xB1 ∧ k ≠ 0xB2 ∧ k ≠ 0xB3 ∧ k ≠ 0xB4 ∨ (k = 0xB1 ∨ k = 0xB2) ∧ 23 < x.toNat ∨
            k = 0xB4 ∧ (x = 0 ∨ 15 < x.toNat) →
          s.Ends (.driveMessageDiscarded n [k, x, b]) (window []))))

/-- A change of the gate line: the line has its new level, and the channel of a fitted carousel records it and raises its
flag. Nothing more happens, but that a closing gate takes a HELD channel to IDLE, with RESUMED, and lets an IDLE one
start (R44, R45); before the part works, and where no carousel is fitted, the line alone changes (R193, R194; log 27). -/
def Obligations.GateLineIsTaken : Prop :=
  ∀ (s : State) (n : Fin 4), s.store.Attended →
    let c := s.store.channel n
    let heard := s.path.condition = .working ∧ (s.store.cfg.carousel n).fitted = true
    (look s.gateLines true n.val = true →
      ∃ t, exec (.gateOpens n) s = .next t ∧ s.KeepsLink t ∧ t.gateLines = put s.gateLines n.val false ∧
        (heard → t.JobsAre (s.store.putChannel n { c with gate := .opened }) ∧
          t.told (.carousel n) Flag.carouselGateOpened ∧ (c.gate ≠ .opened → t.renewed (.status n))) ∧
        (¬ heard → t.JobsAre s.store ∧ s.AddsNothing t)) ∧
    (look s.gateLines true n.val = false →
      ∃ t, exec (.gateCloses n) s = .next t ∧ s.KeepsLink t ∧ t.gateLines = put s.gateLines n.val true ∧
        (heard → t.told (.carousel n) Flag.carouselGateClosed ∧ (c.gate ≠ .closed → t.renewed (.status n)) ∧
          (c.state ≠ .held ∧ c.state ≠ .idle → t.JobsAre (s.store.putChannel n { c with gate := .closed })) ∧
          (c.state = .held → t.told (.carousel n) Flag.carouselResumed) ∧
          (c.state = .held ∨ c.state = .idle →
            t.store.standing = (s.store.putChannel n { c with gate := .closed, state := .idle }).standing)) ∧
        (¬ heard → t.JobsAre s.store ∧ s.AddsNothing t))

/-! ## The floor: panels and faces -/

/-- Answers on a panel line. An ACK with nothing outstanding is discarded; that of IDENTIFY leads to AWAIT_IDENT; that of
REPEAT makes the panel READY and its face leave HALTED; that of a display command goes into the sent record, and where
the panel then shows what its face wishes, an event that waits in the holder acts at the face at once; where it does not,
the next command is sent and the event waits on. A NAK, or
the expiry of the answer timer, sends the command again at try 1 and takes the panel OFFLINE at try 2. The IDENT of a
three-bay panel gives the reset display and sends REPEAT; any other type takes the panel OFFLINE with WRONG_TYPE. An
answer that comes while a message is pending abandons the message and is then taken as above; an OFFLINE line takes
none (R79 to R81, R83, R84, R86, R88). -/
def Obligations.AnswersDriveThePanelLine : Prop :=
  ∀ (s : State) (p : Fin 8), s.path.condition = .working → s.store.Attended → s.store.KeysTaken →
    let x := s.store.panel p
    let becomes (y : Panel) (t : State) := t.JobsAre (s.store.putPanel p y)
    (x.received = .none → x.outstanding = none → s.Ignores (.ack p) ∧ s.Ignores (.nak p)) ∧
    (∀ c, x.received = .none → x.line = .identifying → x.outstanding = some c →
      (x.step = some .awaitAck → s.Ends (.ack p) (becomes { x with step := some .awaitIdent, timer := some 50 })) ∧
      (x.step = some .awaitIdent → s.Ignores (.ack p)) ∧
      (x.step = some .awaitRepeatAck → x.holder = none → s.Ends (.ack p) fun t =>
        (t.store.panel p).line = .ready ∧ (t.store.panel p).step = none ∧ t.renewed (.status (4 + p.val)) ∧
        ((s.store.face p).state = .halted →
          (t.store.face p).state ≠ .halted ∧ t.told (.face p) Flag.faceResumed) ∧
        t.store.articles = s.store.articles ∧ t.store.orders = s.store.orders)) ∧
    (∀ c d, x.received = .none → x.line = .ready → x.step = none → x.outstanding = some c → x.shown = some d →
      x.holder = none →
      s.Ends (.ack p) fun t =>
        (t.store.panel p).shown = some (match c with
          | .enable => { d with enabled := true }
          | .halt => { d with enabled := false }
          | .showBay b content => { d with bays := put d.bays b content }
          | .note m => { d with note := m }
          | .identify => d
          | .repeatTiming _ => d) ∧
        ((t.store.panel p).shown = some (s.store.face p).desired → t.store.panel p = { x with
          shown := (t.store.panel p).shown, outstanding := none, attempt := none, timer := none }) ∧
        ((t.store.panel p).shown ≠ some (s.store.face p).desired →
          (t.store.panel p).outstanding ≠ none ∧ (t.store.panel p).attempt = some 1 ∧
          (t.store.panel p).timer = some 50) ∧
        t.JobsAre (s.store.putPanel p (t.store.panel p))) ∧
    (∀ c d k make, x.received = .none → x.line = .ready → x.step = none → x.outstanding = some c → x.shown = some d →
      x.holder = some ⟨k, make⟩ →
      let shows := match c with
        | .enable => { d with enabled := true }
        | .halt => { d with enabled := false }
        | .showBay b content => { d with bays := put d.bays b content }
        | .note m => { d with note := m }
        | .identify => d
        | .repeatTiming _ => d
      let answered := { x with shown := some shows, outstanding := none, attempt := none, timer := none }
      let acts : Instr := match k with
        | .plus => if make then .plus p else .plusMinusBreak p
        | .minus => if make then .minus p else .plusMinusBreak p
        | _ => if make then .bayKeyMake p else .bayKeyBreak p
      (shows = (s.store.face p).desired →
        ((s.store.face p).state ≠ .presenting →
          s.Ends (.ack p) (becomes { answered with holder := none, inhibit := false })) ∧
        exec (.ack p) s = exec acts { s with store := s.store.putPanel p answered }) ∧
      (shows ≠ (s.store.face p).desired → s.Ends (.ack p) fun t =>
        (t.store.panel p).outstanding ≠ none ∧ t.store.panel p = { answered with
          outstanding := (t.store.panel p).outstanding, attempt := some 1, timer := some 50
          sentBytes := (t.store.panel p).sentBytes } ∧
        t.JobsAre (s.store.putPanel p (t.store.panel p)))) ∧
    (∀ c, x.outstanding = some c → ∀ i, i = Instr.nak p ∧ x.received = .none ∧ x.line ≠ .offline ∨
        i = .answerTimer p ∧ x.timer ≠ none →
      (x.attempt = some 1 → s.Ends i (becomes { x with
        attempt := some 2, timer := some 50, sentBytes := Code.panelBytes c
        step := if x.step = some .awaitIdent then some .awaitAck else x.step })) ∧
      (x.attempt = some 2 → s.Ends i (s.GoesOffline p x.wrongType))) ∧
    (∀ (type : Byte) (i : Instr), type.toNat ≤ 0xBF → x.line ≠ .offline →
      i = .ident p .whole type ∧ x.received = .none ∨ i = .ident p .closing type ∧ x.received = .ident →
      (x.line = .identifying → x.step = some .awaitIdent → type = 0x31 →
        s.Ends i (becomes { x with
          received := .none, shown := some Display.panelReset, step := some .awaitRepeatAck, attempt := some 1
          timer := some 50, outstanding := some (.repeatTiming s.store.cfg.repeatByte)
          sentBytes := [0xC6, s.store.cfg.repeatByte] })) ∧
      (x.line = .identifying → x.step = some .awaitIdent → type ≠ 0x31 →
        s.Ends i (s.GoesOffline p true)) ∧
      (x.line = .ready ∨ x.step ≠ some .awaitIdent →
        s.Ends i fun t => becomes { x with received := .none } t ∧ s.AddsNothing t)) ∧
    (∀ type : Byte, (x.line ≠ .offline → x.received = .none →
        s.Ends (.ident p .opening type) (becomes { x with received := .ident })) ∧
      ∀ i ∈ [Instr.ack p, .nak p, .ident p .opening type, .ident p .whole type],
        (x.line = .offline → s.Ignores i) ∧
        (x.line ≠ .offline → exec i s = exec i { s with store := s.store.putPanel p { x with received := .none } }))

/-- Key messages: on a READY line a key event enters the empty holder with the inhibit line asserted, and acts at once
where the panel shows what the face wishes; with the holder full it is discarded and OVERRUN set; on a line in
IDENTIFYING it is discarded. A break prefix waits for its key code; a byte that neither continues the message nor begins
one abandons it (R80, R83, R84, R87, R88). -/
def Obligations.KeyEventsReachTheHolder : Prop :=
  ∀ (s : State) (p : Fin 8) (k : Key), s.path.condition = .working → s.store.Attended → s.store.KeysTaken →
    let x := s.store.panel p
    let becomes (y : Panel) (t : State) := t.JobsAre (s.store.putPanel p y)
    let holds (make : Bool) : State := { s with
      store := s.store.putPanel p { x with received := .none, holder := some ⟨k, make⟩, inhibit := true } }
    let bay := k = .bay0 ∨ k = .bay1 ∨ k = .bay2
    let event (i : Instr) (make : Bool) := x.line = .ready ∧
      (i = .keyMake p k ∧ make = true ∧ x.received = .none ∨
        i = .keyBreak p .whole k ∧ make = false ∧ x.received = .none ∨
        i = .keyBreak p .closing k ∧ make = false ∧ x.received = .breakPrefix)
    (∀ i make, event i make →
      (x.holder = none → ¬ s.store.takesKeys p →
        s.Ends i (becomes { x with received := .none, holder := some ⟨k, make⟩, inhibit := true })) ∧
      (x.holder = none → s.store.takesKeys p → ∃ t, exec i s = .next t ∧ (t.store.panel p).holder = none ∧
        ((s.store.face p).state ≠ .presenting →
          t.JobsAre (s.store.putPanel p { x with received := .none, holder := none, inhibit := false })) ∧
        ((s.store.face p).state = .presenting →
          (bay → make = true → exec (.bayKeyMake p) (holds make) = .next t) ∧
          (bay → make = false → exec (.bayKeyBreak p) (holds make) = .next t) ∧
          (k = .plus → make = true → exec (.plus p) (holds make) = .next t) ∧
          (k = .minus → make = true → exec (.minus p) (holds make) = .next t) ∧
          (¬ bay → make = false → exec (.plusMinusBreak p) (holds make) = .next t))) ∧
      (x.holder ≠ none → s.Ends i fun t => becomes { x with received := .none, overrun := true } t ∧
        (x.overrun = false → t.renewed (.status (4 + p.val))))) ∧
    (x.received = .none → x.line = .identifying → s.Ignores (.keyMake p k) ∧ s.Ignores (.keyBreak p .whole k)) ∧
    (x.received = .none → x.line ≠ .offline →
      s.Ends (.keyBreak p .opening k) (becomes { x with received := .breakPrefix })) ∧
    (∀ b : Byte, b ∉ ([0xE0, 0xE1, 0xE2, 0xF0, 1, 2, 3, 4, 5] : List Byte) → x.line ≠ .offline →
      x.received = .breakPrefix ∨ x.received = .ident ∧ 0xBF < b.toNat →
      s.Ends (.messageAbandoned p b) (becomes { x with received := .none }))

/-- A byte with a parity or a framing failure sets PARITY, FRAMING or both; a flag set stays set; the byte is not read
and the pending message is kept; a flag that was clear lists the face record. Nothing else changes (R85). -/
def Obligations.BadByteSetsItsFlags : Prop :=
  ∀ (s : State) (p : Fin 8) (parity framing : Bool), s.path.condition = .working →
    (s.store.panel p).line ≠ .offline →
    let x := s.store.panel p
    s.Ends (.parityFramingFailure p parity framing) fun t =>
      t.JobsAre (s.store.putPanel p { x with parity := x.parity || parity, framing := x.framing || framing }) ∧
      (∀ m ∈ t.store.notices, m ∈ s.store.notices) ∧
      ((parity = true ∧ x.parity = false) ∨ (framing = true ∧ x.framing = false) → t.renewed (.status (4 + p.val))) ∧
      ((parity = true → x.parity = true) → (framing = true → x.framing = true) → s.AddsNothing t)

/-- At the face: the event in the holder is taken under the three conditions, and the holder is emptied. In an IDLE or
HALTED face nothing more happens, nor at a break of PLUS or MINUS. A bay make puts its bay last among the held bays and
selects it. PLUS and MINUS change the displayed quantity of the selected bay's head item by one within its range, and
the display with it. DISPLAY_AGREEMENT sends one command for the first difference in the order enabled, bays, note
(R60, R61, R86, R88). -/
def Obligations.KeysActAtTheFace : Prop :=
  ∀ (s : State) (p : Fin 8), s.path.condition = .working → s.store.passDue = false →
    (∀ q, q < 8 → q ≠ p.val → (s.store.panel q).line = .ready → (s.store.panel q).outstanding = none →
      (s.store.panel q).shown = none ∨ (s.store.panel q).shown = some (s.store.face q).desired) →
    let x := s.store.panel p
    let f := s.store.face p
    let taken := s.store.putPanel p { x with holder := none, inhibit := false }
    (∀ k make, s.store.takesKeys p → x.holder = some ⟨k, make⟩ →
      (∀ b i, (k, b) ∈ [(Key.bay0, 0), (.bay1, 1), (.bay2, 2)] → make = true → i = Instr.bayKeyMake p →
        (f.state ≠ .presenting → s.Ends i fun t => t.JobsAre taken ∧ s.AddsNothing t) ∧
        (f.state = .presenting → s.Ends i fun t =>
          t.JobsAre (taken.putFace p { f with held := f.held.filter (· != b) ++ [b], selected := some b }))) ∧
      (k = .plus ∨ k = .minus → make = false →
        s.Ends (.plusMinusBreak p) fun t => t.JobsAre taken ∧ s.AddsNothing t) ∧
      (∀ i up, make = true → k = .plus ∧ i = Instr.plus p ∧ up = true ∨ k = .minus ∧ i = .minus p ∧ up = false →
        (f.state ≠ .presenting ∨ f.selected = none ∨ (∃ b, f.selected = some b ∧ look f.bays [] b = []) →
          s.Ends i fun t => t.JobsAre taken ∧ s.AddsNothing t) ∧
        (∀ b it rest, f.state = .presenting → f.selected = some b → b < 3 → look f.bays [] b = it :: rest →
          let top := match it.ref with
            | .count _ => 99
            | _ => it.expected.getD 0
          let j := if up then it.displayed + 1 else it.displayed - 1
          ((if up then top ≤ it.displayed else it.displayed = 0) →
            s.Ends i fun t => t.JobsAre taken ∧ s.AddsNothing t) ∧
          ((if up then it.displayed < top else 0 < it.displayed) → s.Ends i fun t =>
            (t.store.face p).bays = put f.bays b ({ it with displayed := j } :: rest) ∧
            (t.store.face p).held = f.held ∧ (t.store.face p).selected = f.selected ∧
            (look (t.store.face p).desired.bays BayDisplay.off b).quantity = j ∧
            t.renewed (.status (4 + p.val)) ∧
            t.JobsAre ((s.store.putPanel p (t.store.panel p)).putFace p (t.store.face p)))))) ∧
    (∀ d, x.line = .ready → x.outstanding = none → x.shown = some d →
      let sends (c : PanelCommand) (t : State) := t.JobsAre (s.store.putPanel p { x with
        outstanding := some c, attempt := some 1, timer := some 50, sentBytes := Code.panelBytes c })
      let bay (r : Display) (b : Nat) := look r.bays BayDisplay.off b
      let same (b : Nat) := bay d b = bay f.desired b
      (d.enabled ≠ f.desired.enabled →
        s.Ends (.displayAgreement p) (sends (if f.desired.enabled then .enable else .halt))) ∧
      (∀ b, b < 3 → d.enabled = f.desired.enabled → (∀ b', b' < b → same b') → ¬ same b →
        s.Ends (.displayAgreement p) (sends (.showBay b (bay f.desired b)))) ∧
      (d.enabled = f.desired.enabled → (∀ b, b < 3 → same b) → d.note ≠ f.desired.note →
        s.Ends (.displayAgreement p) (sends (.note f.desired.note))) ∧
      (d = f.desired → s.Ignores (.displayAgreement p)))

/-- BAY_KEY_BREAK at a PRESENTING face: a break of a bay that is not held is ignored; otherwise the bay leaves the held
bays, the selection passes to the last held, and the head item is confirmed with its displayed quantity k. A PICK
lowers the slot's count by k and fills the line by k, and the lane expects k tyres' weight more; where that fills the
last line and the settled reading agrees with the new weight, the order is COMPLETE and its lane DONE (R109, R110); a
PUT raises the count by k and places k of its batch; a COUNT appends k to the bay's counts. SHORT and UNPLACED tell of
a k below the quantity (R19, R20, R62 to R65, R108, R127, R142). A count that meets the book count makes the bay
VERIFIED; one that meets an earlier count ADJUSTED to it, but DISPUTED where it is above the bay depth and FOREIGN
where the slot has no article; a third that meets none DISPUTED; otherwise the bay is counted again, from 0 (R160,
R161). The count that decides the last bay closes the presentation and commits the audit: the counts and block reasons
of the three slots follow the results, SUSPECT, AUDIT_WANTED and the freezing end, and the record leaves the list
COMMITTED (R21, R66, R162, R163). -/
def Obligations.BayBreakConfirmsTheHead : Prop :=
  ∀ (s : State) (p : Fin 8) (key : Key) (b : Nat), s.path.condition = .working → s.store.Attended →
    s.store.Bounded → s.store.takesKeys p → (s.store.panel p).holder = some ⟨key, false⟩ →
    (s.store.face p).state = .presenting → (key, b) ∈ [(Key.bay0, 0), (.bay1, 1), (.bay2, 2)] →
    let f := s.store.face p
    let taken := s.store.putPanel p { s.store.panel p with holder := none, inhibit := false }
    let held := f.held.filter (· != b)
    let selected := if f.selected = some b then held.getLast? else f.selected
    (b ∉ f.held → s.Ends (.bayKeyBreak p) fun t => t.JobsAre taken ∧ s.AddsNothing t) ∧
    (b ∈ f.held → look f.bays [] b = [] → s.Ends (.bayKeyBreak p) fun t =>
      t.JobsAre (taken.putFace p { f with held := held, selected := selected })) ∧
    (∀ it rest, b ∈ f.held → look f.bays [] b = it :: rest →
      let k := it.displayed
      (∀ num r o l, it.ref = .pick num → s.store.reservation num = some r → r.claim = .pick o l → k ≤ r.quantity →
        r.slot < 288 → f.kind = some .work →
        s.Ends (.bayKeyBreak p) fun t =>
          (t.store.slot r.slot).count = (s.store.slot r.slot).count - k ∧
          (∀ q, q ≠ r.slot → (t.store.slot q).count = (s.store.slot q).count) ∧
          (k < r.quantity → t.told (.order o) Flag.orderShort) ∧
          (∀ x y, o < 64 → s.store.order o = some x → x.state = .active → x.lines[l]? = some y →
            ∃ x' y', t.store.order o = some x' ∧ x'.lines[l]? = some y' ∧ y'.filled = y.filled + k ∧
              x'.tag = x.tag ∧ x'.lines.length = x.lines.length) ∧
          (∀ x ln a z, 0 < k → o < 64 → s.store.order o = some x → x.lane = some ln → x.state = .active → ln < 16 →
            (s.store.lane ln).state = .assigned → (s.store.slot r.slot).article = some a → s.store.article a = some z →
            let expected := min 32767 ((s.store.lane ln).expected + k * z.weight)
            let tolerance := (s.store.lane ln).tolerance + k * z.tolerance
            (t.store.lane ln).expected = expected ∧ (t.store.lane ln).tolerance = tolerance ∧
            ∀ y, x.lines[l]? = some y → (s.store.lane ln).order = some o →
              let weighs := ∃ w, (s.store.lane ln).settled = some w ∧ (w - expected).natAbs ≤ tolerance
              let ends := weighs ∧ y.filled + k = y.quantity ∧
                ∀ j y', j ≠ l → x.lines[j]? = some y' → y'.filled = y'.quantity
              (ends → (∃ x', t.store.order o = some x' ∧ x'.state = .complete) ∧ (t.store.lane ln).state = .done ∧
                t.told (.order o) Flag.orderComplete) ∧
              (¬ ends → (∃ x', t.store.order o = some x' ∧ x'.state = .active) ∧
                (t.store.lane ln).state = .assigned)) ∧
          t.store.articles = s.store.articles ∧ t.store.batches = s.store.batches) ∧
      (∀ num r m, it.ref = .put num → s.store.reservation num = some r → r.claim = .put m → k ≤ r.quantity →
        r.slot < 288 → f.kind = some .work →
        s.Ends (.bayKeyBreak p) fun t =>
          (t.store.slot r.slot).count = (s.store.slot r.slot).count + k ∧
          (∀ q, q ≠ r.slot → (t.store.slot q).count = (s.store.slot q).count) ∧
          (k < r.quantity → t.told (.batch m) Flag.batchUnplaced) ∧
          (∀ y, m < 16 → s.store.batch m = .opened y → ∃ y',
            (y.planned ≤ r.quantity → t.store.batch m = .done y' ∧ t.told (.batch m) Flag.batchDone) ∧
            (r.quantity < y.planned → t.store.batch m = .opened y') ∧
            y' = { y with
              planned := y.planned - r.quantity, placed := y.placed + k, unplaced := y.unplaced + (r.quantity - k) }) ∧
          t.store.articles = s.store.articles ∧ t.store.lanes.map (fun l => l.expected) =
            s.store.lanes.map (fun l => l.expected)) ∧
      (∀ a e book, it.ref = .count a → a < 16 → s.store.audit a = .listed e →
        let r := 24 * e.carousel + e.carrier
        let old := look e.bays BayCount.blank b
        let result : Option BayResult :=
          if k = book then some .verified
          else if k ∈ old.counts then
            some (if (s.store.cfg.carousel (r / 24)).bayDepth < k then .disputed
              else if (s.store.slot (3 * r + b)).article = none ∧ 0 < k then .foreign else .adjusted k)
          else if old.counts.length = 2 then some .disputed else none
        let e' := { e with bays := put e.bays b ⟨some book, old.counts ++ [k], result⟩ }
        let others := ∃ b', b' < 3 ∧ b' ≠ b ∧ look f.bays [] b' ≠ []
        old.book = some book → old.counts.length ≤ 2 →
        (result = none ∨ rest ≠ [] ∨ others → s.Ends (.bayKeyBreak p) fun t =>
          t.store.audit a = .listed e' ∧
          (t.store.face p).bays = put f.bays b (if result = none then [⟨.count a, none, 0⟩] else rest) ∧
          (t.store.face p).state = .presenting ∧ t.store.carriers = s.store.carriers ∧
          t.store.auditList = s.store.auditList ∧ t.renewed (.status (4 + p.val))) ∧
        (∀ x, result = some x → rest = [] → ¬ others → f.kind = some .count → f.carrier = some e.carrier →
          e.carrier < 24 → e.carousel = p.val / 2 → s.store.entryOf r = some a →
          (∀ b', b' < 3 → b' ≠ b → (look e.bays BayCount.blank b').result ≠ none) →
          let given (b' : Nat) := (look e'.bays BayCount.blank b').result
          let reason (b' : Nat) := (s.store.slot (3 * r + b')).blockReason
          let idle := (s.store.channel e.carousel).queue = [] ∧ (s.store.channel e.carousel).pendingCount = none ∧
            s.store.waiting = [] ∧ (∀ r', r' < 96 → r' ≠ r → (s.store.carrier r').auditWanted = false) ∧
            ∀ a' y, a' ≠ a → s.store.audit a' = .listed y → y.carousel ≠ e.carousel ∨ y.state = .waiting
          s.Ends (.bayKeyBreak p) fun t =>
            t.store.audit a = .committed e' ∧ a ∉ t.store.auditList ∧
            (t.store.carrier r).suspect = false ∧ (t.store.carrier r).auditWanted = false ∧
            (t.store.carrier r).frozen = false ∧
            (∀ b', b' < 3 →
              (t.store.slot (3 * r + b')).count =
                (match given b' with
                  | some (.adjusted v) => v
                  | _ => (s.store.slot (3 * r + b')).count) ∧
              (given b' = some .disputed → (t.store.slot (3 * r + b')).blockReason = some .disputed) ∧
              (given b' = some .foreign → (t.store.slot (3 * r + b')).blockReason = some .foreign) ∧
              (given b' = some .verified ∨ (∃ v, given b' = some (.adjusted v)) →
                (t.store.slot (3 * r + b')).blockReason =
                  if reason b' = some .disputed ∨ reason b' = some .foreign then none else reason b') ∧
              ((t.store.slot (3 * r + b')).count + (s.store.slot (3 * r + b')).incoming = 0 →
                (t.store.slot (3 * r + b')).article = none)) ∧
            (∀ q, q / 3 ≠ r → (t.store.slot q).count = (s.store.slot q).count) ∧
            t.told (.audit a) Flag.auditCommitted ∧ t.renewed (.carrier r) ∧ t.renewed (.status (4 + p.val)) ∧
            (idle → (t.store.face p).state = .idle ∧ (t.store.face p).carrier = none ∧
              (t.store.face p).kind = none ∧ (t.store.face p).bays = #v[[], [], []] ∧
              (t.store.carrier r).faceOpen = false))))

/-! ## The floor: lanes -/

/-- SCAN_TIMER: an invalid sample empties the list, makes the settled reading absent and the scale FAULT. A valid one
joins the three newest readings; three readings within the settle band settle to the middle one; the settled reading
acts by the lane state. A reading that brings an ASSIGNED lane to MATCH completes its order where that is ACTIVE with
every line FILLED (R109, R110). The scan timer starts afresh (R134 to R141). -/
def Obligations.SampleSettlesTheLane : Prop :=
  ∀ (s : State) (l : Fin 16) (raw : Half), s.path.condition = .working → s.store.Attended →
    (s.store.cfg.lane l).fitted = true → (s.store.lane l).scan ≠ none → (s.store.lane l).samples.length ≤ 3 →
    let x := s.store.lane l
    let limit : Int := s.store.cfg.emptyThreshold
    let reading := max (-32768) (min 32767 (raw.toInt - x.tare))
    let samples := if x.samples.length = 3 then x.samples.drop 1 ++ [reading] else x.samples ++ [reading]
    s.Ends (.scanTimer l raw false) (fun t =>
      t.JobsAre (s.store.putLane l { x with
        samples := [], settled := none, scale := .fault, scan := some s.store.cfg.scanInterval }) ∧
      (x.scale = .good → t.told (.lane l) Flag.laneScaleFault ∧ t.renewed (.lane l))) ∧
    s.Ends (.scanTimer l raw true) fun t =>
      let y := t.store.lane l
      y.samples = samples ∧ y.tare = x.tare ∧ y.scale = .good ∧ y.scan = some s.store.cfg.scanInterval ∧
      (x.scale = .fault → t.told (.lane l) Flag.laneScaleRestored ∧ t.renewed (.lane l)) ∧
      (samples.length < 3 → y.settled = none) ∧
      (∀ a b c, samples = [a, b, c] →
        let largest := max a (max b c)
        let smallest := min a (min b c)
        (largest - smallest ≤ s.store.cfg.settleBand → y.settled = some (a + b + c - largest - smallest)) ∧
        (s.store.cfg.settleBand < largest - smallest → y.settled = none)) ∧
      (y.settled ≠ x.settled → t.renewed (.lane l)) ∧
      (y.settled = none → y.state = x.state ∧ y.weight = x.weight ∧ y.arrival = x.arrival ∧ y.order = x.order) ∧
      (∀ r, y.settled = some r →
        let agrees := (r - x.expected).natAbs ≤ x.tolerance
        (x.state = .unsettled ∨ x.state = .free → limit < r →
          y.state = .occupied ∧ t.told (.lane l) Flag.laneOccupied) ∧
        (x.state = .unsettled → r ≤ limit → t.told (.lane l) Flag.laneFree ∧
          (y.state = .free ∨ ∃ k ∈ s.store.admission, y.order = some k)) ∧
        (x.state = .assigned → x.weight = some .matched → ¬ agrees →
          y.state = .assigned ∧ y.weight = some .arriving ∧ y.arrival = some s.store.cfg.arrivalWindow) ∧
        (x.state = .assigned → x.weight = some .arriving ∨ x.weight = some .mismatch → agrees → y.arrival = none ∧
          (y.state = .assigned ∧ y.weight = some .matched ∨ y.state = .done ∧ y.weight = none) ∧
          (x.weight = some .mismatch → t.told (.lane l) Flag.laneMatchRestored) ∧
          ∀ k o, x.order = some k → s.store.order k = some o → o.lane = some l.val →
            let ends := o.state = .active ∧ ∀ z ∈ o.lines, z.filled = z.quantity
            (ends → t.store.order k = some { o with state := .complete } ∧ y.state = .done ∧
              t.told (.order k) Flag.orderComplete) ∧
            (¬ ends → y.state = .assigned ∧ (t.store.order k).map Order.standing = some o.standing)) ∧
        (x.state = .occupied ∨ x.state = .done ∨ x.state = .abandoned ∨ (x.state = .free ∧ r ≤ limit) ∨
            (x.state = .assigned ∧ (if agrees then x.weight = some .matched else x.weight ≠ some .matched)) →
          y.state = x.state ∧ y.weight = x.weight ∧ y.arrival = x.arrival ∧ y.order = x.order)) ∧
      t.store.articles = s.store.articles ∧ t.store.batches = s.store.batches ∧
      t.store.carriers.map Carrier.standing = s.store.carriers.map Carrier.standing

/-- ARRIVAL_TIMER: the weight state of an ASSIGNED lane becomes MISMATCH with the timer stopped, MISMATCH is raised and
the record listed; nothing else changes, and no expiry has an effect where no timer runs or the lane has left ASSIGNED
(R143). -/
def Obligations.ArrivalTimerGivesMismatch : Prop :=
  ∀ (s : State) (l : Fin 16), s.path.condition = .working →
    let x := s.store.lane l
    (x.state = .assigned → x.arrival ≠ none → s.Ends (.arrivalTimer l) fun t =>
      t.JobsAre (s.store.putLane l { x with weight := some .mismatch, arrival := none }) ∧
      t.told (.lane l) Flag.laneMismatch ∧ t.renewed (.lane l)) ∧
    (x.state ≠ .assigned ∨ x.arrival = none → s.Ignores (.arrivalTimer l))
end

