-- ==== Sys2Proof/Laws/State.lean ====
section
/-! SUPPORT. For each update of the store, what it leaves of each field, and what a table reads after a write; so that
no proof unfolds a record update. -/

namespace Sys2Proof.Machine

open Sys2Proof

/-! ## Tables -/

theorem look_put_same {α : Type} {n : Nat} (t : Vector α n) (d : α) (i : Nat) (x : α) (h : i < n) :
    look (put t i x) d i = x := by simp [look, put, h]

theorem look_put_other {α : Type} {n : Nat} (t : Vector α n) (d : α) (i j : Nat) (x : α) (h : i ≠ j) :
    look (put t i x) d j = look t d j := by simp [look, put, Vector.getElem?_setIfInBounds_ne h]

theorem put_outside {α : Type} {n : Nat} (t : Vector α n) (i : Nat) (x : α) (h : n ≤ i) :
    put t i x = t := by
  simp only [put]
  ext j hj
  rw [Vector.getElem_setIfInBounds hj]
  have : i ≠ j := by omega
  simp [this]

/-- What a table reads after a write, in one line. -/
theorem look_put {α : Type} {n : Nat} (t : Vector α n) (d : α) (i j : Nat) (x : α) :
    look (put t i x) d j = if i = j ∧ i < n then x else look t d j := by
  by_cases h : i = j
  · subst h
    by_cases hn : i < n
    · simp [look_put_same, hn]
    · rw [put_outside t i x (by omega)]; simp [hn]
  · simp [look_put_other, h]

namespace Store

/-! ## Fields after an update -/

@[simp] theorem raise_cfg (s : Store) (src : Source) (f : Half) : (s.raise src f).cfg = s.cfg := rfl
@[simp] theorem raise_carriers (s : Store) (src : Source) (f : Half) : (s.raise src f).carriers = s.carriers := rfl
@[simp] theorem raise_articles (s : Store) (src : Source) (f : Half) : (s.raise src f).articles = s.articles := rfl
@[simp] theorem raise_reservations (s : Store) (src : Source) (f : Half) : (s.raise src f).reservations = s.reservations := rfl
@[simp] theorem raise_channels (s : Store) (src : Source) (f : Half) : (s.raise src f).channels = s.channels := rfl
@[simp] theorem raise_faces (s : Store) (src : Source) (f : Half) : (s.raise src f).faces = s.faces := rfl
@[simp] theorem raise_panels (s : Store) (src : Source) (f : Half) : (s.raise src f).panels = s.panels := rfl
@[simp] theorem raise_orders (s : Store) (src : Source) (f : Half) : (s.raise src f).orders = s.orders := rfl
@[simp] theorem raise_admission (s : Store) (src : Source) (f : Half) : (s.raise src f).admission = s.admission := rfl
@[simp] theorem raise_waiting (s : Store) (src : Source) (f : Half) : (s.raise src f).waiting = s.waiting := rfl
@[simp] theorem raise_admissionCounter (s : Store) (src : Source) (f : Half) : (s.raise src f).admissionCounter = s.admissionCounter := rfl
@[simp] theorem raise_admitted (s : Store) (src : Source) (f : Half) : (s.raise src f).admitted = s.admitted := rfl
@[simp] theorem raise_batches (s : Store) (src : Source) (f : Half) : (s.raise src f).batches = s.batches := rfl
@[simp] theorem raise_lanes (s : Store) (src : Source) (f : Half) : (s.raise src f).lanes = s.lanes := rfl
@[simp] theorem raise_audits (s : Store) (src : Source) (f : Half) : (s.raise src f).audits = s.audits := rfl
@[simp] theorem raise_auditList (s : Store) (src : Source) (f : Half) : (s.raise src f).auditList = s.auditList := rfl
@[simp] theorem raise_writeBack (s : Store) (src : Source) (f : Half) : (s.raise src f).writeBack = s.writeBack := rfl
@[simp] theorem raise_passDue (s : Store) (src : Source) (f : Half) : (s.raise src f).passDue = s.passDue := rfl

@[simp] theorem setCarrier_cfg (s : Store) (r : Nat) (c : Carrier) : (s.setCarrier r c).cfg = s.cfg := rfl
@[simp] theorem setCarrier_articles (s : Store) (r : Nat) (c : Carrier) : (s.setCarrier r c).articles = s.articles := rfl
@[simp] theorem setCarrier_reservations (s : Store) (r : Nat) (c : Carrier) : (s.setCarrier r c).reservations = s.reservations := rfl
@[simp] theorem setCarrier_channels (s : Store) (r : Nat) (c : Carrier) : (s.setCarrier r c).channels = s.channels := rfl
@[simp] theorem setCarrier_faces (s : Store) (r : Nat) (c : Carrier) : (s.setCarrier r c).faces = s.faces := rfl
@[simp] theorem setCarrier_panels (s : Store) (r : Nat) (c : Carrier) : (s.setCarrier r c).panels = s.panels := rfl
@[simp] theorem setCarrier_orders (s : Store) (r : Nat) (c : Carrier) : (s.setCarrier r c).orders = s.orders := rfl
@[simp] theorem setCarrier_admission (s : Store) (r : Nat) (c : Carrier) : (s.setCarrier r c).admission = s.admission := rfl
@[simp] theorem setCarrier_waiting (s : Store) (r : Nat) (c : Carrier) : (s.setCarrier r c).waiting = s.waiting := rfl
@[simp] theorem setCarrier_admissionCounter (s : Store) (r : Nat) (c : Carrier) : (s.setCarrier r c).admissionCounter = s.admissionCounter := rfl
@[simp] theorem setCarrier_admitted (s : Store) (r : Nat) (c : Carrier) : (s.setCarrier r c).admitted = s.admitted := rfl
@[simp] theorem setCarrier_batches (s : Store) (r : Nat) (c : Carrier) : (s.setCarrier r c).batches = s.batches := rfl
@[simp] theorem setCarrier_lanes (s : Store) (r : Nat) (c : Carrier) : (s.setCarrier r c).lanes = s.lanes := rfl
@[simp] theorem setCarrier_audits (s : Store) (r : Nat) (c : Carrier) : (s.setCarrier r c).audits = s.audits := rfl
@[simp] theorem setCarrier_auditList (s : Store) (r : Nat) (c : Carrier) : (s.setCarrier r c).auditList = s.auditList := rfl
@[simp] theorem setCarrier_notices (s : Store) (r : Nat) (c : Carrier) : (s.setCarrier r c).notices = s.notices := rfl
@[simp] theorem setCarrier_writeBack (s : Store) (r : Nat) (c : Carrier) : (s.setCarrier r c).writeBack = s.writeBack := rfl
@[simp] theorem setCarrier_passDue (s : Store) (r : Nat) (c : Carrier) : (s.setCarrier r c).passDue = s.passDue := rfl

@[simp] theorem putChannel_cfg (s : Store) (n : Nat) (c : Channel) : (s.putChannel n c).cfg = s.cfg := rfl
@[simp] theorem putChannel_carriers (s : Store) (n : Nat) (c : Channel) : (s.putChannel n c).carriers = s.carriers := rfl
@[simp] theorem putChannel_articles (s : Store) (n : Nat) (c : Channel) : (s.putChannel n c).articles = s.articles := rfl
@[simp] theorem putChannel_reservations (s : Store) (n : Nat) (c : Channel) : (s.putChannel n c).reservations = s.reservations := rfl
@[simp] theorem putChannel_faces (s : Store) (n : Nat) (c : Channel) : (s.putChannel n c).faces = s.faces := rfl
@[simp] theorem putChannel_panels (s : Store) (n : Nat) (c : Channel) : (s.putChannel n c).panels = s.panels := rfl
@[simp] theorem putChannel_orders (s : Store) (n : Nat) (c : Channel) : (s.putChannel n c).orders = s.orders := rfl
@[simp] theorem putChannel_admission (s : Store) (n : Nat) (c : Channel) : (s.putChannel n c).admission = s.admission := rfl
@[simp] theorem putChannel_waiting (s : Store) (n : Nat) (c : Channel) : (s.putChannel n c).waiting = s.waiting := rfl
@[simp] theorem putChannel_admissionCounter (s : Store) (n : Nat) (c : Channel) : (s.putChannel n c).admissionCounter = s.admissionCounter := rfl
@[simp] theorem putChannel_admitted (s : Store) (n : Nat) (c : Channel) : (s.putChannel n c).admitted = s.admitted := rfl
@[simp] theorem putChannel_batches (s : Store) (n : Nat) (c : Channel) : (s.putChannel n c).batches = s.batches := rfl
@[simp] theorem putChannel_lanes (s : Store) (n : Nat) (c : Channel) : (s.putChannel n c).lanes = s.lanes := rfl
@[simp] theorem putChannel_audits (s : Store) (n : Nat) (c : Channel) : (s.putChannel n c).audits = s.audits := rfl
@[simp] theorem putChannel_auditList (s : Store) (n : Nat) (c : Channel) : (s.putChannel n c).auditList = s.auditList := rfl
@[simp] theorem putChannel_notices (s : Store) (n : Nat) (c : Channel) : (s.putChannel n c).notices = s.notices := rfl
@[simp] theorem putChannel_writeBack (s : Store) (n : Nat) (c : Channel) : (s.putChannel n c).writeBack = s.writeBack := rfl
@[simp] theorem putChannel_passDue (s : Store) (n : Nat) (c : Channel) : (s.putChannel n c).passDue = s.passDue := rfl

@[simp] theorem putFace_cfg (s : Store) (i : Nat) (f : Face) : (s.putFace i f).cfg = s.cfg := rfl
@[simp] theorem putFace_carriers (s : Store) (i : Nat) (f : Face) : (s.putFace i f).carriers = s.carriers := rfl
@[simp] theorem putFace_articles (s : Store) (i : Nat) (f : Face) : (s.putFace i f).articles = s.articles := rfl
@[simp] theorem putFace_reservations (s : Store) (i : Nat) (f : Face) : (s.putFace i f).reservations = s.reservations := rfl
@[simp] theorem putFace_channels (s : Store) (i : Nat) (f : Face) : (s.putFace i f).channels = s.channels := rfl
@[simp] theorem putFace_panels (s : Store) (i : Nat) (f : Face) : (s.putFace i f).panels = s.panels := rfl
@[simp] theorem putFace_orders (s : Store) (i : Nat) (f : Face) : (s.putFace i f).orders = s.orders := rfl
@[simp] theorem putFace_admission (s : Store) (i : Nat) (f : Face) : (s.putFace i f).admission = s.admission := rfl
@[simp] theorem putFace_waiting (s : Store) (i : Nat) (f : Face) : (s.putFace i f).waiting = s.waiting := rfl
@[simp] theorem putFace_admissionCounter (s : Store) (i : Nat) (f : Face) : (s.putFace i f).admissionCounter = s.admissionCounter := rfl
@[simp] theorem putFace_admitted (s : Store) (i : Nat) (f : Face) : (s.putFace i f).admitted = s.admitted := rfl
@[simp] theorem putFace_batches (s : Store) (i : Nat) (f : Face) : (s.putFace i f).batches = s.batches := rfl
@[simp] theorem putFace_lanes (s : Store) (i : Nat) (f : Face) : (s.putFace i f).lanes = s.lanes := rfl
@[simp] theorem putFace_audits (s : Store) (i : Nat) (f : Face) : (s.putFace i f).audits = s.audits := rfl
@[simp] theorem putFace_auditList (s : Store) (i : Nat) (f : Face) : (s.putFace i f).auditList = s.auditList := rfl
@[simp] theorem putFace_notices (s : Store) (i : Nat) (f : Face) : (s.putFace i f).notices = s.notices := rfl
@[simp] theorem putFace_writeBack (s : Store) (i : Nat) (f : Face) : (s.putFace i f).writeBack = s.writeBack := rfl
@[simp] theorem putFace_passDue (s : Store) (i : Nat) (f : Face) : (s.putFace i f).passDue = s.passDue := rfl

@[simp] theorem putPanel_cfg (s : Store) (p : Nat) (x : Panel) : (s.putPanel p x).cfg = s.cfg := rfl
@[simp] theorem putPanel_carriers (s : Store) (p : Nat) (x : Panel) : (s.putPanel p x).carriers = s.carriers := rfl
@[simp] theorem putPanel_articles (s : Store) (p : Nat) (x : Panel) : (s.putPanel p x).articles = s.articles := rfl
@[simp] theorem putPanel_reservations (s : Store) (p : Nat) (x : Panel) : (s.putPanel p x).reservations = s.reservations := rfl
@[simp] theorem putPanel_channels (s : Store) (p : Nat) (x : Panel) : (s.putPanel p x).channels = s.channels := rfl
@[simp] theorem putPanel_faces (s : Store) (p : Nat) (x : Panel) : (s.putPanel p x).faces = s.faces := rfl
@[simp] theorem putPanel_orders (s : Store) (p : Nat) (x : Panel) : (s.putPanel p x).orders = s.orders := rfl
@[simp] theorem putPanel_admission (s : Store) (p : Nat) (x : Panel) : (s.putPanel p x).admission = s.admission := rfl
@[simp] theorem putPanel_waiting (s : Store) (p : Nat) (x : Panel) : (s.putPanel p x).waiting = s.waiting := rfl
@[simp] theorem putPanel_admissionCounter (s : Store) (p : Nat) (x : Panel) : (s.putPanel p x).admissionCounter = s.admissionCounter := rfl
@[simp] theorem putPanel_admitted (s : Store) (p : Nat) (x : Panel) : (s.putPanel p x).admitted = s.admitted := rfl
@[simp] theorem putPanel_batches (s : Store) (p : Nat) (x : Panel) : (s.putPanel p x).batches = s.batches := rfl
@[simp] theorem putPanel_lanes (s : Store) (p : Nat) (x : Panel) : (s.putPanel p x).lanes = s.lanes := rfl
@[simp] theorem putPanel_audits (s : Store) (p : Nat) (x : Panel) : (s.putPanel p x).audits = s.audits := rfl
@[simp] theorem putPanel_auditList (s : Store) (p : Nat) (x : Panel) : (s.putPanel p x).auditList = s.auditList := rfl
@[simp] theorem putPanel_notices (s : Store) (p : Nat) (x : Panel) : (s.putPanel p x).notices = s.notices := rfl
@[simp] theorem putPanel_writeBack (s : Store) (p : Nat) (x : Panel) : (s.putPanel p x).writeBack = s.writeBack := rfl
@[simp] theorem putPanel_passDue (s : Store) (p : Nat) (x : Panel) : (s.putPanel p x).passDue = s.passDue := rfl

@[simp] theorem putOrder_cfg (s : Store) (k : Nat) (o : Option Order) : (s.putOrder k o).cfg = s.cfg := rfl
@[simp] theorem putOrder_carriers (s : Store) (k : Nat) (o : Option Order) : (s.putOrder k o).carriers = s.carriers := rfl
@[simp] theorem putOrder_articles (s : Store) (k : Nat) (o : Option Order) : (s.putOrder k o).articles = s.articles := rfl
@[simp] theorem putOrder_reservations (s : Store) (k : Nat) (o : Option Order) : (s.putOrder k o).reservations = s.reservations := rfl
@[simp] theorem putOrder_channels (s : Store) (k : Nat) (o : Option Order) : (s.putOrder k o).channels = s.channels := rfl
@[simp] theorem putOrder_faces (s : Store) (k : Nat) (o : Option Order) : (s.putOrder k o).faces = s.faces := rfl
@[simp] theorem putOrder_panels (s : Store) (k : Nat) (o : Option Order) : (s.putOrder k o).panels = s.panels := rfl
@[simp] theorem putOrder_admission (s : Store) (k : Nat) (o : Option Order) : (s.putOrder k o).admission = s.admission := rfl
@[simp] theorem putOrder_waiting (s : Store) (k : Nat) (o : Option Order) : (s.putOrder k o).waiting = s.waiting := rfl
@[simp] theorem putOrder_admissionCounter (s : Store) (k : Nat) (o : Option Order) : (s.putOrder k o).admissionCounter = s.admissionCounter := rfl
@[simp] theorem putOrder_admitted (s : Store) (k : Nat) (o : Option Order) : (s.putOrder k o).admitted = s.admitted := rfl
@[simp] theorem putOrder_batches (s : Store) (k : Nat) (o : Option Order) : (s.putOrder k o).batches = s.batches := rfl
@[simp] theorem putOrder_lanes (s : Store) (k : Nat) (o : Option Order) : (s.putOrder k o).lanes = s.lanes := rfl
@[simp] theorem putOrder_audits (s : Store) (k : Nat) (o : Option Order) : (s.putOrder k o).audits = s.audits := rfl
@[simp] theorem putOrder_auditList (s : Store) (k : Nat) (o : Option Order) : (s.putOrder k o).auditList = s.auditList := rfl
@[simp] theorem putOrder_notices (s : Store) (k : Nat) (o : Option Order) : (s.putOrder k o).notices = s.notices := rfl
@[simp] theorem putOrder_writeBack (s : Store) (k : Nat) (o : Option Order) : (s.putOrder k o).writeBack = s.writeBack := rfl
@[simp] theorem putOrder_passDue (s : Store) (k : Nat) (o : Option Order) : (s.putOrder k o).passDue = s.passDue := rfl

@[simp] theorem setBatch_cfg (s : Store) (b : Nat) (x : BatchRecord) : (s.setBatch b x).cfg = s.cfg := rfl
@[simp] theorem setBatch_carriers (s : Store) (b : Nat) (x : BatchRecord) : (s.setBatch b x).carriers = s.carriers := rfl
@[simp] theorem setBatch_articles (s : Store) (b : Nat) (x : BatchRecord) : (s.setBatch b x).articles = s.articles := rfl
@[simp] theorem setBatch_reservations (s : Store) (b : Nat) (x : BatchRecord) : (s.setBatch b x).reservations = s.reservations := rfl
@[simp] theorem setBatch_channels (s : Store) (b : Nat) (x : BatchRecord) : (s.setBatch b x).channels = s.channels := rfl
@[simp] theorem setBatch_faces (s : Store) (b : Nat) (x : BatchRecord) : (s.setBatch b x).faces = s.faces := rfl
@[simp] theorem setBatch_panels (s : Store) (b : Nat) (x : BatchRecord) : (s.setBatch b x).panels = s.panels := rfl
@[simp] theorem setBatch_orders (s : Store) (b : Nat) (x : BatchRecord) : (s.setBatch b x).orders = s.orders := rfl
@[simp] theorem setBatch_admission (s : Store) (b : Nat) (x : BatchRecord) : (s.setBatch b x).admission = s.admission := rfl
@[simp] theorem setBatch_waiting (s : Store) (b : Nat) (x : BatchRecord) : (s.setBatch b x).waiting = s.waiting := rfl
@[simp] theorem setBatch_admissionCounter (s : Store) (b : Nat) (x : BatchRecord) : (s.setBatch b x).admissionCounter = s.admissionCounter := rfl
@[simp] theorem setBatch_admitted (s : Store) (b : Nat) (x : BatchRecord) : (s.setBatch b x).admitted = s.admitted := rfl
@[simp] theorem setBatch_lanes (s : Store) (b : Nat) (x : BatchRecord) : (s.setBatch b x).lanes = s.lanes := rfl
@[simp] theorem setBatch_audits (s : Store) (b : Nat) (x : BatchRecord) : (s.setBatch b x).audits = s.audits := rfl
@[simp] theorem setBatch_auditList (s : Store) (b : Nat) (x : BatchRecord) : (s.setBatch b x).auditList = s.auditList := rfl
@[simp] theorem setBatch_notices (s : Store) (b : Nat) (x : BatchRecord) : (s.setBatch b x).notices = s.notices := rfl
@[simp] theorem setBatch_writeBack (s : Store) (b : Nat) (x : BatchRecord) : (s.setBatch b x).writeBack = s.writeBack := rfl
@[simp] theorem setBatch_passDue (s : Store) (b : Nat) (x : BatchRecord) : (s.setBatch b x).passDue = s.passDue := rfl

@[simp] theorem putLane_cfg (s : Store) (l : Nat) (x : Lane) : (s.putLane l x).cfg = s.cfg := rfl
@[simp] theorem putLane_carriers (s : Store) (l : Nat) (x : Lane) : (s.putLane l x).carriers = s.carriers := rfl
@[simp] theorem putLane_articles (s : Store) (l : Nat) (x : Lane) : (s.putLane l x).articles = s.articles := rfl
@[simp] theorem putLane_reservations (s : Store) (l : Nat) (x : Lane) : (s.putLane l x).reservations = s.reservations := rfl
@[simp] theorem putLane_channels (s : Store) (l : Nat) (x : Lane) : (s.putLane l x).channels = s.channels := rfl
@[simp] theorem putLane_faces (s : Store) (l : Nat) (x : Lane) : (s.putLane l x).faces = s.faces := rfl
@[simp] theorem putLane_panels (s : Store) (l : Nat) (x : Lane) : (s.putLane l x).panels = s.panels := rfl
@[simp] theorem putLane_orders (s : Store) (l : Nat) (x : Lane) : (s.putLane l x).orders = s.orders := rfl
@[simp] theorem putLane_admission (s : Store) (l : Nat) (x : Lane) : (s.putLane l x).admission = s.admission := rfl
@[simp] theorem putLane_waiting (s : Store) (l : Nat) (x : Lane) : (s.putLane l x).waiting = s.waiting := rfl
@[simp] theorem putLane_admissionCounter (s : Store) (l : Nat) (x : Lane) : (s.putLane l x).admissionCounter = s.admissionCounter := rfl
@[simp] theorem putLane_admitted (s : Store) (l : Nat) (x : Lane) : (s.putLane l x).admitted = s.admitted := rfl
@[simp] theorem putLane_batches (s : Store) (l : Nat) (x : Lane) : (s.putLane l x).batches = s.batches := rfl
@[simp] theorem putLane_audits (s : Store) (l : Nat) (x : Lane) : (s.putLane l x).audits = s.audits := rfl
@[simp] theorem putLane_auditList (s : Store) (l : Nat) (x : Lane) : (s.putLane l x).auditList = s.auditList := rfl
@[simp] theorem putLane_notices (s : Store) (l : Nat) (x : Lane) : (s.putLane l x).notices = s.notices := rfl
@[simp] theorem putLane_writeBack (s : Store) (l : Nat) (x : Lane) : (s.putLane l x).writeBack = s.writeBack := rfl
@[simp] theorem putLane_passDue (s : Store) (l : Nat) (x : Lane) : (s.putLane l x).passDue = s.passDue := rfl

@[simp] theorem setAudit_cfg (s : Store) (a : Nat) (x : AuditRecord) : (s.setAudit a x).cfg = s.cfg := rfl
@[simp] theorem setAudit_carriers (s : Store) (a : Nat) (x : AuditRecord) : (s.setAudit a x).carriers = s.carriers := rfl
@[simp] theorem setAudit_articles (s : Store) (a : Nat) (x : AuditRecord) : (s.setAudit a x).articles = s.articles := rfl
@[simp] theorem setAudit_reservations (s : Store) (a : Nat) (x : AuditRecord) : (s.setAudit a x).reservations = s.reservations := rfl
@[simp] theorem setAudit_channels (s : Store) (a : Nat) (x : AuditRecord) : (s.setAudit a x).channels = s.channels := rfl
@[simp] theorem setAudit_faces (s : Store) (a : Nat) (x : AuditRecord) : (s.setAudit a x).faces = s.faces := rfl
@[simp] theorem setAudit_panels (s : Store) (a : Nat) (x : AuditRecord) : (s.setAudit a x).panels = s.panels := rfl
@[simp] theorem setAudit_orders (s : Store) (a : Nat) (x : AuditRecord) : (s.setAudit a x).orders = s.orders := rfl
@[simp] theorem setAudit_admission (s : Store) (a : Nat) (x : AuditRecord) : (s.setAudit a x).admission = s.admission := rfl
@[simp] theorem setAudit_waiting (s : Store) (a : Nat) (x : AuditRecord) : (s.setAudit a x).waiting = s.waiting := rfl
@[simp] theorem setAudit_admissionCounter (s : Store) (a : Nat) (x : AuditRecord) : (s.setAudit a x).admissionCounter = s.admissionCounter := rfl
@[simp] theorem setAudit_admitted (s : Store) (a : Nat) (x : AuditRecord) : (s.setAudit a x).admitted = s.admitted := rfl
@[simp] theorem setAudit_batches (s : Store) (a : Nat) (x : AuditRecord) : (s.setAudit a x).batches = s.batches := rfl
@[simp] theorem setAudit_lanes (s : Store) (a : Nat) (x : AuditRecord) : (s.setAudit a x).lanes = s.lanes := rfl
@[simp] theorem setAudit_auditList (s : Store) (a : Nat) (x : AuditRecord) : (s.setAudit a x).auditList = s.auditList := rfl
@[simp] theorem setAudit_notices (s : Store) (a : Nat) (x : AuditRecord) : (s.setAudit a x).notices = s.notices := rfl
@[simp] theorem setAudit_writeBack (s : Store) (a : Nat) (x : AuditRecord) : (s.setAudit a x).writeBack = s.writeBack := rfl
@[simp] theorem setAudit_passDue (s : Store) (a : Nat) (x : AuditRecord) : (s.setAudit a x).passDue = s.passDue := rfl

@[simp] theorem triggerPass_cfg (s : Store) : (s.triggerPass).cfg = s.cfg := rfl
@[simp] theorem triggerPass_carriers (s : Store) : (s.triggerPass).carriers = s.carriers := rfl
@[simp] theorem triggerPass_articles (s : Store) : (s.triggerPass).articles = s.articles := rfl
@[simp] theorem triggerPass_reservations (s : Store) : (s.triggerPass).reservations = s.reservations := rfl
@[simp] theorem triggerPass_channels (s : Store) : (s.triggerPass).channels = s.channels := rfl
@[simp] theorem triggerPass_faces (s : Store) : (s.triggerPass).faces = s.faces := rfl
@[simp] theorem triggerPass_panels (s : Store) : (s.triggerPass).panels = s.panels := rfl
@[simp] theorem triggerPass_orders (s : Store) : (s.triggerPass).orders = s.orders := rfl
@[simp] theorem triggerPass_admission (s : Store) : (s.triggerPass).admission = s.admission := rfl
@[simp] theorem triggerPass_waiting (s : Store) : (s.triggerPass).waiting = s.waiting := rfl
@[simp] theorem triggerPass_admissionCounter (s : Store) : (s.triggerPass).admissionCounter = s.admissionCounter := rfl
@[simp] theorem triggerPass_admitted (s : Store) : (s.triggerPass).admitted = s.admitted := rfl
@[simp] theorem triggerPass_batches (s : Store) : (s.triggerPass).batches = s.batches := rfl
@[simp] theorem triggerPass_lanes (s : Store) : (s.triggerPass).lanes = s.lanes := rfl
@[simp] theorem triggerPass_audits (s : Store) : (s.triggerPass).audits = s.audits := rfl
@[simp] theorem triggerPass_auditList (s : Store) : (s.triggerPass).auditList = s.auditList := rfl
@[simp] theorem triggerPass_notices (s : Store) : (s.triggerPass).notices = s.notices := rfl
@[simp] theorem triggerPass_writeBack (s : Store) : (s.triggerPass).writeBack = s.writeBack := rfl

@[simp] theorem setReservationState_cfg (s : Store) (n : Nat) (st : ReservationState) : (s.setReservationState n st).cfg = s.cfg := rfl
@[simp] theorem setReservationState_carriers (s : Store) (n : Nat) (st : ReservationState) : (s.setReservationState n st).carriers = s.carriers := rfl
@[simp] theorem setReservationState_articles (s : Store) (n : Nat) (st : ReservationState) : (s.setReservationState n st).articles = s.articles := rfl
@[simp] theorem setReservationState_channels (s : Store) (n : Nat) (st : ReservationState) : (s.setReservationState n st).channels = s.channels := rfl
@[simp] theorem setReservationState_faces (s : Store) (n : Nat) (st : ReservationState) : (s.setReservationState n st).faces = s.faces := rfl
@[simp] theorem setReservationState_panels (s : Store) (n : Nat) (st : ReservationState) : (s.setReservationState n st).panels = s.panels := rfl
@[simp] theorem setReservationState_orders (s : Store) (n : Nat) (st : ReservationState) : (s.setReservationState n st).orders = s.orders := rfl
@[simp] theorem setReservationState_admission (s : Store) (n : Nat) (st : ReservationState) : (s.setReservationState n st).admission = s.admission := rfl
@[simp] theorem setReservationState_waiting (s : Store) (n : Nat) (st : ReservationState) : (s.setReservationState n st).waiting = s.waiting := rfl
@[simp] theorem setReservationState_admissionCounter (s : Store) (n : Nat) (st : ReservationState) : (s.setReservationState n st).admissionCounter = s.admissionCounter := rfl
@[simp] theorem setReservationState_admitted (s : Store) (n : Nat) (st : ReservationState) : (s.setReservationState n st).admitted = s.admitted := rfl
@[simp] theorem setReservationState_batches (s : Store) (n : Nat) (st : ReservationState) : (s.setReservationState n st).batches = s.batches := rfl
@[simp] theorem setReservationState_lanes (s : Store) (n : Nat) (st : ReservationState) : (s.setReservationState n st).lanes = s.lanes := rfl
@[simp] theorem setReservationState_audits (s : Store) (n : Nat) (st : ReservationState) : (s.setReservationState n st).audits = s.audits := rfl
@[simp] theorem setReservationState_auditList (s : Store) (n : Nat) (st : ReservationState) : (s.setReservationState n st).auditList = s.auditList := rfl
@[simp] theorem setReservationState_notices (s : Store) (n : Nat) (st : ReservationState) : (s.setReservationState n st).notices = s.notices := rfl
@[simp] theorem setReservationState_writeBack (s : Store) (n : Nat) (st : ReservationState) : (s.setReservationState n st).writeBack = s.writeBack := rfl
@[simp] theorem setReservationState_passDue (s : Store) (n : Nat) (st : ReservationState) : (s.setReservationState n st).passDue = s.passDue := rfl

@[simp] theorem dropReservation_cfg (s : Store) (n : Nat) : (s.dropReservation n).cfg = s.cfg := rfl
@[simp] theorem dropReservation_carriers (s : Store) (n : Nat) : (s.dropReservation n).carriers = s.carriers := rfl
@[simp] theorem dropReservation_articles (s : Store) (n : Nat) : (s.dropReservation n).articles = s.articles := rfl
@[simp] theorem dropReservation_channels (s : Store) (n : Nat) : (s.dropReservation n).channels = s.channels := rfl
@[simp] theorem dropReservation_faces (s : Store) (n : Nat) : (s.dropReservation n).faces = s.faces := rfl
@[simp] theorem dropReservation_panels (s : Store) (n : Nat) : (s.dropReservation n).panels = s.panels := rfl
@[simp] theorem dropReservation_orders (s : Store) (n : Nat) : (s.dropReservation n).orders = s.orders := rfl
@[simp] theorem dropReservation_admission (s : Store) (n : Nat) : (s.dropReservation n).admission = s.admission := rfl
@[simp] theorem dropReservation_waiting (s : Store) (n : Nat) : (s.dropReservation n).waiting = s.waiting := rfl
@[simp] theorem dropReservation_admissionCounter (s : Store) (n : Nat) : (s.dropReservation n).admissionCounter = s.admissionCounter := rfl
@[simp] theorem dropReservation_admitted (s : Store) (n : Nat) : (s.dropReservation n).admitted = s.admitted := rfl
@[simp] theorem dropReservation_batches (s : Store) (n : Nat) : (s.dropReservation n).batches = s.batches := rfl
@[simp] theorem dropReservation_lanes (s : Store) (n : Nat) : (s.dropReservation n).lanes = s.lanes := rfl
@[simp] theorem dropReservation_audits (s : Store) (n : Nat) : (s.dropReservation n).audits = s.audits := rfl
@[simp] theorem dropReservation_auditList (s : Store) (n : Nat) : (s.dropReservation n).auditList = s.auditList := rfl
@[simp] theorem dropReservation_notices (s : Store) (n : Nat) : (s.dropReservation n).notices = s.notices := rfl
@[simp] theorem dropReservation_writeBack (s : Store) (n : Nat) : (s.dropReservation n).writeBack = s.writeBack := rfl
@[simp] theorem dropReservation_passDue (s : Store) (n : Nat) : (s.dropReservation n).passDue = s.passDue := rfl

@[simp] theorem raiseQuantity_cfg (s : Store) (n k : Nat) : (s.raiseQuantity n k).cfg = s.cfg := rfl
@[simp] theorem raiseQuantity_carriers (s : Store) (n k : Nat) : (s.raiseQuantity n k).carriers = s.carriers := rfl
@[simp] theorem raiseQuantity_articles (s : Store) (n k : Nat) : (s.raiseQuantity n k).articles = s.articles := rfl
@[simp] theorem raiseQuantity_channels (s : Store) (n k : Nat) : (s.raiseQuantity n k).channels = s.channels := rfl
@[simp] theorem raiseQuantity_faces (s : Store) (n k : Nat) : (s.raiseQuantity n k).faces = s.faces := rfl
@[simp] theorem raiseQuantity_panels (s : Store) (n k : Nat) : (s.raiseQuantity n k).panels = s.panels := rfl
@[simp] theorem raiseQuantity_orders (s : Store) (n k : Nat) : (s.raiseQuantity n k).orders = s.orders := rfl
@[simp] theorem raiseQuantity_admission (s : Store) (n k : Nat) : (s.raiseQuantity n k).admission = s.admission := rfl
@[simp] theorem raiseQuantity_waiting (s : Store) (n k : Nat) : (s.raiseQuantity n k).waiting = s.waiting := rfl
@[simp] theorem raiseQuantity_admissionCounter (s : Store) (n k : Nat) : (s.raiseQuantity n k).admissionCounter = s.admissionCounter := rfl
@[simp] theorem raiseQuantity_admitted (s : Store) (n k : Nat) : (s.raiseQuantity n k).admitted = s.admitted := rfl
@[simp] theorem raiseQuantity_batches (s : Store) (n k : Nat) : (s.raiseQuantity n k).batches = s.batches := rfl
@[simp] theorem raiseQuantity_lanes (s : Store) (n k : Nat) : (s.raiseQuantity n k).lanes = s.lanes := rfl
@[simp] theorem raiseQuantity_audits (s : Store) (n k : Nat) : (s.raiseQuantity n k).audits = s.audits := rfl
@[simp] theorem raiseQuantity_auditList (s : Store) (n k : Nat) : (s.raiseQuantity n k).auditList = s.auditList := rfl
@[simp] theorem raiseQuantity_notices (s : Store) (n k : Nat) : (s.raiseQuantity n k).notices = s.notices := rfl
@[simp] theorem raiseQuantity_writeBack (s : Store) (n k : Nat) : (s.raiseQuantity n k).writeBack = s.writeBack := rfl
@[simp] theorem raiseQuantity_passDue (s : Store) (n k : Nat) : (s.raiseQuantity n k).passDue = s.passDue := rfl

@[simp] theorem list_cfg (s : Store) (r : ImageRecord) : (s.list r).cfg = s.cfg := by
  unfold list; split <;> rfl
@[simp] theorem list_carriers (s : Store) (r : ImageRecord) : (s.list r).carriers = s.carriers := by
  unfold list; split <;> rfl
@[simp] theorem list_articles (s : Store) (r : ImageRecord) : (s.list r).articles = s.articles := by
  unfold list; split <;> rfl
@[simp] theorem list_reservations (s : Store) (r : ImageRecord) : (s.list r).reservations = s.reservations := by
  unfold list; split <;> rfl
@[simp] theorem list_channels (s : Store) (r : ImageRecord) : (s.list r).channels = s.channels := by
  unfold list; split <;> rfl
@[simp] theorem list_faces (s : Store) (r : ImageRecord) : (s.list r).faces = s.faces := by
  unfold list; split <;> rfl
@[simp] theorem list_panels (s : Store) (r : ImageRecord) : (s.list r).panels = s.panels := by
  unfold list; split <;> rfl
@[simp] theorem list_orders (s : Store) (r : ImageRecord) : (s.list r).orders = s.orders := by
  unfold list; split <;> rfl
@[simp] theorem list_admission (s : Store) (r : ImageRecord) : (s.list r).admission = s.admission := by
  unfold list; split <;> rfl
@[simp] theorem list_waiting (s : Store) (r : ImageRecord) : (s.list r).waiting = s.waiting := by
  unfold list; split <;> rfl
@[simp] theorem list_admissionCounter (s : Store) (r : ImageRecord) : (s.list r).admissionCounter = s.admissionCounter := by
  unfold list; split <;> rfl
@[simp] theorem list_admitted (s : Store) (r : ImageRecord) : (s.list r).admitted = s.admitted := by
  unfold list; split <;> rfl
@[simp] theorem list_batches (s : Store) (r : ImageRecord) : (s.list r).batches = s.batches := by
  unfold list; split <;> rfl
@[simp] theorem list_lanes (s : Store) (r : ImageRecord) : (s.list r).lanes = s.lanes := by
  unfold list; split <;> rfl
@[simp] theorem list_audits (s : Store) (r : ImageRecord) : (s.list r).audits = s.audits := by
  unfold list; split <;> rfl
@[simp] theorem list_auditList (s : Store) (r : ImageRecord) : (s.list r).auditList = s.auditList := by
  unfold list; split <;> rfl
@[simp] theorem list_notices (s : Store) (r : ImageRecord) : (s.list r).notices = s.notices := by
  unfold list; split <;> rfl
@[simp] theorem list_passDue (s : Store) (r : ImageRecord) : (s.list r).passDue = s.passDue := by
  unfold list; split <;> rfl

@[simp] theorem updCarrier_cfg (s : Store) (r : Nat) (f : Carrier → Carrier) : (s.updCarrier r f).cfg = s.cfg := list_cfg _ _
@[simp] theorem updCarrier_articles (s : Store) (r : Nat) (f : Carrier → Carrier) : (s.updCarrier r f).articles = s.articles := list_articles _ _
@[simp] theorem updCarrier_reservations (s : Store) (r : Nat) (f : Carrier → Carrier) : (s.updCarrier r f).reservations = s.reservations := list_reservations _ _
@[simp] theorem updCarrier_channels (s : Store) (r : Nat) (f : Carrier → Carrier) : (s.updCarrier r f).channels = s.channels := list_channels _ _
@[simp] theorem updCarrier_faces (s : Store) (r : Nat) (f : Carrier → Carrier) : (s.updCarrier r f).faces = s.faces := list_faces _ _
@[simp] theorem updCarrier_panels (s : Store) (r : Nat) (f : Carrier → Carrier) : (s.updCarrier r f).panels = s.panels := list_panels _ _
@[simp] theorem updCarrier_orders (s : Store) (r : Nat) (f : Carrier → Carrier) : (s.updCarrier r f).orders = s.orders := list_orders _ _
@[simp] theorem updCarrier_admission (s : Store) (r : Nat) (f : Carrier → Carrier) : (s.updCarrier r f).admission = s.admission := list_admission _ _
@[simp] theorem updCarrier_waiting (s : Store) (r : Nat) (f : Carrier → Carrier) : (s.updCarrier r f).waiting = s.waiting := list_waiting _ _
@[simp] theorem updCarrier_admissionCounter (s : Store) (r : Nat) (f : Carrier → Carrier) : (s.updCarrier r f).admissionCounter = s.admissionCounter := list_admissionCounter _ _
@[simp] theorem updCarrier_admitted (s : Store) (r : Nat) (f : Carrier → Carrier) : (s.updCarrier r f).admitted = s.admitted := list_admitted _ _
@[simp] theorem updCarrier_batches (s : Store) (r : Nat) (f : Carrier → Carrier) : (s.updCarrier r f).batches = s.batches := list_batches _ _
@[simp] theorem updCarrier_lanes (s : Store) (r : Nat) (f : Carrier → Carrier) : (s.updCarrier r f).lanes = s.lanes := list_lanes _ _
@[simp] theorem updCarrier_audits (s : Store) (r : Nat) (f : Carrier → Carrier) : (s.updCarrier r f).audits = s.audits := list_audits _ _
@[simp] theorem updCarrier_auditList (s : Store) (r : Nat) (f : Carrier → Carrier) : (s.updCarrier r f).auditList = s.auditList := list_auditList _ _
@[simp] theorem updCarrier_notices (s : Store) (r : Nat) (f : Carrier → Carrier) : (s.updCarrier r f).notices = s.notices := list_notices _ _
@[simp] theorem updCarrier_passDue (s : Store) (r : Nat) (f : Carrier → Carrier) : (s.updCarrier r f).passDue = s.passDue := list_passDue _ _

@[simp] theorem setArticle_cfg (s : Store) (a : Nat) (x : Option Article) : (s.setArticle a x).cfg = s.cfg := list_cfg _ _
@[simp] theorem setArticle_carriers (s : Store) (a : Nat) (x : Option Article) : (s.setArticle a x).carriers = s.carriers := list_carriers _ _
@[simp] theorem setArticle_reservations (s : Store) (a : Nat) (x : Option Article) : (s.setArticle a x).reservations = s.reservations := list_reservations _ _
@[simp] theorem setArticle_channels (s : Store) (a : Nat) (x : Option Article) : (s.setArticle a x).channels = s.channels := list_channels _ _
@[simp] theorem setArticle_faces (s : Store) (a : Nat) (x : Option Article) : (s.setArticle a x).faces = s.faces := list_faces _ _
@[simp] theorem setArticle_panels (s : Store) (a : Nat) (x : Option Article) : (s.setArticle a x).panels = s.panels := list_panels _ _
@[simp] theorem setArticle_orders (s : Store) (a : Nat) (x : Option Article) : (s.setArticle a x).orders = s.orders := list_orders _ _
@[simp] theorem setArticle_admission (s : Store) (a : Nat) (x : Option Article) : (s.setArticle a x).admission = s.admission := list_admission _ _
@[simp] theorem setArticle_waiting (s : Store) (a : Nat) (x : Option Article) : (s.setArticle a x).waiting = s.waiting := list_waiting _ _
@[simp] theorem setArticle_admissionCounter (s : Store) (a : Nat) (x : Option Article) : (s.setArticle a x).admissionCounter = s.admissionCounter := list_admissionCounter _ _
@[simp] theorem setArticle_admitted (s : Store) (a : Nat) (x : Option Article) : (s.setArticle a x).admitted = s.admitted := list_admitted _ _
@[simp] theorem setArticle_batches (s : Store) (a : Nat) (x : Option Article) : (s.setArticle a x).batches = s.batches := list_batches _ _
@[simp] theorem setArticle_lanes (s : Store) (a : Nat) (x : Option Article) : (s.setArticle a x).lanes = s.lanes := list_lanes _ _
@[simp] theorem setArticle_audits (s : Store) (a : Nat) (x : Option Article) : (s.setArticle a x).audits = s.audits := list_audits _ _
@[simp] theorem setArticle_auditList (s : Store) (a : Nat) (x : Option Article) : (s.setArticle a x).auditList = s.auditList := list_auditList _ _
@[simp] theorem setArticle_notices (s : Store) (a : Nat) (x : Option Article) : (s.setArticle a x).notices = s.notices := list_notices _ _
@[simp] theorem setArticle_passDue (s : Store) (a : Nat) (x : Option Article) : (s.setArticle a x).passDue = s.passDue := list_passDue _ _

@[simp] theorem setOrder_cfg (s : Store) (k : Nat) (o : Option Order) : (s.setOrder k o).cfg = s.cfg := list_cfg _ _
@[simp] theorem setOrder_carriers (s : Store) (k : Nat) (o : Option Order) : (s.setOrder k o).carriers = s.carriers := list_carriers _ _
@[simp] theorem setOrder_articles (s : Store) (k : Nat) (o : Option Order) : (s.setOrder k o).articles = s.articles := list_articles _ _
@[simp] theorem setOrder_reservations (s : Store) (k : Nat) (o : Option Order) : (s.setOrder k o).reservations = s.reservations := list_reservations _ _
@[simp] theorem setOrder_channels (s : Store) (k : Nat) (o : Option Order) : (s.setOrder k o).channels = s.channels := list_channels _ _
@[simp] theorem setOrder_faces (s : Store) (k : Nat) (o : Option Order) : (s.setOrder k o).faces = s.faces := list_faces _ _
@[simp] theorem setOrder_panels (s : Store) (k : Nat) (o : Option Order) : (s.setOrder k o).panels = s.panels := list_panels _ _
@[simp] theorem setOrder_admission (s : Store) (k : Nat) (o : Option Order) : (s.setOrder k o).admission = s.admission := list_admission _ _
@[simp] theorem setOrder_waiting (s : Store) (k : Nat) (o : Option Order) : (s.setOrder k o).waiting = s.waiting := list_waiting _ _
@[simp] theorem setOrder_admissionCounter (s : Store) (k : Nat) (o : Option Order) : (s.setOrder k o).admissionCounter = s.admissionCounter := list_admissionCounter _ _
@[simp] theorem setOrder_admitted (s : Store) (k : Nat) (o : Option Order) : (s.setOrder k o).admitted = s.admitted := list_admitted _ _
@[simp] theorem setOrder_batches (s : Store) (k : Nat) (o : Option Order) : (s.setOrder k o).batches = s.batches := list_batches _ _
@[simp] theorem setOrder_lanes (s : Store) (k : Nat) (o : Option Order) : (s.setOrder k o).lanes = s.lanes := list_lanes _ _
@[simp] theorem setOrder_audits (s : Store) (k : Nat) (o : Option Order) : (s.setOrder k o).audits = s.audits := list_audits _ _
@[simp] theorem setOrder_auditList (s : Store) (k : Nat) (o : Option Order) : (s.setOrder k o).auditList = s.auditList := list_auditList _ _
@[simp] theorem setOrder_notices (s : Store) (k : Nat) (o : Option Order) : (s.setOrder k o).notices = s.notices := list_notices _ _
@[simp] theorem setOrder_passDue (s : Store) (k : Nat) (o : Option Order) : (s.setOrder k o).passDue = s.passDue := list_passDue _ _

@[simp] theorem setChannel_cfg (s : Store) (n : Nat) (c : Channel) : (s.setChannel n c).cfg = s.cfg := by
  simp only [setChannel]; split <;> simp
@[simp] theorem setChannel_carriers (s : Store) (n : Nat) (c : Channel) : (s.setChannel n c).carriers = s.carriers := by
  simp only [setChannel]; split <;> simp
@[simp] theorem setChannel_articles (s : Store) (n : Nat) (c : Channel) : (s.setChannel n c).articles = s.articles := by
  simp only [setChannel]; split <;> simp
@[simp] theorem setChannel_reservations (s : Store) (n : Nat) (c : Channel) : (s.setChannel n c).reservations = s.reservations := by
  simp only [setChannel]; split <;> simp
@[simp] theorem setChannel_faces (s : Store) (n : Nat) (c : Channel) : (s.setChannel n c).faces = s.faces := by
  simp only [setChannel]; split <;> simp
@[simp] theorem setChannel_panels (s : Store) (n : Nat) (c : Channel) : (s.setChannel n c).panels = s.panels := by
  simp only [setChannel]; split <;> simp
@[simp] theorem setChannel_orders (s : Store) (n : Nat) (c : Channel) : (s.setChannel n c).orders = s.orders := by
  simp only [setChannel]; split <;> simp
@[simp] theorem setChannel_admission (s : Store) (n : Nat) (c : Channel) : (s.setChannel n c).admission = s.admission := by
  simp only [setChannel]; split <;> simp
@[simp] theorem setChannel_waiting (s : Store) (n : Nat) (c : Channel) : (s.setChannel n c).waiting = s.waiting := by
  simp only [setChannel]; split <;> simp
@[simp] theorem setChannel_admissionCounter (s : Store) (n : Nat) (c : Channel) : (s.setChannel n c).admissionCounter = s.admissionCounter := by
  simp only [setChannel]; split <;> simp
@[simp] theorem setChannel_admitted (s : Store) (n : Nat) (c : Channel) : (s.setChannel n c).admitted = s.admitted := by
  simp only [setChannel]; split <;> simp
@[simp] theorem setChannel_batches (s : Store) (n : Nat) (c : Channel) : (s.setChannel n c).batches = s.batches := by
  simp only [setChannel]; split <;> simp
@[simp] theorem setChannel_lanes (s : Store) (n : Nat) (c : Channel) : (s.setChannel n c).lanes = s.lanes := by
  simp only [setChannel]; split <;> simp
@[simp] theorem setChannel_audits (s : Store) (n : Nat) (c : Channel) : (s.setChannel n c).audits = s.audits := by
  simp only [setChannel]; split <;> simp
@[simp] theorem setChannel_auditList (s : Store) (n : Nat) (c : Channel) : (s.setChannel n c).auditList = s.auditList := by
  simp only [setChannel]; split <;> simp
@[simp] theorem setChannel_notices (s : Store) (n : Nat) (c : Channel) : (s.setChannel n c).notices = s.notices := by
  simp only [setChannel]; split <;> simp
@[simp] theorem setChannel_passDue (s : Store) (n : Nat) (c : Channel) : (s.setChannel n c).passDue = s.passDue := by
  simp only [setChannel]; split <;> simp

@[simp] theorem setFace_cfg (s : Store) (i : Nat) (f : Face) : (s.setFace i f).cfg = s.cfg := by
  simp only [setFace]; split <;> simp
@[simp] theorem setFace_carriers (s : Store) (i : Nat) (f : Face) : (s.setFace i f).carriers = s.carriers := by
  simp only [setFace]; split <;> simp
@[simp] theorem setFace_articles (s : Store) (i : Nat) (f : Face) : (s.setFace i f).articles = s.articles := by
  simp only [setFace]; split <;> simp
@[simp] theorem setFace_reservations (s : Store) (i : Nat) (f : Face) : (s.setFace i f).reservations = s.reservations := by
  simp only [setFace]; split <;> simp
@[simp] theorem setFace_channels (s : Store) (i : Nat) (f : Face) : (s.setFace i f).channels = s.channels := by
  simp only [setFace]; split <;> simp
@[simp] theorem setFace_panels (s : Store) (i : Nat) (f : Face) : (s.setFace i f).panels = s.panels := by
  simp only [setFace]; split <;> simp
@[simp] theorem setFace_orders (s : Store) (i : Nat) (f : Face) : (s.setFace i f).orders = s.orders := by
  simp only [setFace]; split <;> simp
@[simp] theorem setFace_admission (s : Store) (i : Nat) (f : Face) : (s.setFace i f).admission = s.admission := by
  simp only [setFace]; split <;> simp
@[simp] theorem setFace_waiting (s : Store) (i : Nat) (f : Face) : (s.setFace i f).waiting = s.waiting := by
  simp only [setFace]; split <;> simp
@[simp] theorem setFace_admissionCounter (s : Store) (i : Nat) (f : Face) : (s.setFace i f).admissionCounter = s.admissionCounter := by
  simp only [setFace]; split <;> simp
@[simp] theorem setFace_admitted (s : Store) (i : Nat) (f : Face) : (s.setFace i f).admitted = s.admitted := by
  simp only [setFace]; split <;> simp
@[simp] theorem setFace_batches (s : Store) (i : Nat) (f : Face) : (s.setFace i f).batches = s.batches := by
  simp only [setFace]; split <;> simp
@[simp] theorem setFace_lanes (s : Store) (i : Nat) (f : Face) : (s.setFace i f).lanes = s.lanes := by
  simp only [setFace]; split <;> simp
@[simp] theorem setFace_audits (s : Store) (i : Nat) (f : Face) : (s.setFace i f).audits = s.audits := by
  simp only [setFace]; split <;> simp
@[simp] theorem setFace_auditList (s : Store) (i : Nat) (f : Face) : (s.setFace i f).auditList = s.auditList := by
  simp only [setFace]; split <;> simp
@[simp] theorem setFace_notices (s : Store) (i : Nat) (f : Face) : (s.setFace i f).notices = s.notices := by
  simp only [setFace]; split <;> simp
@[simp] theorem setFace_passDue (s : Store) (i : Nat) (f : Face) : (s.setFace i f).passDue = s.passDue := by
  simp only [setFace]; split <;> simp

@[simp] theorem setPanel_cfg (s : Store) (p : Nat) (x : Panel) : (s.setPanel p x).cfg = s.cfg := by
  simp only [setPanel]; split <;> simp
@[simp] theorem setPanel_carriers (s : Store) (p : Nat) (x : Panel) : (s.setPanel p x).carriers = s.carriers := by
  simp only [setPanel]; split <;> simp
@[simp] theorem setPanel_articles (s : Store) (p : Nat) (x : Panel) : (s.setPanel p x).articles = s.articles := by
  simp only [setPanel]; split <;> simp
@[simp] theorem setPanel_reservations (s : Store) (p : Nat) (x : Panel) : (s.setPanel p x).reservations = s.reservations := by
  simp only [setPanel]; split <;> simp
@[simp] theorem setPanel_channels (s : Store) (p : Nat) (x : Panel) : (s.setPanel p x).channels = s.channels := by
  simp only [setPanel]; split <;> simp
@[simp] theorem setPanel_faces (s : Store) (p : Nat) (x : Panel) : (s.setPanel p x).faces = s.faces := by
  simp only [setPanel]; split <;> simp
@[simp] theorem setPanel_orders (s : Store) (p : Nat) (x : Panel) : (s.setPanel p x).orders = s.orders := by
  simp only [setPanel]; split <;> simp
@[simp] theorem setPanel_admission (s : Store) (p : Nat) (x : Panel) : (s.setPanel p x).admission = s.admission := by
  simp only [setPanel]; split <;> simp
@[simp] theorem setPanel_waiting (s : Store) (p : Nat) (x : Panel) : (s.setPanel p x).waiting = s.waiting := by
  simp only [setPanel]; split <;> simp
@[simp] theorem setPanel_admissionCounter (s : Store) (p : Nat) (x : Panel) : (s.setPanel p x).admissionCounter = s.admissionCounter := by
  simp only [setPanel]; split <;> simp
@[simp] theorem setPanel_admitted (s : Store) (p : Nat) (x : Panel) : (s.setPanel p x).admitted = s.admitted := by
  simp only [setPanel]; split <;> simp
@[simp] theorem setPanel_batches (s : Store) (p : Nat) (x : Panel) : (s.setPanel p x).batches = s.batches := by
  simp only [setPanel]; split <;> simp
@[simp] theorem setPanel_lanes (s : Store) (p : Nat) (x : Panel) : (s.setPanel p x).lanes = s.lanes := by
  simp only [setPanel]; split <;> simp
@[simp] theorem setPanel_audits (s : Store) (p : Nat) (x : Panel) : (s.setPanel p x).audits = s.audits := by
  simp only [setPanel]; split <;> simp
@[simp] theorem setPanel_auditList (s : Store) (p : Nat) (x : Panel) : (s.setPanel p x).auditList = s.auditList := by
  simp only [setPanel]; split <;> simp
@[simp] theorem setPanel_notices (s : Store) (p : Nat) (x : Panel) : (s.setPanel p x).notices = s.notices := by
  simp only [setPanel]; split <;> simp
@[simp] theorem setPanel_passDue (s : Store) (p : Nat) (x : Panel) : (s.setPanel p x).passDue = s.passDue := by
  simp only [setPanel]; split <;> simp

@[simp] theorem setLane_cfg (s : Store) (l : Nat) (x : Lane) : (s.setLane l x).cfg = s.cfg := by
  simp only [setLane]; split <;> simp
@[simp] theorem setLane_carriers (s : Store) (l : Nat) (x : Lane) : (s.setLane l x).carriers = s.carriers := by
  simp only [setLane]; split <;> simp
@[simp] theorem setLane_articles (s : Store) (l : Nat) (x : Lane) : (s.setLane l x).articles = s.articles := by
  simp only [setLane]; split <;> simp
@[simp] theorem setLane_reservations (s : Store) (l : Nat) (x : Lane) : (s.setLane l x).reservations = s.reservations := by
  simp only [setLane]; split <;> simp
@[simp] theorem setLane_channels (s : Store) (l : Nat) (x : Lane) : (s.setLane l x).channels = s.channels := by
  simp only [setLane]; split <;> simp
@[simp] theorem setLane_faces (s : Store) (l : Nat) (x : Lane) : (s.setLane l x).faces = s.faces := by
  simp only [setLane]; split <;> simp
@[simp] theorem setLane_panels (s : Store) (l : Nat) (x : Lane) : (s.setLane l x).panels = s.panels := by
  simp only [setLane]; split <;> simp
@[simp] theorem setLane_orders (s : Store) (l : Nat) (x : Lane) : (s.setLane l x).orders = s.orders := by
  simp only [setLane]; split <;> simp
@[simp] theorem setLane_admission (s : Store) (l : Nat) (x : Lane) : (s.setLane l x).admission = s.admission := by
  simp only [setLane]; split <;> simp
@[simp] theorem setLane_waiting (s : Store) (l : Nat) (x : Lane) : (s.setLane l x).waiting = s.waiting := by
  simp only [setLane]; split <;> simp
@[simp] theorem setLane_admissionCounter (s : Store) (l : Nat) (x : Lane) : (s.setLane l x).admissionCounter = s.admissionCounter := by
  simp only [setLane]; split <;> simp
@[simp] theorem setLane_admitted (s : Store) (l : Nat) (x : Lane) : (s.setLane l x).admitted = s.admitted := by
  simp only [setLane]; split <;> simp
@[simp] theorem setLane_batches (s : Store) (l : Nat) (x : Lane) : (s.setLane l x).batches = s.batches := by
  simp only [setLane]; split <;> simp
@[simp] theorem setLane_audits (s : Store) (l : Nat) (x : Lane) : (s.setLane l x).audits = s.audits := by
  simp only [setLane]; split <;> simp
@[simp] theorem setLane_auditList (s : Store) (l : Nat) (x : Lane) : (s.setLane l x).auditList = s.auditList := by
  simp only [setLane]; split <;> simp
@[simp] theorem setLane_notices (s : Store) (l : Nat) (x : Lane) : (s.setLane l x).notices = s.notices := by
  simp only [setLane]; split <;> simp
@[simp] theorem setLane_passDue (s : Store) (l : Nat) (x : Lane) : (s.setLane l x).passDue = s.passDue := by
  simp only [setLane]; split <;> simp

/-! ## The changed field -/

@[simp] theorem setChannel_channels (s : Store) (n : Nat) (c : Channel) : (s.setChannel n c).channels = put s.channels n c := by
  simp only [setChannel]; split <;> simp [putChannel]
@[simp] theorem setFace_faces (s : Store) (i : Nat) (f : Face) : (s.setFace i f).faces = put s.faces i f := by
  simp only [setFace]; split <;> simp [putFace]
@[simp] theorem setPanel_panels (s : Store) (p : Nat) (x : Panel) : (s.setPanel p x).panels = put s.panels p x := by
  simp only [setPanel]; split <;> simp [putPanel]
@[simp] theorem setLane_lanes (s : Store) (l : Nat) (x : Lane) : (s.setLane l x).lanes = put s.lanes l x := by
  simp only [setLane]; split <;> simp [putLane]
@[simp] theorem putChannel_channels (s : Store) (n : Nat) (c : Channel) : (s.putChannel n c).channels = put s.channels n c := rfl
@[simp] theorem putFace_faces (s : Store) (i : Nat) (f : Face) : (s.putFace i f).faces = put s.faces i f := rfl
@[simp] theorem putPanel_panels (s : Store) (p : Nat) (x : Panel) : (s.putPanel p x).panels = put s.panels p x := rfl
@[simp] theorem putLane_lanes (s : Store) (l : Nat) (x : Lane) : (s.putLane l x).lanes = put s.lanes l x := rfl
@[simp] theorem putOrder_orders (s : Store) (k : Nat) (o : Option Order) : (s.putOrder k o).orders = put s.orders k o := rfl
@[simp] theorem setBatch_batches (s : Store) (b : Nat) (x : BatchRecord) : (s.setBatch b x).batches = put s.batches b x := rfl
@[simp] theorem setAudit_audits (s : Store) (a : Nat) (x : AuditRecord) : (s.setAudit a x).audits = put s.audits a x := rfl
@[simp] theorem setCarrier_carriers (s : Store) (r : Nat) (c : Carrier) : (s.setCarrier r c).carriers = put s.carriers r c := rfl
@[simp] theorem triggerPass_passDue (s : Store) : (s.triggerPass).passDue = true := rfl
@[simp] theorem raise_notices (s : Store) (src : Source) (f : Half) : (s.raise src f).notices = raiseIn s.notices src f := rfl
@[simp] theorem updCarrier_carriers (s : Store) (r : Nat) (f : Carrier → Carrier) :
    (s.updCarrier r f).carriers = put s.carriers r (f (s.carrier r)) := by simp [updCarrier]
@[simp] theorem setOrder_orders (s : Store) (k : Nat) (o : Option Order) :
    (s.setOrder k o).orders = put s.orders k o := by simp [setOrder]
@[simp] theorem setArticle_articles (s : Store) (a : Nat) (x : Option Article) :
    (s.setArticle a x).articles = put s.articles a x := by simp [setArticle]

/-! ## The record looked up after its update -/

theorem putChannel_channel_self (s : Store) {n : Nat} (h : n < 4) (c : Channel) : (s.putChannel n c).channel n = c := by
  simp [channel, look_put, h]
theorem putChannel_channel_other (s : Store) {n j : Nat} (h : j ≠ n) (c : Channel) : (s.putChannel n c).channel j = s.channel j := by
  simp [channel, look_put, Ne.symm h]
theorem setChannel_channel_self (s : Store) {n : Nat} (h : n < 4) (c : Channel) : (s.setChannel n c).channel n = c := by
  simp [channel, look_put, h]
theorem setChannel_channel_other (s : Store) {n j : Nat} (h : j ≠ n) (c : Channel) : (s.setChannel n c).channel j = s.channel j := by
  simp [channel, look_put, Ne.symm h]
theorem putFace_face_self (s : Store) {i : Nat} (h : i < 8) (f : Face) : (s.putFace i f).face i = f := by
  simp [face, look_put, h]
theorem putFace_face_other (s : Store) {i j : Nat} (h : j ≠ i) (f : Face) : (s.putFace i f).face j = s.face j := by
  simp [face, look_put, Ne.symm h]
theorem setFace_face_self (s : Store) {i : Nat} (h : i < 8) (f : Face) : (s.setFace i f).face i = f := by
  simp [face, look_put, h]
theorem setFace_face_other (s : Store) {i j : Nat} (h : j ≠ i) (f : Face) : (s.setFace i f).face j = s.face j := by
  simp [face, look_put, Ne.symm h]
theorem putPanel_panel_self (s : Store) {p : Nat} (h : p < 8) (x : Panel) : (s.putPanel p x).panel p = x := by
  simp [panel, look_put, h]
theorem putPanel_panel_other (s : Store) {p j : Nat} (h : j ≠ p) (x : Panel) : (s.putPanel p x).panel j = s.panel j := by
  simp [panel, look_put, Ne.symm h]
theorem setPanel_panel_self (s : Store) {p : Nat} (h : p < 8) (x : Panel) : (s.setPanel p x).panel p = x := by
  simp [panel, look_put, h]
theorem setPanel_panel_other (s : Store) {p j : Nat} (h : j ≠ p) (x : Panel) : (s.setPanel p x).panel j = s.panel j := by
  simp [panel, look_put, Ne.symm h]
theorem putLane_lane_self (s : Store) {l : Nat} (h : l < 16) (x : Lane) : (s.putLane l x).lane l = x := by
  simp [lane, look_put, h]
theorem putLane_lane_other (s : Store) {l j : Nat} (h : j ≠ l) (x : Lane) : (s.putLane l x).lane j = s.lane j := by
  simp [lane, look_put, Ne.symm h]
theorem setLane_lane_self (s : Store) {l : Nat} (h : l < 16) (x : Lane) : (s.setLane l x).lane l = x := by
  simp [lane, look_put, h]
theorem setLane_lane_other (s : Store) {l j : Nat} (h : j ≠ l) (x : Lane) : (s.setLane l x).lane j = s.lane j := by
  simp [lane, look_put, Ne.symm h]
theorem putOrder_order_self (s : Store) {k : Nat} (h : k < 64) (o : Option Order) : (s.putOrder k o).order k = o := by
  simp [order, look_put, h]
theorem putOrder_order_other (s : Store) {k j : Nat} (h : j ≠ k) (o : Option Order) : (s.putOrder k o).order j = s.order j := by
  simp [order, look_put, Ne.symm h]
theorem setOrder_order_self (s : Store) {k : Nat} (h : k < 64) (o : Option Order) : (s.setOrder k o).order k = o := by
  simp [order, look_put, h]
theorem setOrder_order_other (s : Store) {k j : Nat} (h : j ≠ k) (o : Option Order) : (s.setOrder k o).order j = s.order j := by
  simp [order, look_put, Ne.symm h]
theorem setAudit_audit_self (s : Store) {a : Nat} (h : a < 16) (x : AuditRecord) : (s.setAudit a x).audit a = x := by
  simp [audit, look_put, h]
theorem setAudit_audit_other (s : Store) {a j : Nat} (h : j ≠ a) (x : AuditRecord) : (s.setAudit a x).audit j = s.audit j := by
  simp [audit, look_put, Ne.symm h]
theorem setBatch_batch_self (s : Store) {b : Nat} (h : b < 16) (x : BatchRecord) : (s.setBatch b x).batch b = x := by
  simp [batch, look_put, h]
theorem setBatch_batch_other (s : Store) {b j : Nat} (h : j ≠ b) (x : BatchRecord) : (s.setBatch b x).batch j = s.batch j := by
  simp [batch, look_put, Ne.symm h]

end Store

end Sys2Proof.Machine
end

