-- ==== Sys2Proof/Laws/Evolve.lean ====
section
/-! SUPPORT. Every operation of the job blocks is a chain of a few primitive updates (`Prim`), whatever it calls: so what
the primitives keep, every operation keeps. One lemma for each operation says so. -/

namespace Sys2Proof.Machine

open Sys2Proof

/-- The primitive updates of the store. -/
inductive Prim : Store → Store → Prop where
  | channel (s : Store) (n : Nat) (c : Channel)
      (h : (s.channel n).queue.length ≤ Config.queueCapacity → c.queue.length ≤ Config.queueCapacity) :
      Prim s (s.putChannel n c)
  | face (s : Store) (i : Nat) (f : Face) (h : (s.face i).Sound → f.Sound) : Prim s (s.putFace i f)
  | panel (s : Store) (p : Nat) (x : Panel) : Prim s (s.putPanel p x)
  | order (s : Store) (k : Nat) (o : Option Order) : Prim s (s.putOrder k o)
  | lane (s : Store) (l : Nat) (x : Lane) : Prim s (s.putLane l x)
  | carrier (s : Store) (r : Nat) (c : Carrier) : Prim s (s.setCarrier r c)
  | article (s : Store) (a : Nat) (x : Option Article) : Prim s { s with articles := put s.articles a x }
  | batch (s : Store) (b : Nat) (x : BatchRecord) : Prim s (s.setBatch b x)
  | audit (s : Store) (a : Nat) (x : AuditRecord) : Prim s (s.setAudit a x)
  | auditList (s : Store) (l : List Nat) : Prim s { s with auditList := l }
  | admission (s : Store) (l : List Nat) (c : Half) (m : List Nat) :
      Prim s { s with admission := l, admissionCounter := c, admitted := m }
  | waiting (s : Store) (l : List (Nat × Nat)) : Prim s { s with waiting := l }
  | raise (s : Store) (src : Source) (f : Half) : Prim s (s.raise src f)
  | list (s : Store) (r : ImageRecord) : Prim s (s.list r)
  | pass (s : Store) (b : Bool) : Prim s { s with passDue := b }
  | change (s : Store) (g : Reservation → Reservation) (h : ∀ r, (g r).number = r.number)
      (hf : ∀ r f, (g r).state = .presented f → r.state = .presented f ∨ f < 2) :
      Prim s { s with reservations := s.reservations.map g }
  | leave (s : Store) (p : Reservation → Bool) : Prim s { s with reservations := s.reservations.filter p }
  | enter (s : Store) (r : Reservation) (hl : s.reservations.length < Config.reservationCapacity)
      (hn : ∀ x ∈ s.reservations, x.number ≠ r.number) (hf : r.state = .reserved) :
      Prim s { s with reservations := s.reservations ++ [r] }

/-- A chain of primitive updates. -/
inductive Evolves : Store → Store → Prop where
  | refl (s : Store) : Evolves s s
  | step {s t u : Store} : Evolves s t → Prim t u → Evolves s u

namespace Evolves

theorem one {s t : Store} (h : Prim s t) : Evolves s t := .step (.refl s) h

theorem trans {s t u : Store} (h : Evolves s t) (k : Evolves t u) : Evolves s u := by
  induction k with
  | refl => exact h
  | step _ p ih => exact .step ih p

theorem after {s t u : Store} (k : Evolves t u) (h : Evolves s t) : Evolves s u := h.trans k

theorem foldl {α : Type} (g : Store → α → Store) (h : ∀ s x, Evolves s (g s x)) (xs : List α) (s : Store) :
    Evolves s (xs.foldl g s) := by
  induction xs generalizing s with
  | nil => exact .refl s
  | cons x xs ih => exact (h s x).trans (ih _)

/-- The configuration never changes in an operation of the job blocks. -/
theorem cfg {s t : Store} (h : Evolves s t) : t.cfg = s.cfg := by
  induction h with
  | refl => rfl
  | step _ p ih => rw [← ih]; cases p <;> first | rfl | exact Store.list_cfg _ _

end Evolves

/-! ## Updates -/

namespace Store

theorem list_evolves (s : Store) (r : ImageRecord) : Evolves s (s.list r) := .one (.list _ _)

theorem listAll_evolves (s : Store) (rs : List ImageRecord) : Evolves s (s.listAll rs) :=
  Evolves.foldl _ list_evolves rs s

theorem raise_evolves (s : Store) (src : Source) (f : Half) : Evolves s (s.raise src f) := .one (.raise _ _ _)

theorem updCarrier_evolves (s : Store) (r : Nat) (f : Carrier → Carrier) : Evolves s (s.updCarrier r f) :=
  (Evolves.one (.carrier s r _)).trans (list_evolves _ _)

theorem setArticle_evolves (s : Store) (a : Nat) (x : Option Article) : Evolves s (s.setArticle a x) :=
  (Evolves.one (.article s a x)).trans (list_evolves _ _)

theorem putChannel_evolves (s : Store) (n : Nat) (c : Channel)
    (h : (s.channel n).queue.length ≤ Config.queueCapacity → c.queue.length ≤ Config.queueCapacity) :
    Evolves s (s.putChannel n c) := .one (.channel s n c h)

theorem setChannel_evolves (s : Store) (n : Nat) (c : Channel)
    (h : (s.channel n).queue.length ≤ Config.queueCapacity → c.queue.length ≤ Config.queueCapacity) :
    Evolves s (s.setChannel n c) := by
  simp only [setChannel]; split
  · exact putChannel_evolves s n c h
  · exact (putChannel_evolves s n c h).trans (list_evolves _ _)

theorem putFace_evolves (s : Store) (i : Nat) (f : Face) (h : (s.face i).Sound → f.Sound) :
    Evolves s (s.putFace i f) := .one (.face s i f h)

theorem setFace_evolves (s : Store) (i : Nat) (f : Face) (h : (s.face i).Sound → f.Sound) :
    Evolves s (s.setFace i f) := by
  simp only [setFace]; split
  · exact putFace_evolves s i f h
  · exact (putFace_evolves s i f h).trans (list_evolves _ _)

theorem putPanel_evolves (s : Store) (p : Nat) (x : Panel) : Evolves s (s.putPanel p x) := .one (.panel s p x)

theorem setPanel_evolves (s : Store) (p : Nat) (x : Panel) : Evolves s (s.setPanel p x) := by
  simp only [setPanel]; split
  · exact putPanel_evolves s p x
  · exact (putPanel_evolves s p x).trans (list_evolves _ _)

theorem putOrder_evolves (s : Store) (k : Nat) (o : Option Order) : Evolves s (s.putOrder k o) := .one (.order s k o)

theorem setOrder_evolves (s : Store) (k : Nat) (o : Option Order) : Evolves s (s.setOrder k o) :=
  (putOrder_evolves s k o).trans (list_evolves _ _)

theorem putLane_evolves (s : Store) (l : Nat) (x : Lane) : Evolves s (s.putLane l x) := .one (.lane s l x)

theorem setLane_evolves (s : Store) (l : Nat) (x : Lane) : Evolves s (s.setLane l x) := by
  simp only [setLane]; split
  · exact putLane_evolves s l x
  · exact (putLane_evolves s l x).trans (list_evolves _ _)

theorem setBatch_evolves (s : Store) (b : Nat) (x : BatchRecord) : Evolves s (s.setBatch b x) := .one (.batch s b x)

theorem setAudit_evolves (s : Store) (a : Nat) (x : AuditRecord) : Evolves s (s.setAudit a x) := .one (.audit s a x)

theorem triggerPass_evolves (s : Store) : Evolves s s.triggerPass := .one (.pass s true)

theorem setReservationState_evolves (s : Store) (n : Nat) (st : ReservationState)
    (h : ∀ f, st = .presented f → f < 2) : Evolves s (s.setReservationState n st) := by
  refine .one (.change s _ ?_ ?_)
  · intro r; split <;> rfl
  · intro r f; split
    · exact fun e => .inr (h f e)
    · exact .inl

/-- No state but PRESENTED names a presenting face. -/
theorem queued_face (g f : Nat) (h : ReservationState.queued g = .presented f) : f < 2 := nomatch h

theorem dropReservation_evolves (s : Store) (n : Nat) : Evolves s (s.dropReservation n) := .one (.leave s _)

theorem raiseQuantity_evolves (s : Store) (n k : Nat) : Evolves s (s.raiseQuantity n k) := by
  refine .one (.change s _ ?_ ?_)
  · intro r; split <;> rfl
  · intro r f; split <;> exact .inl

theorem changeSlot_evolves (s : Store) (q : Nat) (f : Slot → Slot) : Evolves s (s.changeSlot q f) :=
  updCarrier_evolves _ _ _

theorem setReason_evolves (s : Store) (q : Nat) (b : Option BlockReason) : Evolves s (s.setReason q b) :=
  updCarrier_evolves _ _ _

theorem markFaceOpen_evolves (s : Store) (r : Nat) (v : Bool) : Evolves s (s.markFaceOpen r v) :=
  updCarrier_evolves _ _ _

theorem setFrozen_evolves (s : Store) (r : Nat) (v : Bool) : Evolves s (s.setFrozen r v) := updCarrier_evolves _ _ _

theorem markWanted_evolves (s : Store) (r : Nat) : Evolves s (s.markWanted r) := updCarrier_evolves _ _ _

/-! ## Displays and presentations -/

theorem derive_evolves (s : Store) (i : Nat) : Evolves s (s.derive i) :=
  setFace_evolves _ _ _ fun h => ⟨h.presenting, h.blank⟩

theorem deriveBoth_evolves (s : Store) (n : Nat) : Evolves s (s.deriveBoth n) :=
  (derive_evolves _ _).trans (derive_evolves _ _)

theorem changeChannel_evolves (s : Store) (n : Nat) (c : Channel)
    (h : (s.channel n).queue.length ≤ Config.queueCapacity → c.queue.length ≤ Config.queueCapacity) :
    Evolves s (s.changeChannel n c) := by
  simp only [changeChannel]; split
  · exact setChannel_evolves s n c h
  · exact (setChannel_evolves s n c h).trans (deriveBoth_evolves _ _)

theorem presentAll_evolves (s : Store) (nums : List Nat) {f : Nat} (hf : f < 2) : Evolves s (s.presentAll nums f) :=
  Evolves.foldl _ (fun s n => setReservationState_evolves s n _ fun _ e => by cases e; exact hf) nums s

/-- A face that has begun a presentation is as R53 gives it. -/
theorem presenting_sound {c : Nat} (hc : c < 24) (k : PresentationKind) (b : Vector (List Item) 3) (h : List Nat)
    (x l : Option Nat) (d : Display) : Face.Sound ⟨.presenting, some c, some k, b, h, x, l, d⟩ :=
  ⟨fun _ => ⟨⟨c, hc, rfl⟩, nofun⟩, fun e => absurd rfl e⟩

theorem openWork_evolves (s : Store) (n : Nat) {f c : Nat} (hf : f < 2) (hc : c < 24) (nums : List Nat) :
    Evolves s (s.openWork n f c nums) :=
  ((((putFace_evolves _ _ _ fun _ => presenting_sound hc _ _ _ _ _ _).trans (presentAll_evolves _ _ hf)).trans
    (markFaceOpen_evolves _ _ _)).trans (derive_evolves _ _)).trans (list_evolves _ _)

theorem auditPresented_evolves (s : Store) (a f : Nat) : Evolves s (s.auditPresented a f) := by
  unfold auditPresented; split
  · exact setAudit_evolves _ _ _
  · exact .refl _
  · exact .refl _

theorem openCount_evolves (s : Store) (n f a : Nat) {c : Nat} (hc : c < 24) : Evolves s (s.openCount n f c a) :=
  ((((putFace_evolves _ _ _ fun _ => presenting_sound hc _ _ _ _ _ _).trans (markFaceOpen_evolves _ _ _)).trans (auditPresented_evolves _ _ _)).trans
    (derive_evolves _ _)).trans (list_evolves _ _)

/-- The bay lists of a PRESENTING face may be anything. -/
theorem bays_sound {f : Face} (hp : f.state = .presenting) (b : Vector (List Item) 3) (h : f.Sound) :
    Face.Sound { f with bays := b } := ⟨h.presenting, fun e => absurd hp e⟩

/-- The held bays and the selection of a face may be anything (R53). -/
theorem held_sound {f : Face} (held : List Nat) (x : Option Nat) (h : f.Sound) :
    Face.Sound { f with held := held, selected := x } := ⟨h.presenting, h.blank⟩

theorem join_evolves (s : Store) (n : Nat) {f : Nat} (r : Reservation) (hf : f < 2)
    (hp : (s.face (faceIndex n f)).state = .presenting) : Evolves s (s.join n f r) := by
  have h (b) : Evolves s ((s.putFace (faceIndex n f) { s.face (faceIndex n f) with bays := b }).setReservationState
      r.number (.presented f)) :=
    .after (setReservationState_evolves _ _ _ fun _ e => by cases e; exact hf) (putFace_evolves _ _ _ (bays_sound hp b))
  simp only [join]
  refine .after (list_evolves _ _) ?_
  split
  · exact .after (derive_evolves _ _) (h _)
  · exact h _

/-! ## Motion -/

theorem enqueue_evolves (s : Store) (n : Nat) (e : QueueEntry) (h : (s.channel n).queue.length < Config.queueCapacity) :
    Evolves s (s.enqueue n e) :=
  setChannel_evolves _ _ _ (fun _ => by simp; omega)

theorem replaceFirst_length (p : QueueEntry → Bool) (g : QueueEntry → QueueEntry) (q : List QueueEntry) :
    (replaceFirst p g q).length = q.length := by
  induction q with
  | nil => rfl
  | cons e es ih => unfold replaceFirst; split <;> simp [ih]

theorem faceShowing_some {s : Store} {n c f : Nat} (h : s.faceShowing n c = some f) :
    f < 2 ∧ (s.face (faceIndex n f)).state = .presenting := by
  have hm := List.mem_of_find?_eq_some h
  have hp := List.find?_some h
  simp only [facePresenting, Bool.and_eq_true, beq_iff_eq] at hp
  exact ⟨List.mem_range.mp hm, hp.1⟩

theorem placeCore_evolves (s : Store) (num : Nat) : Evolves s (s.placeCore num).1 := by
  unfold placeCore
  split
  · exact .refl _
  · split
    · exact .refl _
    · dsimp only
      split
      · rename_i hs
        exact join_evolves _ _ _ (faceShowing_some hs).1 (faceShowing_some hs).2
      · split
        · refine (setChannel_evolves _ _ _ fun h => ?_).trans (setReservationState_evolves _ _ _ (queued_face _))
          simpa [replaceFirst_length] using h
        · split
          · rename_i hq
            split
            · exact (enqueue_evolves _ _ _ hq).trans (setReservationState_evolves _ _ _ (queued_face _))
            · exact .refl _
          · exact .refl _

theorem countCore_evolves (s : Store) (n a c : Nat) : Evolves s (s.countCore n a c).1 := by
  simp only [countCore]
  split
  · rename_i hq
    split
    · exact setChannel_evolves _ _ _ (fun _ => by simp; omega)
    · exact setChannel_evolves _ _ _ id
  · exact setChannel_evolves _ _ _ id

theorem retryCore_evolves (s : Store) (n : Nat) : Evolves s (s.retryCore n) := by
  simp only [retryCore]
  refine .trans ?_ (Evolves.foldl _ placeCore_evolves _ _)
  split
  · exact countCore_evolves _ _ _ _
  · exact .refl _

theorem satisfied_carrier {s : Store} {n p f : Nat} {e : QueueEntry} (h : s.satisfied n p f e = true) :
    e.carrier < 24 := by
  simp only [satisfied, Bool.and_eq_true, beq_iff_eq] at h
  rw [h.1.2]
  exact Nat.mod_lt _ (by decide)

theorem serveFace_evolves (s : Store) (n p : Nat) {f : Nat} (hf : f < 2) : Evolves s (s.serveFace n p f).1 := by
  simp only [serveFace]
  split
  · exact .refl _
  · rename_i hs
    have hc := satisfied_carrier (List.find?_some hs)
    have hr : ∀ h : (s.channel n).queue.length ≤ Config.queueCapacity,
        ((s.channel n).queue.eraseP (s.satisfied n p f)).length ≤ Config.queueCapacity :=
      fun h => Nat.le_trans (List.eraseP_sublist).length_le h
    split
    · exact (setChannel_evolves s n _ hr).trans (openWork_evolves _ _ hf hc _)
    · exact (setChannel_evolves s n _ hr).trans (openCount_evolves _ _ _ _ hc)

theorem serveAt_evolves (s : Store) (n p : Nat) : Evolves s (s.serveAt n p) := by
  simp only [serveAt]
  split
  · exact ((serveFace_evolves _ _ _ (by decide)).trans (serveFace_evolves _ _ _ (by decide))).trans (retryCore_evolves _ _)
  · exact (serveFace_evolves _ _ _ (by decide)).trans (serveFace_evolves _ _ _ (by decide))

theorem sendMove_evolves (s : Store) (n p t : Nat) : Evolves s (s.sendMove n p t) := changeChannel_evolves _ _ _ id

theorem serviceCheck_evolves (s : Store) (n : Nat) : Evolves s (s.serviceCheck n) := by
  unfold serviceCheck
  split
  · split
    · exact .refl _
    · dsimp only; split
      · exact serveAt_evolves _ _ _
      · exact sendMove_evolves _ _ _ _
  · exact .refl _

theorem serviceAfter_evolves {s : Store} {x : Store × Bool} (h : Evolves s x.1) (n : Nat) :
    Evolves s (serviceAfter x n) := by
  unfold serviceAfter; split
  · exact h.trans (serviceCheck_evolves _ _)
  · exact h

theorem place_evolves (s : Store) (num : Nat) : Evolves s (s.place num) := by
  unfold place; split
  · exact .refl _
  · exact serviceAfter_evolves (placeCore_evolves _ _) _

theorem countRequest_evolves (s : Store) (n a c : Nat) : Evolves s (s.countRequest n a c) :=
  serviceAfter_evolves (countCore_evolves _ _ _ _) _

theorem retry_evolves (s : Store) (n : Nat) : Evolves s (s.retry n) := by
  simp only [retry]
  refine .trans ?_ (Evolves.foldl _ place_evolves _ _)
  split
  · exact countRequest_evolves _ _ _ _
  · exact .refl _

theorem detachFrom_length (num : Nat) (q : List QueueEntry) : (detachFrom num q).length ≤ q.length := by
  induction q with
  | nil => simp [detachFrom]
  | cons e es ih => unfold detachFrom; split <;> (try split) <;> (try split) <;> simp <;> omega

theorem detach_evolves (s : Store) (n num : Nat) : Evolves s (s.detach n num).1 :=
  setChannel_evolves _ _ _ fun h => Nat.le_trans (detachFrom_length _ _) h

theorem afterRemoval_evolves (s : Store) (n : Nat) : Evolves s (s.afterRemoval n) :=
  (retry_evolves _ _).trans (serviceCheck_evolves _ _)

theorem moveEntries_evolves (s : Store) (n f g : Nat) : Evolves s (s.moveEntries n f g) := by
  simp only [moveEntries]
  refine (setChannel_evolves s n _ fun h => ?_).trans (Evolves.foldl _ ?_ _ _)
  · simpa using h
  · intro s e; split
    · exact Evolves.foldl _ (fun s n => setReservationState_evolves s n _ (queued_face _)) _ _
    · exact .refl _

theorem tellHalted_evolves (s : Store) (n f : Nat) : Evolves s (s.tellHalted n f) := by
  unfold tellHalted; split
  · exact .refl _
  · exact moveEntries_evolves _ _ _ _

theorem tellWorking_evolves (s : Store) (n f : Nat) : Evolves s (s.tellWorking n f) := by
  simp only [tellWorking]
  refine .trans ?_ ((retry_evolves _ _).trans (serviceCheck_evolves _ _))
  split
  · exact moveEntries_evolves _ _ _ _
  · exact .refl _

/-! ## Audits -/

theorem countingCheck_evolves (s : Store) (n : Nat) : Evolves s (s.countingCheck n) := by
  unfold countingCheck; split
  · split
    · exact .refl _
    · split
      · exact .refl _
      · exact (setAudit_evolves _ _ _).trans (countRequest_evolves _ _ _ _)
  · exact .refl _

theorem askAudit_evolves (s : Store) (r : Nat) (o : AuditOrigin) (tell : Bool) : Evolves s (s.askAudit r o tell).2 := by
  unfold askAudit; split
  · exact .refl _
  · split
    · exact .refl _
    · rename_i a _
      dsimp only
      have h : Evolves s (({ s.setAudit a (.listed (s.newEntry r o)) with
          auditList := s.auditList ++ [a] } : Store).setFrozen r true) :=
        .after (setFrozen_evolves _ _ _) (.after (.one (.auditList (s.setAudit a _) _)) (setAudit_evolves _ _ _))
      split <;> split
      · exact .after (raise_evolves _ _ _) (.after (countingCheck_evolves _ _) h)
      · exact .after (raise_evolves _ _ _) h
      · exact .after (countingCheck_evolves _ _) h
      · exact h

theorem stockAudit_evolves (s : Store) (r : Nat) (o : AuditOrigin) : Evolves s (s.stockAudit r o) := by
  have h := askAudit_evolves s r o true
  unfold stockAudit
  split <;> rename_i heq <;> rw [heq] at h
  · exact h.trans (markWanted_evolves _ _)
  · exact h
  · exact h

theorem promote_evolves (s : Store) (tell : Bool) : Evolves s (s.promote tell) := by
  refine Evolves.foldl _ ?_ _ _
  intro s r; simp only [promoteOne]; split
  · exact askAudit_evolves _ _ _ _
  · exact .refl _

theorem reportDrained_evolves (s : Store) (r : Nat) : Evolves s (s.reportDrained r) := by
  unfold reportDrained; split
  · exact .refl _
  · split
    · exact .refl _
    · split
      · exact (setAudit_evolves _ _ _).trans (countingCheck_evolves _ _)
      · exact .refl _

theorem drainedCheck_evolves (s : Store) (r : Nat) : Evolves s (s.drainedCheck r) := by
  unfold drainedCheck; split
  · exact reportDrained_evolves _ _
  · exact .refl _

theorem countConfirm_evolves (s : Store) (a b k : Nat) : Evolves s (s.countConfirm a b k).1 := by
  unfold countConfirm; split
  · exact .refl _
  · exact setAudit_evolves _ _ _

theorem commitAudit_evolves (s : Store) (a : Nat) : Evolves s (s.commitAudit a) := by
  unfold commitAudit; split
  · exact .refl _
  · dsimp only
    refine .after (triggerPass_evolves _) (.after (countingCheck_evolves _ _) (.after (promote_evolves _ _)
      (.after (raise_evolves _ _ _) (.after (setFrozen_evolves _ _ _) ?_))))
    exact .after (.one (.auditList (Store.setAudit _ _ _) _)) (.after (setAudit_evolves _ _ _) (updCarrier_evolves _ _ _))

theorem countClosed_evolves (s : Store) (a : Nat) : Evolves s (s.countClosed a) := by
  unfold countClosed; split
  · exact .refl _
  · split
    · exact commitAudit_evolves _ _
    · exact .refl _

theorem auditNoticeWritten_evolves (s : Store) (a : Nat) : Evolves s (s.auditNoticeWritten a) := by
  unfold auditNoticeWritten; split
  · exact (setAudit_evolves _ _ _).trans (promote_evolves _ _)
  · exact .refl _
  · exact .refl _

theorem restart_evolves (s : Store) (a : Nat) : Evolves s (s.restart a) := by
  unfold restart; split
  · exact .refl _
  · split
    · exact (setAudit_evolves _ _ _).trans (raise_evolves _ _ _)
    · exact .refl _

theorem auditFence_evolves (s : Store) (n : Nat) : Evolves s (s.auditFence n) := Evolves.foldl _ restart_evolves _ _

theorem abandonCount_evolves (s : Store) (n a : Nat) : Evolves s (s.abandonCount n a) :=
  (restart_evolves _ _).trans (countingCheck_evolves _ _)

/-! ## Claims and planning -/

theorem freeNumber_fresh (s : Store) (h : s.reservations.length < Config.reservationCapacity) :
    ∀ x ∈ s.reservations, x.number ≠ s.freeNumber := by
  have hex : ∃ n ∈ List.range Config.reservationCapacity, (s.reservations.all fun r => r.number != n) = true := by
    apply Classical.byContradiction
    intro hc
    have hsub : List.range Config.reservationCapacity ⊆ s.reservations.map fun r => r.number := by
      intro n hn
      have : ¬ (s.reservations.all fun r => r.number != n) = true := fun ha => hc ⟨n, hn, ha⟩
      simp only [List.all_eq_true, bne_iff_ne, ne_eq, Classical.not_forall, Decidable.not_not] at this
      obtain ⟨r, hr, he⟩ := this
      exact List.mem_map.mpr ⟨r, hr, he⟩
    have := List.Nodup.length_le_of_subset List.nodup_range hsub
    simp at this
    omega
  unfold freeNumber firstBelow
  obtain ⟨n, hn, ha⟩ := hex
  cases hf : (List.range Config.reservationCapacity).find? fun n => s.reservations.all fun r => r.number != n with
  | none => exact absurd ha (by simpa using (List.find?_eq_none.mp hf) n hn)
  | some m =>
    have := List.find?_some hf
    simp only [List.all_eq_true, bne_iff_ne, ne_eq] at this
    simpa using this

theorem takeClaim_evolves (s : Store) (claim : Claim) (q k : Nat) (f : Slot → Slot) :
    Evolves s (s.takeClaim claim q k f).2 := by
  unfold takeClaim; split
  · exact (raiseQuantity_evolves _ _ _).trans (changeSlot_evolves _ _ _)
  · split
    · rename_i hl
      exact ((Evolves.one (.enter s _ hl (freeNumber_fresh s hl) rfl)).trans (changeSlot_evolves _ _ _)).trans
        (place_evolves _ _)
    · exact .refl _

theorem claimPick_evolves (s : Store) (q o l a k : Nat) : Evolves s (s.claimPick q o l a k).2 := by
  unfold claimPick; split
  · exact takeClaim_evolves _ _ _ _ _
  · exact .refl _

theorem claimPut_evolves (s : Store) (q b a w k : Nat) : Evolves s (s.claimPut q b a w k).2 := by
  unfold claimPut; split
  · exact takeClaim_evolves _ _ _ _ _
  · exact .refl _

theorem updBatch_evolves (s : Store) (b : Nat) (f : Batch → Batch) : Evolves s (s.updBatch b f) := by
  unfold updBatch; split
  · exact setBatch_evolves _ _ _
  · exact .refl _

theorem offer_evolves (b a w : Nat) (x : Run) (q : Nat) : Evolves x.store (Run.offer b a w x q).store := by
  simp only [Run.offer]
  split
  · exact .refl _
  · have h := claimPut_evolves x.store q b a w (x.store.quantityFor q (x.store.weightOf a) x.remaining)
    split <;> rename_i heq <;> rw [heq] at h
    · exact h.trans (updBatch_evolves _ _ _)
    · exact .refl _
    · exact .refl _

theorem topUp_evolves (b a w : Nat) (x : Run) : Evolves x.store (Run.topUp b a w x).store := by
  unfold Run.topUp
  generalize List.range 288 = qs
  induction qs generalizing x with
  | nil => exact .refl _
  | cons q qs ih =>
    simp only [List.foldl_cons]
    refine .trans ?_ (ih _)
    split
    · exact offer_evolves _ _ _ _ _
    · exact .refl _

theorem fillEmpty_evolves (b a w n : Nat) (x : Run) : Evolves x.store (Run.fillEmpty b a w n x).store := by
  induction n generalizing x with
  | zero => exact .refl _
  | succ n ih =>
    unfold Run.fillEmpty; split
    · split
      · exact .refl _
      · exact (offer_evolves _ _ _ _ _).trans (ih _)
    · exact .refl _

theorem planRun_evolves (s : Store) (b q : Nat) : Evolves s (s.planRun b q).1 := by
  unfold planRun; split
  · exact .refl _
  · generalize (288 : Nat) = n
    exact .after (fillEmpty_evolves _ _ _ _ _) (topUp_evolves _ _ _ ⟨s, q, [], false⟩)

theorem batchCheck_evolves (s : Store) (b : Nat) : Evolves s (s.batchCheck b) := by
  unfold batchCheck; split
  · exact .refl _
  · split
    · exact (setBatch_evolves _ _ _).trans (raise_evolves _ _ _)
    · exact .refl _

theorem addUnplaced_evolves (s : Store) (b k : Nat) : Evolves s (s.addUnplaced b k) := by
  simp only [addUnplaced]; split
  · exact (updBatch_evolves _ _ _).trans (raise_evolves _ _ _)
  · exact updBatch_evolves _ _ _

theorem batchConfirmed_evolves (s : Store) (b k q : Nat) : Evolves s (s.batchConfirmed b k q) :=
  ((updBatch_evolves _ _ _).trans (addUnplaced_evolves _ _ _)).trans (batchCheck_evolves _ _)

theorem batchReleased_evolves (s : Store) (b q : Nat) : Evolves s (s.batchReleased b q) :=
  (((updBatch_evolves _ _ _).trans (planRun_evolves _ _ _)).trans (addUnplaced_evolves _ _ _)).trans
    (batchCheck_evolves _ _)

theorem batchNoticeWritten_evolves (s : Store) (b : Nat) : Evolves s (s.batchNoticeWritten b) := by
  unfold batchNoticeWritten; split
  · exact setBatch_evolves _ _ _
  · exact .refl _
  · exact .refl _

/-! ## Lanes and orders -/

theorem occupyLane_evolves (s : Store) (l : Nat) : Evolves s (s.occupyLane l) :=
  (setLane_evolves _ _ _).trans (raise_evolves _ _ _)

theorem freeLane_evolves (s : Store) (l : Nat) (b : Bool) : Evolves s (s.freeLane l b) := by
  simp only [freeLane]
  split <;> (try split) <;> (try split) <;>
    first
      | exact (putLane_evolves _ _ _).trans (raise_evolves _ _ _)
      | exact putLane_evolves _ _ _

theorem assignLane_evolves (s : Store) (l k : Nat) : Evolves s (s.assignLane l k).1 :=
  (putLane_evolves _ _ _).trans (list_evolves _ _)

theorem weighLane_evolves (s : Store) (l : Nat) (r : Int) : Evolves s (s.weighLane l r).1 := by
  simp only [weighLane]
  split <;> split <;>
    first
      | exact .refl _
      | exact setLane_evolves _ _ _
      | exact (setLane_evolves _ _ _).trans (raise_evolves _ _ _)

theorem confirmLane_evolves (s : Store) (l k w t : Nat) : Evolves s (s.confirmLane l k w t).1 := by
  simp only [confirmLane]; split
  · exact .refl _
  · exact (putLane_evolves _ _ _).trans (list_evolves _ _)

theorem laneDone_evolves (s : Store) (l : Nat) : Evolves s (s.laneDone l) :=
  (putLane_evolves _ _ _).trans (list_evolves _ _)

theorem laneAbandoned_evolves (s : Store) (l : Nat) : Evolves s (s.laneAbandoned l) :=
  (putLane_evolves _ _ _).trans (list_evolves _ _)

theorem expireArrival_evolves (s : Store) (l : Nat) : Evolves s (s.expireArrival l) := by
  simp only [expireArrival]; split
  · exact ((putLane_evolves _ _ _).trans (raise_evolves _ _ _)).trans (list_evolves _ _)
  · exact .refl _

theorem invalidSample_evolves (s : Store) (l : Nat) : Evolves s (s.invalidSample l) := by
  simp only [invalidSample]; split
  · exact (setLane_evolves _ _ _).trans (raise_evolves _ _ _)
  · exact setLane_evolves _ _ _

theorem joinReading_evolves (s : Store) (l : Nat) (r : Int) : Evolves s (s.joinReading l r) := setLane_evolves _ _ _

theorem restoreScale_evolves (s : Store) (l : Nat) : Evolves s (s.restoreScale l) := by
  simp only [restoreScale]; split
  · exact (setLane_evolves _ _ _).trans (raise_evolves _ _ _)
  · exact .refl _

theorem putLine_evolves (s : Store) (k l : Nat) (f : Line → Line) : Evolves s (s.putLine k l f) := by
  unfold putLine; split
  · exact putOrder_evolves _ _ _
  · exact .refl _

theorem joinWaiting_evolves (s : Store) (e : Nat × Nat) : Evolves s (s.joinWaiting e) := by
  unfold joinWaiting; split
  · exact .refl _
  · exact .one (.waiting _ _)

theorem leaveWaiting_evolves (s : Store) (k : Nat) : Evolves s (s.leaveWaiting k) := .one (.waiting _ _)

theorem completionCheck_evolves (s : Store) (k : Nat) : Evolves s (s.completionCheck k) := by
  unfold completionCheck; split
  · split
    · exact .refl _
    · dsimp only
      refine .after (raise_evolves _ _ _) (.after (list_evolves _ _) ?_)
      split
      · exact .after (laneDone_evolves _ _) (.after (leaveWaiting_evolves _ _) (putOrder_evolves _ _ _))
      · exact .after (leaveWaiting_evolves _ _) (putOrder_evolves _ _ _)
  · exact .refl _

theorem matchReport_evolves (s : Store) (l : Nat) : Evolves s (s.matchReport l) := by
  unfold matchReport; split
  · exact completionCheck_evolves _ _
  · exact .refl _

theorem withReport_evolves {s : Store} {x : Store × Bool} (h : Evolves s x.1) (l : Nat) :
    Evolves s (withReport x l) := by
  unfold withReport; split
  · exact h.trans (matchReport_evolves _ _)
  · exact h

theorem admitTo_evolves (s : Store) (k l : Nat) : Evolves s (s.admitTo k l) := by
  unfold admitTo; split
  · exact .refl _
  · dsimp only
    refine .after (raise_evolves _ _ _) (.after (list_evolves _ _)
      (.after (Evolves.foldl _ (fun s j => joinWaiting_evolves s _) _ _) (withReport_evolves (.after
        (assignLane_evolves _ _ _) ?_) _)))
    exact .after (.one (.admission (putOrder _ _ _) _ _ _)) (putOrder_evolves _ _ _)

theorem passOver_evolves (s : Store) (k : Nat) : Evolves s (s.passOver k) := by
  unfold passOver; split
  · exact .refl _
  · split
    · dsimp only; split
      · exact (setOrder_evolves _ _ _).trans (raise_evolves _ _ _)
      · exact setOrder_evolves _ _ _
    · exact .refl _

theorem admissionWalk_evolves (ks ahead : List Nat) (s : Store) (any : Bool) :
    Evolves s (admissionWalk ks ahead s any).1 := by
  induction ks generalizing ahead s any with
  | nil => exact .refl _
  | cons k ks ih =>
    unfold admissionWalk; split
    · split
      · exact .refl _
      · exact ih _ _ _
    · rename_i l _
      have h : Evolves s (ahead.foldl passOver (s.admitTo k l)) :=
        .after (Evolves.foldl _ passOver_evolves _ _) (admitTo_evolves _ _ _)
      dsimp only
      split
      · exact h
      · exact .after (ih _ _ _) h

theorem admissionPass_evolves (s : Store) : Evolves s s.admissionPass := by
  simp only [admissionPass]; split
  · exact (admissionWalk_evolves _ _ _ _).trans (triggerPass_evolves _)
  · exact admissionWalk_evolves _ _ _ _

theorem joinAdmission_evolves (s : Store) (k : Nat) : Evolves s (s.joinAdmission k) := .one (.admission s _ _ _)

theorem freeOrder_evolves (s : Store) (k : Nat) : Evolves s (s.freeOrder k) :=
  ((setOrder_evolves _ _ _).trans (raise_evolves _ _ _)).trans (.one (.admission _ _ _ _))

theorem cancellationEnd_evolves (s : Store) (k : Nat) : Evolves s (s.cancellationEnd k) := by
  unfold cancellationEnd; split
  · exact .refl _
  · split
    · split
      · dsimp only
        refine .after (list_evolves _ _) (.after (raise_evolves _ _ _) ?_)
        split
        · exact .after (laneAbandoned_evolves _ _) (putOrder_evolves _ _ _)
        · exact putOrder_evolves _ _ _
      · dsimp only
        refine .after (admissionPass_evolves _) (.after (freeOrder_evolves _ _) ?_)
        split
        · exact .after (list_evolves _ _) (freeLane_evolves _ _ _)
        · exact .refl _
    · exact .refl _

theorem lineLowered_evolves (s : Store) (k l q : Nat) : Evolves s (s.lineLowered k l q) :=
  (putLine_evolves _ _ _ _).trans (list_evolves _ _)

theorem lineReleased_evolves (s : Store) (k l q : Nat) : Evolves s (s.lineReleased k l q) := by
  simp only [lineReleased]; split
  · exact ((putLine_evolves _ _ _ _).trans (joinWaiting_evolves _ _)).trans (list_evolves _ _)
  · exact ((putLine_evolves _ _ _ _).trans (cancellationEnd_evolves _ _)).trans (list_evolves _ _)

theorem rejoin_evolves (s : Store) (k l : Nat) : Evolves s (s.rejoin k l) := by
  unfold rejoin; split
  · exact .refl _
  · split
    · exact joinWaiting_evolves _ _
    · exact .refl _

theorem lineConfirmed_evolves (s : Store) (o l k q : Nat) : Evolves s (s.lineConfirmed o l k q) := by
  simp only [lineConfirmed]
  refine .after (list_evolves _ _) ?_
  split <;> split <;>
    first
      | exact .after (raise_evolves _ _ _) (.after (rejoin_evolves _ _ _) (putLine_evolves _ _ _ _))
      | exact .after (raise_evolves _ _ _) (putLine_evolves _ _ _ _)
      | exact .after (rejoin_evolves _ _ _) (putLine_evolves _ _ _ _)
      | exact putLine_evolves _ _ _ _

theorem orderChecks_evolves (s : Store) (o l : Nat) : Evolves s (s.orderChecks o l) := by
  unfold orderChecks; split
  · split
    · exact completionCheck_evolves _ _
    · exact .refl _
  · exact cancellationEnd_evolves _ _

theorem lineClaimed_evolves (s : Store) (o l k : Nat) (w : Option Nat) : Evolves s (s.lineClaimed o l k w) := by
  simp only [lineClaimed]
  refine .after (list_evolves _ _) ?_
  split
  · exact .after (.one (.waiting (putLine _ _ _ _) _)) (putLine_evolves _ _ _ _)
  · exact putLine_evolves _ _ _ _

theorem serveLine_evolves (o l : Nat) (w : Option Nat) (n : Nat) (s : Store) :
    Evolves s (serveLine o l w n s).1 := by
  induction n generalizing s with
  | zero => exact .refl _
  | succ n ih =>
    unfold serveLine
    split
    · exact .refl _
    · split
      · exact .refl _
      · split
        · exact .refl _
        · rename_i x _ _ _ q _
          dsimp only
          have h := claimPick_evolves s q o l x.article (min (s.available q) x.need)
          split <;> rename_i heq <;> rw [heq] at h
          · exact (h.trans (lineClaimed_evolves _ _ _ _ _)).trans (ih _)
          · exact h
          · exact h

theorem serveEntry_evolves (s : Store) (e : Nat × Nat) : Evolves s (s.serveEntry e).1 := by
  unfold serveEntry
  split
  · exact .refl _
  · split
    · split
      · exact serveLine_evolves _ _ _ _ _
      · split
        · exact serveLine_evolves _ _ _ _ _
        · exact .refl _
    · exact serveLine_evolves _ _ _ _ _

theorem serveEntries_evolves (es : List (Nat × Nat)) (s : Store) : Evolves s (serveEntries es s) := by
  induction es generalizing s with
  | nil => exact .refl _
  | cons e es ih =>
    simp only [serveEntries]; split
    · exact serveEntry_evolves _ _
    · exact (serveEntry_evolves _ _).trans (ih _)

theorem allocationPass_evolves (s : Store) : Evolves s s.allocationPass := by
  unfold allocationPass; split
  · exact (Evolves.one (.pass s false)).trans (serveEntries_evolves _ _)
  · exact .refl _

theorem settledEvent_evolves (s : Store) (l : Nat) (r : Int) : Evolves s (s.settledEvent l r) := by
  unfold settledEvent
  split <;> (try split) <;>
    first
      | exact .refl _
      | exact occupyLane_evolves _ _
      | exact withReport_evolves (weighLane_evolves _ _ _) _
      | exact ((freeLane_evolves _ _ _).trans (list_evolves _ _)).trans (admissionPass_evolves _)

theorem validSample_evolves (s : Store) (l : Nat) (r : Int) : Evolves s (s.validSample l r) := by
  simp only [validSample]
  refine (joinReading_evolves s l r).trans (.trans ?_ (restoreScale_evolves _ _))
  split
  · exact settledEvent_evolves _ _ _
  · exact .refl _

/-! ## Releases, the fence, suspensions -/

/-- A face whose presentation has ended is as R53 gives it. -/
theorem ended_sound (f : Face) {st : FaceState} (h : st ≠ .presenting) : (f.ended st).Sound :=
  ⟨fun e => absurd e h, fun _ => ⟨rfl, rfl, rfl⟩⟩

theorem closePresentation_evolves (s : Store) (n f : Nat) : Evolves s (s.closePresentation n f) := by
  simp only [closePresentation]
  split
  · exact .refl _
  · refine .after (list_evolves _ _) (.after (derive_evolves _ _) (.after (serviceCheck_evolves _ _) ?_))
    split
    · split
      · exact .after (countClosed_evolves _ _) (.after (markFaceOpen_evolves _ _ _) (putFace_evolves _ _ _ fun _ => ended_sound _ nofun))
      · exact .after (markFaceOpen_evolves _ _ _) (putFace_evolves _ _ _ fun _ => ended_sound _ nofun)
    · exact .after (markFaceOpen_evolves _ _ _) (putFace_evolves _ _ _ fun _ => ended_sound _ nofun)

theorem checkPresentation_evolves (s : Store) (n f : Nat) : Evolves s (s.checkPresentation n f) := by
  simp only [checkPresentation]; split
  · exact closePresentation_evolves _ _ _
  · exact (derive_evolves _ _).trans (list_evolves _ _)

/-- A face with an item in a bay list is PRESENTING (R53). -/
theorem presenting_of_items {f : Face} (h : f.Sound) {b : Nat} (hb : look f.bays [] b ≠ []) :
    f.state = .presenting := by
  refine Classical.byContradiction fun e => hb ?_
  rw [(h.blank e).2.2]
  match b with
  | 0 | 1 | 2 => rfl
  | n + 3 => simp [look]

theorem dropItem_evolves (s : Store) (n f num : Nat) : Evolves s (s.dropItem n f num) := by
  simp only [dropItem]; split
  · exact .refl _
  · rename_i b hb
    refine .trans (putFace_evolves _ _ _ fun h => ?_) (checkPresentation_evolves _ _ _)
    have hi : look (s.face (faceIndex n f)).bays [] b ≠ [] := fun e => by
      have := List.find?_some hb
      simp [e] at this
    have hp := presenting_of_items h hi
    split
    · exact ⟨h.presenting, fun e => absurd hp e⟩
    · exact bays_sound hp _ h

theorem handBack_evolves (s : Store) (r : Reservation) : Evolves s (s.handBack r) := by
  unfold handBack; split
  · exact lineReleased_evolves _ _ _ _
  · exact batchReleased_evolves _ _ _

theorem handBackCancelled_evolves (s : Store) (r : Reservation) : Evolves s (s.handBackCancelled r) := by
  unfold handBackCancelled; split
  · exact lineLowered_evolves _ _ _ _
  · exact .refl _

theorem withdraw_evolves (s : Store) (r : Reservation) : Evolves s (s.withdraw r).1 := by
  simp only [withdraw]; split
  · exact .refl _
  · exact detach_evolves _ _ _
  · exact dropItem_evolves _ _ _ _

theorem releaseOne_evolves {back : Store → Reservation → Store} (hb : ∀ s r, Evolves s (back s r))
    (x : Store × List Nat) (num : Nat) : Evolves x.1 (releaseOne back x num).1 := by
  unfold releaseOne; split
  · exact .refl _
  · exact ((((dropReservation_evolves _ _).trans (changeSlot_evolves _ _ _)).trans (hb _ _)).trans
      (withdraw_evolves _ _)).trans (drainedCheck_evolves _ _)

theorem releaseMany_evolves {back : Store → Reservation → Store} (hb : ∀ s r, Evolves s (back s r)) (s : Store)
    (nums : List Nat) : Evolves s (releaseMany back s nums) := by
  unfold releaseMany; split
  · exact .refl _
  · have h : ∀ (xs : List Nat) (x : Store × List Nat), Evolves x.1 (xs.foldl (releaseOne back) x).1 := by
      intro xs
      induction xs with
      | nil => intro x; exact .refl _
      | cons y ys ih => intro x; exact (releaseOne_evolves hb x y).trans (ih _)
    exact ((h nums (s, [])).trans (triggerPass_evolves _)).trans (Evolves.foldl _ afterRemoval_evolves _ _)

theorem suspectMark_evolves (s : Store) (r : Nat) : Evolves s (s.suspectMark r) := by
  simp only [suspectMark]; split
  · exact .refl _
  · exact ((updCarrier_evolves _ _ _).trans (releaseMany_evolves handBack_evolves _ _)).trans (stockAudit_evolves _ _ _)

theorem closeForFence_evolves (s : Store) (n f : Nat) : Evolves s (s.closeForFence n f) := by
  simp only [closeForFence]; split
  · refine .after (list_evolves _ _) ?_
    split
    · exact .after (markFaceOpen_evolves _ _ _) (putFace_evolves _ _ _ fun _ => ended_sound _ nofun)
    · exact putFace_evolves _ _ _ fun _ => ended_sound _ nofun
  · exact .refl _

theorem fence_evolves (s : Store) (n : Nat) (c : FenceCause) (code : Option Nat) : Evolves s (s.fence n c code) := by
  simp only [fence]
  refine .after (list_evolves _ _) (.after (raise_evolves _ _ _) (.after (deriveBoth_evolves _ _)
    (.after (auditFence_evolves _ _) (.after (releaseMany_evolves handBack_evolves _ _) (.after
      (Evolves.foldl _ (fun s c => suspectMark_evolves s _) _ _) (.after (closeForFence_evolves _ _ _)
        (.after (closeForFence_evolves _ _ _) (putChannel_evolves _ _ _ ?_))))))))
  intro _; exact Nat.zero_le _

theorem suspend_evolves (s : Store) (n f c : Nat) : Evolves s (s.suspend n f c) := by
  have hf : (s.face (faceIndex n f)).Sound →
      Face.Sound { (s.face (faceIndex n f)).ended .halted with lastSuspended := some c } :=
    fun _ => ⟨nofun, fun _ => ⟨rfl, rfl, rfl⟩⟩
  simp only [suspend]
  refine .after (list_evolves _ _) (.after (derive_evolves _ _) (.after (raise_evolves _ _ _)
    (.after (serviceCheck_evolves _ _) (.after (tellHalted_evolves _ _ _) (.after (suspectMark_evolves _ _) ?_)))))
  split
  · split
    · exact .after (abandonCount_evolves _ _ _) (.after (markFaceOpen_evolves _ _ _) (putFace_evolves _ _ _ hf))
    · exact .after (markFaceOpen_evolves _ _ _) (putFace_evolves _ _ _ hf)
  · exact .after (markFaceOpen_evolves _ _ _) (putFace_evolves _ _ _ hf)

theorem haltIdle_evolves (s : Store) (n f : Nat) (hf : (s.face (faceIndex n f)).state = .presenting →
    (s.face (faceIndex n f)).carrier = none) : Evolves s (s.haltIdle n f) := by
  have hs (h : (s.face (faceIndex n f)).Sound) : Face.Sound
      { s.face (faceIndex n f) with state := .halted, held := [], selected := none } := by
    refine ⟨nofun, fun _ => h.blank fun e => ?_⟩
    obtain ⟨⟨c, _, hc⟩, _⟩ := h.presenting e
    exact nomatch (hf e).symm.trans hc
  exact ((((putFace_evolves _ _ _ hs).trans (tellHalted_evolves _ _ _)).trans (raise_evolves _ _ _)).trans
    (derive_evolves _ _)).trans (list_evolves _ _)

theorem faceIndex_split (i : Nat) : faceIndex (i / 2) (i % 2) = i := by unfold faceIndex; omega

theorem panelLeft_evolves (s : Store) (i : Nat) : Evolves s (s.panelLeft i) := by
  simp only [panelLeft]; split
  · exact .refl _
  · rename_i hi
    exact haltIdle_evolves _ _ _ fun e => by rw [faceIndex_split, hi] at e; exact nomatch e
  · split
    · exact suspend_evolves _ _ _ _
    · rename_i hc
      exact haltIdle_evolves _ _ _ fun _ => by rw [faceIndex_split]; exact hc

theorem panelEntered_evolves (s : Store) (i : Nat) : Evolves s (s.panelEntered i) := by
  simp only [panelEntered]; split
  · rename_i hi
    have hf (h : (s.face i).Sound) : Face.Sound { s.face i with state := .idle } :=
      ⟨nofun, fun _ => h.blank (by rw [hi]; exact nofun)⟩
    exact ((((putFace_evolves _ _ _ hf).trans (tellWorking_evolves _ _ _)).trans (raise_evolves _ _ _)).trans
      (list_evolves _ _)).trans (derive_evolves _ _)
  · exact .refl _

/-! ## Carousels -/

theorem arrive_evolves (s : Store) (n p : Nat) : Evolves s (s.arrive n p) := by
  simp only [arrive]; split
  · exact .after (serviceCheck_evolves _ _) (.after (serveAt_evolves _ _ _) (changeChannel_evolves _ _ _ fun h => h))
  · exact fence_evolves _ _ _ _

theorem leaveHeld_evolves (s : Store) (n : Nat) : Evolves s (s.leaveHeld n) :=  by
  unfold leaveHeld
  exact .after (serviceCheck_evolves _ _) (.after (raise_evolves _ _ _) (changeChannel_evolves _ _ _ fun h => h))

theorem stopShort_evolves (s : Store) (n p : Nat) : Evolves s (s.stopShort n p) := by
  simp only [stopShort]; split
  · exact .after (leaveHeld_evolves _ _) (.after (raise_evolves _ _ _) (changeChannel_evolves _ _ _ fun h => h))
  · exact .after (raise_evolves _ _ _) (changeChannel_evolves _ _ _ fun h => h)

theorem homedRun_evolves (s : Store) (n : Nat) : Evolves s (s.homedRun n) := by
  unfold homedRun
  exact .after (serviceCheck_evolves _ _) (.after (list_evolves _ _) (.after (raise_evolves _ _ _)
    (.after (triggerPass_evolves _) (.after (countingCheck_evolves _ _) (.after (deriveBoth_evolves _ _)
      (putChannel_evolves _ _ _ fun h => h))))))

theorem takeReport_evolves (s : Store) (n : Nat) (r : DriveReport) : Evolves s (s.takeReport n r) := by
  unfold takeReport
  split
  · exact .refl _
  · exact .refl _
  · unfold reportHoming; split <;> first | exact fence_evolves _ _ _ _ | exact homedRun_evolves _ _
  · unfold reportUnsolicited; split <;> exact fence_evolves _ _ _ _
  · unfold reportUnsolicited; split <;> exact fence_evolves _ _ _ _
  · unfold reportMoving
    split <;> first | exact fence_evolves _ _ _ _ | exact arrive_evolves _ _ _ | exact stopShort_evolves _ _ _

theorem driveByte_evolves (n : Nat) (s : Store) (b : Byte) : Evolves s (driveByte n s b) := by
  simp only [driveByte]; split
  · exact .after (takeReport_evolves _ _ _) (putChannel_evolves _ _ _ fun h => h)
  · exact putChannel_evolves _ _ _ fun h => h

theorem gateOpened_evolves (s : Store) (n : Nat) : Evolves s (s.gateOpened n) := by
  unfold gateOpened
  exact .after (raise_evolves _ _ _) (setChannel_evolves _ _ _ fun h => h)

theorem gateClosed_evolves (s : Store) (n : Nat) : Evolves s (s.gateClosed n) := by
  simp only [gateClosed]
  have h : Evolves s ((s.setChannel n { s.channel n with gate := .closed }).raise (.carousel n)
      Flag.carouselGateClosed) :=
    .after (raise_evolves _ _ _) (setChannel_evolves _ _ _ fun h => h)
  split
  · exact .after (leaveHeld_evolves _ _) h
  · exact .after (serviceCheck_evolves _ _) h
  all_goals exact h

theorem expireDeadline_evolves (s : Store) (n : Nat) : Evolves s (s.expireDeadline n) := by
  unfold expireDeadline; split
  · exact fence_evolves _ _ _ _
  · exact .refl _

theorem sendHome_evolves (s : Store) (n : Nat) : Evolves s (s.sendHome n) := changeChannel_evolves _ _ _ fun h => h

/-! ## Panels and keys -/

theorem agreePanel_evolves (s : Store) (p : Nat) : Evolves s (s.agreePanel p) := by
  simp only [agreePanel]
  split
  · split
    · exact .refl _
    · split
      · exact putPanel_evolves _ _ _
      · exact .refl _
  · exact .refl _

theorem agreeAll_evolves (s : Store) : Evolves s s.agreeAll := Evolves.foldl _ agreePanel_evolves _ _

theorem eventEnd_evolves (s : Store) : Evolves s s.eventEnd := (allocationPass_evolves _).trans (agreeAll_evolves _)

theorem goOffline_evolves (s : Store) (p : Nat) : Evolves s (s.goOffline p) := by
  simp only [goOffline]
  refine .after (list_evolves _ _) ?_
  split
  · exact .after (panelLeft_evolves _ _) (putPanel_evolves _ _ _)
  · exact putPanel_evolves _ _ _

theorem failExchange_evolves (s : Store) (p : Nat) : Evolves s (s.failExchange p) := by
  simp only [failExchange]; split
  · exact .refl _
  · split
    · exact putPanel_evolves _ _ _
    · exact goOffline_evolves _ _

theorem enterReady_evolves (s : Store) (p : Nat) : Evolves s (s.enterReady p) :=
  ((putPanel_evolves _ _ _).trans (panelEntered_evolves _ _)).trans (list_evolves _ _)

theorem takeAck_evolves (s : Store) (p : Nat) : Evolves s (s.takeAck p) := by
  simp only [takeAck]; split
  · exact .refl _
  · split
    · exact putPanel_evolves _ _ _
    · exact .refl _
    · exact enterReady_evolves _ _
    · exact putPanel_evolves _ _ _

theorem takeIdent_evolves (s : Store) (p : Nat) (t : Byte) : Evolves s (s.takeIdent p t) := by
  simp only [takeIdent]; split
  · split
    · exact putPanel_evolves _ _ _
    · exact (putPanel_evolves _ _ _).trans (goOffline_evolves _ _)
  · exact .refl _

theorem takeEvent_evolves (s : Store) (p : Nat) (e : KeyEvent) : Evolves s (s.takeEvent p e) := by
  simp only [takeEvent]; split
  · split
    · exact putPanel_evolves _ _ _
    · exact setPanel_evolves _ _ _
  · exact .refl _

theorem setReceived_evolves (s : Store) (p : Nat) (m : PendingMessage) : Evolves s (s.setReceived p m) :=
  putPanel_evolves _ _ _

theorem freshByte_evolves (s : Store) (p : Nat) (b : Byte) : Evolves s (s.freshByte p b) := by
  unfold freshByte
  split
  · exact takeAck_evolves _ _
  · split
    · exact failExchange_evolves _ _
    · split
      · exact setReceived_evolves _ _ _
      · split
        · exact setReceived_evolves _ _ _
        · split
          · exact takeEvent_evolves _ _ _
          · exact .refl _

theorem panelByte_evolves (p : Nat) (s : Store) (b : Byte) : Evolves s (panelByte p s b) := by
  simp only [panelByte]
  split
  · exact .refl _
  · split
    · exact freshByte_evolves _ _ _
    · split
      · exact (setReceived_evolves _ _ _).trans (takeEvent_evolves _ _ _)
      · exact (setReceived_evolves _ _ _).trans (freshByte_evolves _ _ _)
    · split
      · exact (setReceived_evolves _ _ _).trans (takeIdent_evolves _ _ _)
      · exact (setReceived_evolves _ _ _).trans (freshByte_evolves _ _ _)

theorem badByte_evolves (s : Store) (p : Nat) (a b : Bool) : Evolves s (s.badByte p a b) := by
  simp only [badByte]; split
  · exact .refl _
  · exact setPanel_evolves _ _ _

theorem expireAnswer_evolves (s : Store) (p : Nat) : Evolves s (s.expireAnswer p) := by
  unfold expireAnswer; split
  · exact failExchange_evolves _ _
  · exact .refl _

theorem beginIdentification_evolves (s : Store) (p : Nat) : Evolves s (s.beginIdentification p) :=
  putPanel_evolves _ _ _

theorem restartPanel_evolves (s : Store) (p : Nat) : Evolves s (s.restartPanel p) := by
  simp only [restartPanel]
  refine .trans ?_ ((beginIdentification_evolves _ _).trans (list_evolves _ _))
  split
  · exact (putPanel_evolves _ _ _).trans (panelLeft_evolves _ _)
  · exact putPanel_evolves _ _ _

theorem pickConfirm_evolves (s : Store) (num k : Nat) : Evolves s (s.pickConfirm num k) := by
  simp only [pickConfirm]
  split
  · exact .refl _
  · split
    · exact .refl _
    · refine .after (triggerPass_evolves _) (.after (drainedCheck_evolves _ _) ?_)
      have h : ∀ q f o l k m, Evolves s (((s.dropReservation num).changeSlot q f).lineConfirmed o l k m) :=
        fun q f o l k m => .after (lineConfirmed_evolves _ _ _ _ _)
          (.after (changeSlot_evolves _ _ _) (dropReservation_evolves _ _))
      split
      · refine .after (stockAudit_evolves _ _ _) (.after (orderChecks_evolves _ _ _) ?_)
        split
        · exact withReport_evolves (.after (confirmLane_evolves _ _ _ _ _) (h _ _ _ _ _ _)) _
        · exact h _ _ _ _ _ _
      · refine .after (orderChecks_evolves _ _ _) ?_
        split
        · exact withReport_evolves (.after (confirmLane_evolves _ _ _ _ _) (h _ _ _ _ _ _)) _
        · exact h _ _ _ _ _ _

theorem putConfirm_evolves (s : Store) (num k : Nat) : Evolves s (s.putConfirm num k) := by
  simp only [putConfirm]
  split
  · exact .refl _
  · split
    · exact .refl _
    · exact ((((dropReservation_evolves s _).trans (changeSlot_evolves _ _ _)).trans
        (batchConfirmed_evolves _ _ _ _)).trans (drainedCheck_evolves _ _)).trans (triggerPass_evolves _)

theorem countConfirm_face (s : Store) (a b k i : Nat) : (s.countConfirm a b k).1.face i = s.face i := by
  unfold countConfirm; split <;> rfl

/-- A face written with its own state keeps it. -/
theorem putFace_state {s : Store} {i : Nat} {f : Face} (h : f.state = (s.face i).state) :
    ((s.putFace i f).face i).state = (s.face i).state := by
  simp only [face, putFace, look_put]
  split
  · exact h
  · rfl

theorem dispatch_evolves (s : Store) (i b : Nat) (it : Item) (hp : (s.face i).state = .presenting) :
    Evolves s (s.dispatch i b it) := by
  simp only [dispatch]; split
  · exact pickConfirm_evolves _ _ _
  · exact putConfirm_evolves _ _ _
  · split
    · exact (countConfirm_evolves _ _ _ _).trans
        (putFace_evolves _ _ _ (bays_sound (by rw [countConfirm_face]; exact hp) _))
    · exact countConfirm_evolves _ _ _ _

theorem confirmBay_evolves (s : Store) (i b : Nat) (hp : (s.face i).state = .presenting) :
    Evolves s (s.confirmBay i b) := by
  simp only [confirmBay]; split
  · exact list_evolves _ _
  · refine .after (checkPresentation_evolves _ _ _) (.after (dispatch_evolves _ _ _ _ ?_)
      (putFace_evolves _ _ _ (bays_sound hp _)))
    rw [putFace_state]
    · exact hp
    · rfl

theorem adjust_evolves (s : Store) (i : Nat) (up : Bool) : Evolves s (s.adjust i up) := by
  simp only [adjust]; split
  · exact .refl _
  · split
    · exact .refl _
    · rename_i hi
      split
      · exact .refl _
      · refine .trans (.trans (putFace_evolves _ _ _ fun h => ?_) (derive_evolves _ _)) (list_evolves _ _)
        exact bays_sound (presenting_of_items h (by rw [hi]; exact nofun)) _ h

theorem bayBreak_evolves (s : Store) (i b : Nat) (hp : (s.face i).state = .presenting) :
    Evolves s (s.bayBreak i b) := by
  simp only [bayBreak]; split
  · refine .after (confirmBay_evolves _ _ _ ?_) (putFace_evolves _ _ _ (held_sound _ _))
    rw [putFace_state]
    · exact hp
    · rfl
  · exact .refl _

theorem actKey_evolves (s : Store) (i : Nat) (e : KeyEvent) : Evolves s (s.actKey i e) := by
  unfold actKey; split
  · rename_i hp
    split
    · split
      · exact setFace_evolves _ _ _ (held_sound _ _)
      · exact bayBreak_evolves _ _ _ hp
    · split
      · exact adjust_evolves _ _ _
      · exact .refl _
  · exact .refl _

theorem takeKeyIf_evolves (s : Store) (p : Nat) (kind : KeyEvent → Bool) : Evolves s (s.takeKeyIf p kind) := by
  unfold takeKeyIf; split
  · exact .refl _
  · split
    · exact ((putPanel_evolves _ _ _).trans (actKey_evolves _ _ _)).trans (eventEnd_evolves _)
    · exact .refl _

theorem panelMessage_evolves (s : Store) (p : Nat) (bs : List Byte) : Evolves s (s.panelMessage p bs) :=
  ((Evolves.foldl _ (panelByte_evolves p) bs s).trans (eventEnd_evolves _)).trans (takeKeyIf_evolves _ _ _)

theorem scan_evolves (s : Store) (l : Nat) (raw : Int) (v : Bool) : Evolves s (s.scan l raw v) := by
  simp only [scan]
  split
  · exact .after (validSample_evolves _ _ _) (setLane_evolves _ _ _)
  · exact .after (invalidSample_evolves _ _) (setLane_evolves _ _ _)

theorem noticeWritten_evolves (s : Store) (n : Notice) : Evolves s (s.noticeWritten n) := by
  unfold noticeWritten
  split
  · split
    · exact batchNoticeWritten_evolves _ _
    · exact .refl _
  · split
    · exact .after (eventEnd_evolves _) (auditNoticeWritten_evolves _ _)
    · exact .refl _
  all_goals exact .refl _

/-! ## Requests -/

theorem releaseLane_evolves (s : Store) (l : Nat) (r : Int) : Evolves s (Owner.releaseLane s l r) := by
  simp only [Owner.releaseLane]
  refine .after (list_evolves _ _) (.after (admissionPass_evolves _) (.after (freeLane_evolves _ _ _) ?_))
  split
  · exact .after (freeOrder_evolves _ _) (putLane_evolves _ _ _)
  · exact putLane_evolves _ _ _

theorem acceptLane_evolves (s : Store) (l : Nat) (r : Int) : Evolves s (Owner.acceptLane s l r) := by
  simp only [Owner.acceptLane]
  refine .after (list_evolves _ _) ?_
  split <;> split <;>
    first
      | exact .after (matchReport_evolves _ _) (.after (raise_evolves _ _ _) (putLane_evolves _ _ _))
      | exact .after (raise_evolves _ _ _) (putLane_evolves _ _ _)
      | exact .after (matchReport_evolves _ _) (putLane_evolves _ _ _)
      | exact putLane_evolves _ _ _

theorem received_evolves (s : Store) (b : Nat) (x : Batch) : Evolves s (Owner.received s b x) :=
  ((setBatch_evolves _ _ _).trans (planRun_evolves _ _ _)).trans (updBatch_evolves _ _ _)

theorem cancelAdmitting_evolves (s : Store) (k : Nat) : Evolves s (Owner.cancelAdmitting s k) :=
  ((Evolves.one (.admission s _ s.admissionCounter s.admitted)).trans (freeOrder_evolves _ _)).trans
    (admissionPass_evolves _)

theorem cancelActive_evolves (s : Store) (k : Nat) (o : Order) : Evolves s (Owner.cancelActive s k o) :=
  ((((putOrder_evolves s _ _).trans (leaveWaiting_evolves _ _)).trans
    (releaseMany_evolves handBackCancelled_evolves _ _)).trans
    (cancellationEnd_evolves _ _)).trans (list_evolves _ _)

end Store

/-- Every answer of an owner, whether it accepts or refuses, is a chain of primitive updates. -/
structure Answer.Good (s : Store) (a : Answer) : Prop where
  evolves : Evolves s a.store

theorem Answer.Good.refuse_good (s : Store) (st : Status) : Answer.Good s (.refuse s st) := ⟨.refl s⟩

theorem Answer.Good.accept_good {s t : Store} (h : Evolves s t) (st : Status) (d : List Word) :
    Answer.Good s (.accept t st d) := by
  refine ⟨?_⟩
  simp only [Answer.accept]
  exact .after (Store.eventEnd_evolves t) h

theorem answerOf_good (f : List Word → Store → Answer) (h : ∀ ws s, Answer.Good s (f ws s)) (ws : List Word)
    (s : Store) : Answer.Good s (answerOf f ws s) := by
  unfold answerOf; split
  · exact h ws s
  · exact .refuse_good _ _

namespace Owner

theorem articleDefine_good (ws : List Word) (s : Store) : Answer.Good s (articleDefine ws s) := by
  simp only [articleDefine]
  split
  · exact .refuse_good _ _
  · split
    · exact .refuse_good _ _
    · exact .accept_good (Store.setArticle_evolves _ _ _) _ _

theorem articleRemove_good (ws : List Word) (s : Store) : Answer.Good s (articleRemove ws s) := by
  simp only [articleRemove]
  split
  · exact .refuse_good _ _
  · split
    · exact .refuse_good _ _
    · exact .accept_good (Store.setArticle_evolves _ _ _) _ _

theorem slotBlock_good (ws : List Word) (s : Store) : Answer.Good s (slotBlock ws s) := by
  simp only [slotBlock]
  split
  · exact .refuse_good _ _
  · split
    · exact .refuse_good _ _
    · exact .accept_good (Store.setReason_evolves _ _ _) _ _

theorem slotUnblock_good (ws : List Word) (s : Store) : Answer.Good s (slotUnblock ws s) := by
  simp only [slotUnblock]
  split
  · exact .refuse_good _ _
  · split
    · exact .refuse_good _ _
    · split
      · exact .refuse_good _ _
      · exact .accept_good ((Store.setReason_evolves _ _ _).trans (Store.triggerPass_evolves _)) _ _

theorem receive_good (ws : List Word) (s : Store) : Answer.Good s (receive ws s) := by
  simp only [receive]
  split
  · exact .refuse_good _ _
  · split
    · exact .refuse_good _ _
    · split
      · exact .refuse_good _ _
      · split
        · exact .refuse_good _ _
        · split
          · exact .refuse_good _ _
          · exact .accept_good (Store.received_evolves _ _ _) _ _

theorem orderOpen_good (ws : List Word) (s : Store) : Answer.Good s (orderOpen ws s) := by
  simp only [orderOpen]
  split
  · exact .refuse_good _ _
  · split
    · exact .refuse_good _ _
    · split
      · exact .refuse_good _ _
      · split
        · exact .refuse_good _ _
        · split
          · exact .refuse_good _ _
          · exact .accept_good ((((Store.putOrder_evolves s _ _).trans (Store.joinAdmission_evolves _ _)).trans
              (Store.list_evolves _ _)).trans (Store.admissionPass_evolves _)) _ _

theorem orderCancel_good (ws : List Word) (s : Store) : Answer.Good s (orderCancel ws s) := by
  simp only [orderCancel]
  split
  · exact .refuse_good _ _
  · split
    · exact .refuse_good _ _
    · split
      · exact .accept_good (Store.cancelAdmitting_evolves _ _) _ _
      · exact .accept_good (Store.cancelActive_evolves _ _ _) _ _
      · exact .refuse_good _ _
      · exact .refuse_good _ _
      · exact .refuse_good _ _

theorem audit_good (ws : List Word) (s : Store) : Answer.Good s (audit ws s) := by
  simp only [audit]
  split
  · exact .refuse_good _ _
  · have h := Store.askAudit_evolves s (Store.recordOf (Req.byte ws 2 0) (Req.byte ws 2 1)) .request false
    split <;> rename_i heq
    · exact .accept_good (.refl _) _ _
    · rw [heq] at h; exact .accept_good h _ _
    · exact .refuse_good _ _

theorem home_good (ws : List Word) (s : Store) : Answer.Good s (home ws s) := by
  simp only [home]
  split
  · exact .refuse_good _ _
  · split
    · exact .refuse_good _ _
    · split
      · exact .refuse_good _ _
      · exact .accept_good (Store.sendHome_evolves _ _) _ _

theorem laneAccept_good (ws : List Word) (s : Store) : Answer.Good s (laneAccept ws s) := by
  simp only [laneAccept]
  split
  · exact .refuse_good _ _
  · split
    · exact .refuse_good _ _
    · exact .accept_good (Store.acceptLane_evolves _ _ _) _ _

theorem laneRelease_good (ws : List Word) (s : Store) : Answer.Good s (laneRelease ws s) := by
  simp only [laneRelease]
  split
  · exact .refuse_good _ _
  · split
    · exact .refuse_good _ _
    · split
      · exact .refuse_good _ _
      · exact .accept_good (Store.releaseLane_evolves _ _ _) _ _

theorem panelRestart_good (ws : List Word) (s : Store) : Answer.Good s (panelRestart ws s) := by
  simp only [panelRestart]
  split
  · exact .refuse_good _ _
  · split
    · exact .refuse_good _ _
    · exact .accept_good (Store.restartPanel_evolves _ _) _ _

theorem unknown_good (ws : List Word) (s : Store) : Answer.Good s (unknown ws s) := .refuse_good _ _

end Owner

end Sys2Proof.Machine
end

