-- ==== Sys2Proof/Laws/Bounded.lean ====
section
/-! SUPPORT. What every chain of primitive updates keeps: the bounds of the job blocks' lists, and faces as R53
gives them. -/

namespace Sys2Proof.Machine

open Sys2Proof

/-- The sources of a notice list after a raise: the same, or the source joins the tail. -/
theorem raiseIn_sources (ns : List Notice) (src : Source) (f : Half) :
    ((Store.raiseIn ns src f).map fun n => n.source) =
      if src ∈ ns.map (fun n => n.source) then ns.map (fun n => n.source) else ns.map (fun n => n.source) ++ [src] := by
  induction ns with
  | nil => simp [Store.raiseIn]
  | cons n ns ih =>
    unfold Store.raiseIn
    by_cases h : n.source = src
    · simp [h]
    · have h' : ¬ src = n.source := fun e => h e.symm
      simp only [if_neg h, List.map_cons, ih, List.mem_cons, h', false_or]
      split <;> simp

theorem raiseIn_nodup {ns : List Notice} (h : (ns.map fun n => n.source).Nodup) (src : Source) (f : Half) :
    ((Store.raiseIn ns src f).map fun n => n.source).Nodup := by
  rw [raiseIn_sources]
  split
  · exact h
  · rename_i hn
    exact List.nodup_append.mpr ⟨h, by simp, fun a ha b hb => by
      simp only [List.mem_singleton] at hb
      subst hb
      exact fun e => hn (e ▸ ha)⟩

theorem list_nodup {s : Store} (h : s.writeBack.Nodup) (r : ImageRecord) : (s.list r).writeBack.Nodup := by
  unfold Store.list
  split
  · exact h
  · rename_i hn
    refine List.nodup_append.mpr ⟨h, by simp, fun a ha b hb => ?_⟩
    simp only [List.mem_singleton] at hb
    subst hb
    exact fun e => hn (by simpa using e ▸ ha)

theorem Prim.bounded {s t : Store} (p : Prim s t) (h : s.Bounded) : t.Bounded := by
  obtain ⟨hr, hn, hq, hs, hl⟩ := h
  cases p with
  | channel n c hc =>
    refine ⟨hr, hn, fun m => ?_, hs, hl⟩
    simp only [Store.channel, Store.putChannel_channels, look_put]
    split
    · rename_i e; exact hc (e.1 ▸ hq m)
    · exact hq m
  | face => exact ⟨hr, hn, hq, hs, hl⟩
  | panel => exact ⟨hr, hn, hq, hs, hl⟩
  | order => exact ⟨hr, hn, hq, hs, hl⟩
  | lane => exact ⟨hr, hn, hq, hs, hl⟩
  | carrier => exact ⟨hr, hn, hq, hs, hl⟩
  | article => exact ⟨hr, hn, hq, hs, hl⟩
  | batch => exact ⟨hr, hn, hq, hs, hl⟩
  | audit => exact ⟨hr, hn, hq, hs, hl⟩
  | auditList => exact ⟨hr, hn, hq, hs, hl⟩
  | admission => exact ⟨hr, hn, hq, hs, hl⟩
  | waiting => exact ⟨hr, hn, hq, hs, hl⟩
  | raise src f => exact ⟨hr, hn, hq, raiseIn_nodup hs _ _, hl⟩
  | list r =>
    refine ⟨by simpa using hr, by simpa using hn, fun m => ?_, by simpa using hs, list_nodup hl r⟩
    simpa [Store.channel] using hq m
  | pass => exact ⟨hr, hn, hq, hs, hl⟩
  | change g hg _ =>
    refine ⟨by simpa using hr, ?_, hq, hs, hl⟩
    have : (s.reservations.map g).map (fun r => r.number) = s.reservations.map fun r => r.number := by
      simp [Function.comp_def, hg]
    simpa [this] using hn
  | leave p =>
    exact ⟨Nat.le_trans (List.length_filter_le _ _) hr, hn.sublist (List.filter_sublist.map _), hq, hs, hl⟩
  | enter r hlt hne _ =>
    refine ⟨by simp; omega, ?_, hq, hs, hl⟩
    simp only [List.map_append, List.map_cons, List.map_nil]
    rw [List.nodup_append]
    refine ⟨hn, by simp, ?_⟩
    intro a ha b hb
    obtain ⟨x, hx, rfl⟩ := List.mem_map.mp ha
    simp only [List.mem_singleton] at hb
    subst hb
    exact hne x hx

theorem Evolves.bounded {s t : Store} (h : Evolves s t) (b : s.Bounded) : t.Bounded := by
  induction h with
  | refl => exact b
  | step _ p ih => exact p.bounded ih

/-! ## The faces -/

theorem face_powerUp_sound : Face.powerUp.Sound := ⟨nofun, fun _ => ⟨rfl, rfl, rfl⟩⟩

/-- A face of sound faces is sound, whatever its index. -/
theorem Store.FacesSound.face {s : Store} (h : s.FacesSound) (i : Nat) : (s.face i).Sound := by
  by_cases hi : i < 8
  · exact h.faces i hi
  · have : s.face i = Face.powerUp := by simp [Store.face, look, hi]
    rw [this]; exact face_powerUp_sound

theorem Prim.facesSound {s t : Store} (p : Prim s t) (h : s.FacesSound) : t.FacesSound := by
  cases p with
  | face i f hf =>
    refine ⟨fun j hj => ?_, h.presented⟩
    simp only [Store.face, Store.putFace, look_put]
    split
    · exact hf (h.face i)
    · exact h.faces j hj
  | change g _ hg =>
    refine ⟨h.faces, fun r hr f e => ?_⟩
    obtain ⟨x, hx, rfl⟩ := List.mem_map.mp hr
    exact (hg x f e).elim (h.presented x hx f) id
  | leave p => exact ⟨h.faces, fun r hr => h.presented r (List.mem_filter.mp hr).1⟩
  | enter r _ _ hr =>
    refine ⟨h.faces, fun x hx f e => ?_⟩
    rcases List.mem_append.mp hx with hx | hx
    · exact h.presented x hx f e
    · rw [List.mem_singleton.mp hx, hr] at e; exact nomatch e
  | list r => exact ⟨fun i hi => by simpa [Store.face] using h.faces i hi, by simpa using h.presented⟩
  | channel => exact ⟨h.faces, h.presented⟩
  | panel => exact ⟨h.faces, h.presented⟩
  | order => exact ⟨h.faces, h.presented⟩
  | lane => exact ⟨h.faces, h.presented⟩
  | carrier => exact ⟨h.faces, h.presented⟩
  | article => exact ⟨h.faces, h.presented⟩
  | batch => exact ⟨h.faces, h.presented⟩
  | audit => exact ⟨h.faces, h.presented⟩
  | auditList => exact ⟨h.faces, h.presented⟩
  | admission => exact ⟨h.faces, h.presented⟩
  | waiting => exact ⟨h.faces, h.presented⟩
  | raise => exact ⟨h.faces, h.presented⟩
  | pass => exact ⟨h.faces, h.presented⟩

/-- Every operation of the job blocks keeps the faces as R53 gives them. -/
theorem Evolves.facesSound {s t : Store} (h : Evolves s t) (b : s.FacesSound) : t.FacesSound := by
  induction h with
  | refl => exact b
  | step _ p ih => exact p.facesSound ih

end Sys2Proof.Machine
end

