-- ==== Sys2Proof/Laws/Standing.lean ====
section
/-! SUPPORT. What motion, placement, the allocation pass and the displays leave standing: one lemma for each operation,
up to the end of an event. -/

namespace Sys2Proof.Machine

open Sys2Proof

theorem map_put {α β : Type} {n : Nat} (g : α → β) (t : Vector α n) (i : Nat) (x : α) :
    (put t i x).map g = put (t.map g) i (g x) := by
  ext j hj
  simp only [put, Vector.getElem_map]
  rw [Vector.getElem_setIfInBounds hj, Vector.getElem_setIfInBounds hj]
  split <;> simp

/-- Writing back what is there changes nothing. -/
theorem put_look {α : Type} {n : Nat} (t : Vector α n) (d : α) (i : Nat) : put t i (look t d i) = t := by
  by_cases h : i < n
  · ext j hj
    simp only [put, look]
    rw [Vector.getElem_setIfInBounds hj]
    split
    · rename_i e; subst e; simp [hj]
    · rfl
  · exact put_outside _ _ _ (by omega)

theorem put_map_same {α β : Type} {n : Nat} (g : α → β) (t : Vector α n) (d : α) (i : Nat) (x : α)
    (h : g x = g (look t d i)) : (put t i x).map g = t.map g := by
  rw [map_put, h]
  rw [← map_put g t i (look t d i), put_look]

namespace Store

theorem standing_list (s : Store) (r : ImageRecord) : (s.list r).standing = s.standing := by
  unfold list; split <;> rfl

theorem standing_listAll (rs : List ImageRecord) (s : Store) : (s.listAll rs).standing = s.standing := by
  unfold listAll
  induction rs generalizing s with
  | nil => rfl
  | cons r rs ih => rw [List.foldl_cons, ih, standing_list]

theorem standing_raise (s : Store) (src : Source) (f : Half) : (s.raise src f).standing = s.standing := rfl

theorem standing_triggerPass (s : Store) : s.triggerPass.standing = s.standing := rfl

theorem standing_putFace (s : Store) (i : Nat) (f : Face) : (s.putFace i f).standing = s.standing := rfl

theorem standing_setFace (s : Store) (i : Nat) (f : Face) : (s.setFace i f).standing = s.standing := by
  simp only [setFace]; split <;> simp [standing_list, standing_putFace]

theorem standing_putChannel (s : Store) (n : Nat) (c : Channel) (h : c.standing = (s.channel n).standing) :
    (s.putChannel n c).standing = s.standing := by
  simp only [standing, putChannel]
  rw [put_map_same Channel.standing s.channels Channel.powerUp n c h]

theorem standing_setChannel (s : Store) (n : Nat) (c : Channel) (h : c.standing = (s.channel n).standing) :
    (s.setChannel n c).standing = s.standing := by
  simp only [setChannel]; split <;> simp [standing_list, standing_putChannel s n c h]

theorem standing_setCarrier (s : Store) (r : Nat) (c : Carrier) (h : c.standing = (s.carrier r).standing) :
    (s.setCarrier r c).standing = s.standing := by
  simp only [standing, setCarrier]
  rw [put_map_same Carrier.standing s.carriers Carrier.blank r c h]

theorem standing_updCarrier (s : Store) (r : Nat) (f : Carrier → Carrier)
    (h : (f (s.carrier r)).standing = (s.carrier r).standing) : (s.updCarrier r f).standing = s.standing := by
  rw [updCarrier, standing_list, standing_setCarrier _ _ _ h]

theorem standing_markFaceOpen (s : Store) (r : Nat) (v : Bool) : (s.markFaceOpen r v).standing = s.standing :=
  standing_updCarrier _ _ _ rfl

theorem standing_setReservationState (s : Store) (n : Nat) (st : ReservationState) :
    (s.setReservationState n st).standing = s.standing := rfl

theorem standing_raiseQuantity (s : Store) (n k : Nat) : (s.raiseQuantity n k).standing = s.standing := rfl

theorem standing_putPanel (s : Store) (p : Nat) (x : Panel) (h : x.standing = (s.panel p).standing) :
    (s.putPanel p x).standing = s.standing := by
  simp only [standing, putPanel]
  rw [put_map_same Panel.standing s.panels Panel.unfitted p x h]

theorem standing_setAudit (s : Store) (a : Nat) (x : AuditRecord) (h : x.standing = (s.audit a).standing) :
    (s.setAudit a x).standing = s.standing := by
  simp only [standing, setAudit]
  rw [put_map_same AuditRecord.standing s.audits .free a x h]

theorem standing_putOrder (s : Store) (k : Nat) (o : Option Order)
    (h : o.map Order.standing = (s.order k).map Order.standing) : (s.putOrder k o).standing = s.standing := by
  simp only [standing, putOrder]
  rw [put_map_same (fun o : Option Order => o.map Order.standing) s.orders none k o h]

/-! ## Folds -/

theorem standing_foldl {α : Type} (g : Store → α → Store) (h : ∀ s x, (g s x).standing = s.standing) (xs : List α)
    (s : Store) : (xs.foldl g s).standing = s.standing := by
  induction xs generalizing s with
  | nil => rfl
  | cons x xs ih => rw [List.foldl_cons, ih, h]

/-! ## Presentations -/

theorem standing_derive (s : Store) (i : Nat) : (s.derive i).standing = s.standing := standing_setFace _ _ _

theorem standing_deriveBoth (s : Store) (n : Nat) : (s.deriveBoth n).standing = s.standing := by
  rw [deriveBoth, standing_derive, standing_derive]

theorem standing_changeChannel (s : Store) (n : Nat) (c : Channel) (h : c.standing = (s.channel n).standing) :
    (s.changeChannel n c).standing = s.standing := by
  simp only [changeChannel]; split <;> simp [standing_deriveBoth, standing_setChannel s n c h]

theorem standing_presentAll (s : Store) (ns : List Nat) (f : Nat) : (s.presentAll ns f).standing = s.standing :=
  standing_foldl _ (fun s n => standing_setReservationState s n _) _ _

theorem standing_openWork (s : Store) (n f c : Nat) (ns : List Nat) : (s.openWork n f c ns).standing = s.standing := by
  simp only [openWork, standing_list, standing_derive, standing_markFaceOpen, standing_presentAll, standing_putFace]

theorem standing_auditPresented (s : Store) (a f : Nat) : (s.auditPresented a f).standing = s.standing := by
  unfold auditPresented
  split
  · rename_i e h
    exact standing_setAudit _ _ _ (by rw [h]; rfl)
  · rfl
  · rfl

theorem standing_openCount (s : Store) (n f c a : Nat) : (s.openCount n f c a).standing = s.standing := by
  simp only [openCount, standing_list, standing_derive, standing_auditPresented, standing_markFaceOpen,
    standing_putFace]

theorem standing_join (s : Store) (n f : Nat) (r : Reservation) : (s.join n f r).standing = s.standing := by
  simp only [join]
  rw [standing_list]
  split <;> simp only [standing_derive, standing_setReservationState, standing_putFace]

/-! ## Motion -/

theorem standing_placeCore (s : Store) (num : Nat) : (s.placeCore num).1.standing = s.standing := by
  unfold placeCore
  split
  · rfl
  · split
    · rfl
    · dsimp only
      split
      · exact standing_join _ _ _ _
      · split
        · rw [standing_setReservationState]; exact standing_setChannel _ _ _ rfl
        · split
          · split
            · rw [standing_setReservationState]; exact standing_setChannel _ _ _ rfl
            · rfl
          · rfl

theorem standing_countCore (s : Store) (n a c : Nat) : (s.countCore n a c).1.standing = s.standing := by
  simp only [countCore]
  split
  · split <;> exact standing_setChannel _ _ _ rfl
  · exact standing_setChannel _ _ _ rfl

theorem standing_retryCore (s : Store) (n : Nat) : (s.retryCore n).standing = s.standing := by
  simp only [retryCore]
  rw [standing_foldl _ standing_placeCore]
  split
  · exact standing_countCore _ _ _ _
  · rfl

theorem standing_serveFace (s : Store) (n p f : Nat) : (s.serveFace n p f).1.standing = s.standing := by
  simp only [serveFace]
  split
  · rfl
  · split
    · rw [standing_openWork]; exact standing_setChannel _ _ _ rfl
    · rw [standing_openCount]; exact standing_setChannel _ _ _ rfl

theorem standing_serveAt (s : Store) (n p : Nat) : (s.serveAt n p).standing = s.standing := by
  simp only [serveAt]
  split
  · rw [standing_retryCore, standing_serveFace, standing_serveFace]
  · rw [standing_serveFace, standing_serveFace]

theorem standing_sendMove (s : Store) (n p t : Nat) (h : (s.channel n).state = .idle) :
    (s.sendMove n p t).standing = s.standing :=
  standing_changeChannel _ _ _ (by simp [Channel.standing, h])

theorem idle_of_mayServe {s : Store} {n : Nat} (h : s.mayServe n = true) : (s.channel n).state = .idle := by
  simp only [mayServe, Bool.and_eq_true, beq_iff_eq] at h
  exact h.1.1.1.1

theorem standing_serviceCheck (s : Store) (n : Nat) : (s.serviceCheck n).standing = s.standing := by
  unfold serviceCheck
  split
  · rename_i h
    split
    · rfl
    · dsimp only; split
      · exact standing_serveAt _ _ _
      · exact standing_sendMove _ _ _ _ (idle_of_mayServe h)
  · rfl

theorem standing_serviceAfter (x : Store × Bool) (n : Nat) : (serviceAfter x n).standing = x.1.standing := by
  unfold serviceAfter; split
  · exact standing_serviceCheck _ _
  · rfl

theorem standing_place (s : Store) (num : Nat) : (s.place num).standing = s.standing := by
  unfold place; split
  · rfl
  · rw [standing_serviceAfter, standing_placeCore]

theorem standing_countRequest (s : Store) (n a c : Nat) : (s.countRequest n a c).standing = s.standing := by
  rw [countRequest, standing_serviceAfter, standing_countCore]

theorem standing_retry (s : Store) (n : Nat) : (s.retry n).standing = s.standing := by
  simp only [retry]
  rw [standing_foldl _ standing_place]
  split
  · exact standing_countRequest _ _ _ _
  · rfl

theorem standing_detach (s : Store) (n num : Nat) : (s.detach n num).1.standing = s.standing :=
  standing_setChannel _ _ _ rfl

theorem standing_afterRemoval (s : Store) (n : Nat) : (s.afterRemoval n).standing = s.standing := by
  rw [afterRemoval, standing_serviceCheck, standing_retry]

theorem standing_moveEntries (s : Store) (n f g : Nat) : (s.moveEntries n f g).standing = s.standing := by
  simp only [moveEntries]
  rw [standing_foldl]
  · exact standing_setChannel _ _ _ rfl
  · intro s e; split
    · exact standing_foldl _ (fun s n => standing_setReservationState s n _) _ _
    · rfl

theorem standing_tellHalted (s : Store) (n f : Nat) : (s.tellHalted n f).standing = s.standing := by
  unfold tellHalted; split
  · rfl
  · exact standing_moveEntries _ _ _ _

theorem standing_tellWorking (s : Store) (n f : Nat) : (s.tellWorking n f).standing = s.standing := by
  simp only [tellWorking, standing_serviceCheck, standing_retry]
  split
  · exact standing_moveEntries _ _ _ _
  · rfl

/-! ## The counting check -/

theorem audit_of_entry {s : Store} {a : Nat} {e : AuditEntry} (h : s.entry a = some e) : s.audit a = .listed e := by
  unfold entry at h
  split at h
  · rename_i h'; cases h; exact h'
  · cases h
  · cases h

theorem standing_countingCheck (s : Store) (n : Nat) : (s.countingCheck n).standing = s.standing := by
  unfold countingCheck; split
  · split
    · rfl
    · split
      · rfl
      · rename_i e he
        rw [standing_countRequest]
        exact standing_setAudit _ _ _ (by rw [audit_of_entry he]; rfl)
  · rfl

theorem standing_reportDrained (s : Store) (r : Nat) : (s.reportDrained r).standing = s.standing := by
  unfold reportDrained; split
  · rfl
  · split
    · rfl
    · rename_i e he
      split
      · rw [standing_countingCheck]
        exact standing_setAudit _ _ _ (by rw [audit_of_entry he]; rfl)
      · rfl

theorem standing_drainedCheck (s : Store) (r : Nat) : (s.drainedCheck r).standing = s.standing := by
  unfold drainedCheck; split
  · exact standing_reportDrained _ _
  · rfl

theorem standing_restart (s : Store) (a : Nat) : (s.restart a).standing = s.standing := by
  unfold restart; split
  · rfl
  · rename_i e he
    split
    · rw [standing_raise]
      exact standing_setAudit _ _ _ (by rw [audit_of_entry he]; rfl)
    · rfl

theorem standing_abandonCount (s : Store) (n a : Nat) : (s.abandonCount n a).standing = s.standing := by
  rw [abandonCount, standing_countingCheck, standing_restart]

/-! ## The allocation pass -/

/-- A change of what a slot that holds a count has reserved leaves its carrier standing. -/
theorem standing_changeSlot_reserved (s : Store) (q k : Nat) (h : 0 < (s.slot q).count) :
    (s.changeSlot q fun x => { x with reserved := x.reserved + k }).standing = s.standing := by
  refine standing_updCarrier _ _ _ ?_
  have hs : ∀ x : Slot, 0 < x.count → ({ x with reserved := x.reserved + k } : Slot).settle =
      { x with reserved := x.reserved + k } := by
    intro x hx
    unfold Slot.settle
    rw [if_neg (by simp only; omega)]
  have h' : 0 < (look (s.carrier (slotRecord q)).bays Slot.empty (slotBay q)).count := h
  simp only [reload, onBay, Carrier.standing, hs _ h']
  congr 1
  exact put_map_same _ _ Slot.empty _ _ rfl

theorem standing_takeClaim_pick (s : Store) (o l q k n : Nat) (h : 0 < (s.slot q).count) :
    (s.takeClaim (.pick o l) q k fun x => { x with reserved := x.reserved + n }).2.standing = s.standing := by
  unfold takeClaim; split
  · dsimp only
    rw [standing_changeSlot_reserved (s.raiseQuantity _ _) q n h, standing_raiseQuantity]
  · split
    · dsimp only
      rw [standing_place]
      exact standing_changeSlot_reserved _ q n h
    · rfl

theorem standing_claimPick (s : Store) (q o l a k : Nat) : (s.claimPick q o l a k).2.standing = s.standing := by
  unfold claimPick; split
  · rename_i h
    refine standing_takeClaim_pick _ _ _ _ _ _ ?_
    simp only [pickAllowed, inRange, available, Bool.and_eq_true, decide_eq_true_eq] at h
    obtain ⟨⟨_, hk⟩, hle⟩ := h
    have hle := of_decide_eq_true hle
    omega
  · rfl

theorem standing_modify (ls : List Line) (l : Nat) (f : Line → Line)
    (h : ∀ x, (f x).standing = x.standing) : (ls.modify l f).map Line.standing = ls.map Line.standing := by
  induction ls generalizing l with
  | nil => simp
  | cons x xs ih =>
    cases l with
    | zero => simp [h]
    | succ l => simp [ih]

theorem standing_putLine (s : Store) (k l : Nat) (f : Line → Line) (h : ∀ x, (f x).standing = x.standing) :
    (s.putLine k l f).standing = s.standing := by
  unfold putLine; split
  · rename_i o ho
    refine standing_putOrder _ _ _ ?_
    rw [ho]
    simp [Order.standing, standing_modify _ _ _ h]
  · rfl

theorem standing_lineClaimed (s : Store) (o l k : Nat) (w : Option Nat) :
    (s.lineClaimed o l k w).standing = s.standing := by
  simp only [lineClaimed, standing_list]
  split
  · exact standing_putLine s o l _ (fun _ => rfl)
  · exact standing_putLine s o l _ (fun _ => rfl)

theorem standing_serveLine (o l : Nat) (w : Option Nat) (n : Nat) (s : Store) :
    (serveLine o l w n s).1.standing = s.standing := by
  induction n generalizing s with
  | zero => rfl
  | succ n ih =>
    unfold serveLine
    split
    · rfl
    · split
      · rfl
      · split
        · rfl
        · rename_i x _ _ _ q _
          dsimp only
          have h := standing_claimPick s q o l x.article (min (s.available q) x.need)
          split <;> rename_i heq <;> rw [heq] at h
          · rw [ih, standing_lineClaimed, h]
          · exact h
          · exact h

theorem standing_serveEntry (s : Store) (e : Nat × Nat) : (s.serveEntry e).1.standing = s.standing := by
  unfold serveEntry
  split
  · rfl
  · split
    · split
      · exact standing_serveLine _ _ _ _ _
      · split
        · exact standing_serveLine _ _ _ _ _
        · rfl
    · exact standing_serveLine _ _ _ _ _

theorem standing_serveEntries (es : List (Nat × Nat)) (s : Store) : (serveEntries es s).standing = s.standing := by
  induction es generalizing s with
  | nil => rfl
  | cons e es ih =>
    simp only [serveEntries]; split
    · exact standing_serveEntry _ _
    · rw [ih, standing_serveEntry]

theorem standing_allocationPass (s : Store) : s.allocationPass.standing = s.standing := by
  unfold allocationPass; split
  · rw [standing_serveEntries]; rfl
  · rfl

/-! ## The end of an event -/

theorem standing_agreePanel (s : Store) (p : Nat) : (s.agreePanel p).standing = s.standing := by
  simp only [agreePanel]
  split
  · split
    · rfl
    · split
      · exact standing_putPanel _ _ _ rfl
      · rfl
  · rfl

theorem standing_agreeAll (s : Store) : s.agreeAll.standing = s.standing := standing_foldl _ standing_agreePanel _ _

/-- The end of an event leaves the store standing. -/
theorem standing_eventEnd (s : Store) : s.eventEnd.standing = s.standing := by
  rw [eventEnd, standing_agreeAll, standing_allocationPass]

end Store

end Sys2Proof.Machine
end

