-- ==== Sys2Proof/Laws/Finish.lean ====
section
/-! SUPPORT. What follows within every event (the take check, the Report Writer's choice, the arbiter): everything it
leaves as it is, and what it does with a notice, a listed record and a claim. -/

namespace Sys2Proof.Machine

open Sys2Proof

/-- What the end of an event may change: a claim is granted, the Intake takes an entry, a report write begins. -/
structure State.Settles (s t : State) : Prop where
  pending : t.pending = s.pending
  mem : t.mem = s.mem
  gateLines : t.gateLines = s.gateLines
  store : t.store = { s.store with notices := t.store.notices, writeBack := t.store.writeBack }
  condition : t.path.condition = s.path.condition
  posted : t.path.posted = s.path.posted
  inFlight : t.path.inFlight = s.path.inFlight
  ending : t.path.ending = s.path.ending
  marks : t.path.marks = s.path.marks
  probeSelect : t.path.probeSelect = s.path.probeSelect
  snapshot : t.path.snapshot = s.path.snapshot
  attention : t.path.attention = s.path.attention
  articlesDiscarded : t.path.articlesDiscarded = s.path.articlesDiscarded
  carriersDiscarded : t.path.carriersDiscarded = s.path.carriersDiscarded
  faultedRecords : t.path.faultedRecords = s.path.faultedRecords
  index : t.intake.index = s.intake.index
  busy : s.intake.state ≠ .waiting → t.intake = s.intake
  produce : t.report.produce = s.report.produce
  consume : t.report.consume = s.report.consume
  told : ∀ src f, s.told src f → t.told src f
  renewed : ∀ r, s.renewed r → t.renewed r
  owed : ∀ x, s.owed x → t.owed x
  granted : ∀ g, s.path.port = some g → t.path.port = some g
  notices : ∀ n ∈ t.store.notices, n ∈ s.store.notices
  listed : ∀ r ∈ t.store.writeBack, r ∈ s.store.writeBack

namespace State.Settles

theorem refl (s : State) : s.Settles s where
  pending := rfl
  mem := rfl
  gateLines := rfl
  store := rfl
  condition := rfl
  posted := rfl
  inFlight := rfl
  ending := rfl
  marks := rfl
  probeSelect := rfl
  snapshot := rfl
  attention := rfl
  articlesDiscarded := rfl
  carriersDiscarded := rfl
  faultedRecords := rfl
  index := rfl
  busy := fun _ => rfl
  produce := rfl
  consume := rfl
  told := fun _ _ h => h
  renewed := fun _ h => h
  owed := fun _ h => h
  granted := fun _ h => h
  notices := fun _ h => h
  listed := fun _ h => h

theorem trans {s t u : State} (h : s.Settles t) (k : t.Settles u) : s.Settles u where
  pending := k.pending.trans h.pending
  mem := k.mem.trans h.mem
  gateLines := k.gateLines.trans h.gateLines
  store := by rw [k.store, h.store]
  condition := k.condition.trans h.condition
  posted := k.posted.trans h.posted
  inFlight := k.inFlight.trans h.inFlight
  ending := k.ending.trans h.ending
  marks := k.marks.trans h.marks
  probeSelect := k.probeSelect.trans h.probeSelect
  snapshot := k.snapshot.trans h.snapshot
  attention := k.attention.trans h.attention
  articlesDiscarded := k.articlesDiscarded.trans h.articlesDiscarded
  carriersDiscarded := k.carriersDiscarded.trans h.carriersDiscarded
  faultedRecords := k.faultedRecords.trans h.faultedRecords
  index := k.index.trans h.index
  busy := fun hb => by rw [k.busy (by rw [h.busy hb]; exact hb), h.busy hb]
  produce := k.produce.trans h.produce
  consume := k.consume.trans h.consume
  told := fun src f x => k.told src f (h.told src f x)
  renewed := fun r x => k.renewed r (h.renewed r x)
  owed := fun x p => k.owed x (h.owed x p)
  granted := fun g p => k.granted g (h.granted g p)
  notices := fun n p => h.notices n (k.notices n p)
  listed := fun r p => h.listed r (k.listed r p)

/-- A new claim is owed, and changes nothing else. -/
theorem claim (s : State) (x : Transfer) : s.Settles (s.claim x) :=
  { refl s with
    owed := fun y h => by
      rcases h with h | h
      · exact .inl (List.mem_append_left _ h)
      · exact .inr h }

theorem intakeTake (s : State) : s.Settles s.intakeTake := by
  unfold State.intakeTake
  split
  · rename_i h
    have hw : s.intake.state = .waiting := by
      simp only [State.mayTakeEntry, Bool.and_eq_true, beq_iff_eq] at h
      exact h.1.1.1.1.1
    refine trans ?_ (claim _ _)
    exact { refl s with busy := fun hb => absurd hw hb }
  · exact refl s

theorem reportBegin (s : State) : s.Settles s.reportBegin := by
  unfold State.reportBegin
  split
  · rename_i h
    split
    · refine trans ?_ (claim _ _)
      exact { refl s with
        told := fun src f x => by
          rcases x with x | ⟨n, r, hn, _⟩
          · exact .inl x
          · rw [h.1] at hn; cases hn }
    · split
      · exact refl s
      · split
        · exact refl s
        · rename_i n rest hl
          refine trans ?_ (claim _ _)
          exact { refl s with
            store := rfl
            notices := fun m hm => by rw [hl]; exact List.mem_cons_of_mem _ hm
            told := fun src f x => by
              rcases x with ⟨m, hm, hs⟩ | ⟨m, r, hm, _⟩
              · rw [hl] at hm
                rcases List.mem_cons.mp hm with rfl | hm
                · exact .inr ⟨_, _, rfl, hs⟩
                · exact .inl ⟨m, hm, hs⟩
              · rw [h.1] at hm; cases hm }
  · exact refl s

/-- The port is granted to a claim that waits. -/
theorem grant (s : State) (x : Transfer) (hp : s.path.port = none) :
    s.Settles ({ s with path := { s.path with claims := s.path.claims.erase x } }.grantTo x) :=
  { refl s with
    renewed := fun r h => by
      rcases h with h | ⟨ws, h⟩
      · exact .inl h
      · rw [hp] at h; cases h
    owed := fun y h => by
      rcases h with h | h
      · by_cases e : y = x
        · exact .inr (by rw [e]; rfl)
        · exact .inl ((List.mem_erase_of_ne e).mpr h)
      · rw [hp] at h; cases h
    granted := fun g h => by rw [hp] at h; cases h }

theorem arbitrate (s : State) : s.Settles s.arbitrate := by
  unfold State.arbitrate
  split
  · exact refl s
  · rename_i hp
    have hp : s.path.port = none := by simpa using hp
    split
    · exact { refl s with
        renewed := fun r h => by
          rcases h with h | ⟨ws, h⟩
          · exact .inl h
          · rw [hp] at h; cases h
        owed := fun y h => by
          rcases h with h | h
          · exact .inl h
          · rw [hp] at h; cases h
        granted := fun g h => by rw [hp] at h; cases h }
    · split
      · exact grant s _ hp
      · split
        · exact refl s
        · split
          · exact refl s
          · rename_i r rest hl
            exact { refl s with
              store := rfl
              listed := fun m hm => by rw [hl]; exact List.mem_cons_of_mem _ hm
              renewed := fun x h => by
                rcases h with h | ⟨ws, h⟩
                · rw [hl] at h
                  rcases List.mem_cons.mp h with rfl | h
                  · exact .inr ⟨_, rfl⟩
                  · exact .inl h
                · rw [hp] at h; cases h
              owed := fun y h => by
                rcases h with h | h
                · exact .inl h
                · rw [hp] at h; cases h
              granted := fun g h => by rw [hp] at h; cases h }

end State.Settles

/-- What follows within an event settles. -/
theorem State.finish_settles (s : State) : s.Settles s.finish := by
  unfold State.finish
  split
  · exact ((State.Settles.intakeTake s).trans (State.Settles.reportBegin _)).trans (State.Settles.arbitrate _)
  · exact State.Settles.arbitrate s

/-- The store left standing is the same after what follows. -/
theorem State.Settles.standing {s t : State} (h : s.Settles t) : t.store.standing = s.store.standing := by
  rw [h.store]; rfl

/-- A raised flag is told. -/
theorem raiseIn_told (ns : List Notice) (src : Source) (f : Half) :
    ∃ n ∈ Store.raiseIn ns src f, n.source = src ∧ n.flags &&& f = f := by
  induction ns with
  | nil => exact ⟨⟨src, f⟩, by simp [Store.raiseIn], rfl, by simp⟩
  | cons n ns ih =>
    unfold Store.raiseIn
    split
    · refine ⟨⟨src, n.flags ||| f⟩, List.mem_cons_self, rfl, ?_⟩
      ext i hi
      simp only [BitVec.getElem_and, BitVec.getElem_or]
      cases n.flags[i] <;> cases f[i] <;> rfl
    · obtain ⟨m, hm, h⟩ := ih
      exact ⟨m, List.mem_cons_of_mem _ hm, h⟩

/-- A raise adds to what was told, and loses nothing. -/
theorem raiseIn_keeps {ns : List Notice} {src : Source} {g : Half} (src' : Source) (f : Half)
    (h : ∃ n ∈ ns, n.source = src ∧ n.flags &&& g = g) :
    ∃ n ∈ Store.raiseIn ns src' f, n.source = src ∧ n.flags &&& g = g := by
  induction ns with
  | nil => obtain ⟨n, hn, _⟩ := h; cases hn
  | cons m ms ih =>
    obtain ⟨n, hn, hs, hg⟩ := h
    unfold Store.raiseIn
    split
    · rename_i e
      rcases List.mem_cons.mp hn with rfl | hn
      · refine ⟨⟨src', n.flags ||| f⟩, List.mem_cons_self, by rw [← hs, e], ?_⟩
        have hbit : ∀ i (hi : i < 16), n.flags[i] = true ∨ g[i] = false := by
          intro i hi
          have := congrArg (fun b : Half => b[i]) hg
          simp only [BitVec.getElem_and] at this
          revert this
          cases n.flags[i] <;> cases g[i] <;> simp
        ext i hi
        simp only [BitVec.getElem_and, BitVec.getElem_or]
        rcases hbit i hi with h | h <;> rw [h] <;> cases f[i] <;> simp
      · exact ⟨n, List.mem_cons_of_mem _ hn, hs, hg⟩
    · rcases List.mem_cons.mp hn with rfl | hn
      · exact ⟨n, List.mem_cons_self, hs, hg⟩
      · obtain ⟨x, hx, h⟩ := ih ⟨n, hn, hs, hg⟩
        exact ⟨x, List.mem_cons_of_mem _ hx, h⟩

end Sys2Proof.Machine
end

