-- ==== Sys2Proof/Laws/Floor.lean ====
section
/-! SUPPORT. Floor commands: what a floor event does in a working part and in any other, displays that agree stay as they
are, and the window of a drive link. -/

namespace Sys2Proof.Machine

open Sys2Proof

/-! ## Displays -/

/-- A display does not differ from itself. -/
theorem firstDifference_self (d : Display) : firstDifference d d = none := by
  simp [firstDifference]

/-- The comparison of a panel that shows what its face wishes sends nothing. -/
theorem Store.agreePanel_still {s : Store} {p : Nat}
    (h : (s.panel p).line = .ready → (s.panel p).outstanding = none →
      (s.panel p).shown = none ∨ (s.panel p).shown = some (s.face p).desired) : s.agreePanel p = s := by
  unfold Store.agreePanel
  dsimp only
  split
  · rename_i hr
    rcases h hr.1 hr.2 with h | h
    · rw [h]
    · rw [h]; simp only [firstDifference_self]
  · rfl

/-- The comparisons change nothing where nothing is left to send. -/
theorem Store.agreeAll_still {s : Store} (h : s.Attended) : s.agreeAll = s := by
  have : ∀ l : List Nat, (∀ p ∈ l, p < 8) → l.foldl Store.agreePanel s = s := by
    intro l
    induction l with
    | nil => intro _; rfl
    | cons p l ih =>
      intro hl
      rw [List.foldl_cons, Store.agreePanel_still (h.displays p (hl p List.mem_cons_self))]
      exact ih fun q hq => hl q (List.mem_cons_of_mem _ hq)
  exact this _ fun p hp => List.mem_range.mp hp

/-- Where nothing is left due, the end of an event changes nothing. -/
theorem Store.eventEnd_still {s : Store} (h : s.Attended) : s.eventEnd = s := by
  unfold Store.eventEnd Store.allocationPass
  rw [h.pass]
  exact Store.agreeAll_still h

/-- `Attended` reads the panels, the desired displays and the mark of a due pass alone. -/
theorem Store.Attended.of_eq {s t : Store} (h : s.Attended) (hd : t.passDue = s.passDue) (hp : t.panels = s.panels)
    (hf : ∀ p, p < 8 → (t.face p).desired = (s.face p).desired) : t.Attended where
  pass := hd.trans h.pass
  displays p l a b := by
    have e : t.panel p = s.panel p := by rw [Store.panel, Store.panel, hp]
    rw [e] at a b ⊢
    rw [hf p l]
    exact h.displays p l a b

/-- `Attended` after a change of one panel that leaves it with nothing to send. -/
theorem Store.Attended.putPanel {s : Store} (h : s.Attended) {p : Nat} {x : Panel}
    (hx : x.line = .ready → x.outstanding = none → x.shown = none ∨ x.shown = some (s.face p).desired) :
    (s.putPanel p x).Attended where
  pass := h.pass
  displays q l a b := by
    by_cases e : q = p
    · subst e
      rw [Store.putPanel_panel_self _ l] at a b ⊢
      rw [show (s.putPanel q x).face q = s.face q from rfl]
      exact hx a b
    · rw [Store.putPanel_panel_other _ e] at a b ⊢
      rw [show (s.putPanel p x).face q = s.face q from rfl]
      exact h.displays q l a b

/-! ## Floor events -/

/-- What follows an event of a job block leaves the link as it is. -/
theorem State.Settles.keepsLink {s t : State} (h : s.Settles t) : s.KeepsLink t where
  mem := h.mem
  marks := h.marks
  posted := h.posted
  condition := h.condition
  index := h.index
  produce := h.produce
  consume := h.consume

/-- A floor command of a working part: the store it leaves, and what follows. -/
theorem State.floorEvent_ends {s : State} {c : Instr} {f : Store → Store} (he : exec c s = .next (s.floorEvent f))
    (hw : s.path.condition = .working) (x : Store) (hx : f s.store = x) :
    s.Ends c fun t => t.JobsAre x ∧ ({ s with store := x } : State).Settles t := by
  have hf : s.floorEvent f = State.finish { s with store := x } := by
    rw [State.floorEvent, if_pos (show s.working = true by simp [State.working, hw]), State.jobEvent, State.onStore, hx]
  have h := State.finish_settles { s with store := x }
  refine ⟨_, he, ?_, ?_, ?_⟩
  · rw [hf]; exact ⟨h.mem, h.marks, h.posted, h.condition, h.index, h.produce, h.consume⟩
  · rw [hf]; exact h.gateLines
  · rw [hf]; exact ⟨h.store, h⟩

/-- Before the part works a floor command changes nothing. -/
theorem State.floorEvent_idle {s : State} (f : Store → Store) (hw : s.path.condition ≠ .working) :
    s.floorEvent f = s := by
  rw [State.floorEvent, if_neg]
  simp [State.working, hw]

/-! ## Drive messages (R197) -/

/-- Of two values put at one place of a table the second stays. -/
theorem put_put {α : Type} {n : Nat} (t : Vector α n) (i : Nat) (x y : α) : put (put t i x) i y = put t i y := by
  ext j hj
  simp only [put, Vector.getElem_setIfInBounds]
  split <;> rfl

/-- Of two records put for one channel the second stays. -/
theorem Store.putChannel_putChannel (s : Store) (n : Nat) (c d : Channel) :
    (s.putChannel n c).putChannel n d = s.putChannel n d := by
  simp only [Store.putChannel, put_put]

/-- Putting the record a channel has changes nothing. -/
theorem Store.putChannel_channel (s : Store) (n : Nat) : s.putChannel n (s.channel n) = s := by
  simp only [Store.putChannel, Store.channel, put_look]

/-- Bytes that complete no report change the window alone. -/
theorem State.driveBytes_silent {n : Nat} (l : n < 4) : ∀ (bs : List Byte) (s : State),
    driveSilent (s.store.channel n).window bs = true → bs.foldl (State.driveByte n) s =
      { s with store := s.store.putChannel n { s.store.channel n with
        window := bs.foldl (fun w b => (driveGather w b).1) (s.store.channel n).window } }
  | [], s, _ => by
    simp only [List.foldl_nil]
    rw [Store.putChannel_channel]
  | b :: bs, s, h => by
    rw [driveSilent, Bool.and_eq_true, Option.isNone_iff_eq_none] at h
    have e : State.driveByte n s b = { s with store := s.store.putChannel n { s.store.channel n with
        window := (driveGather (s.store.channel n).window b).1 } } := by
      rw [State.driveByte, if_neg (by simp [h.1]), State.onStore, Store.driveByte]
      simp only [h.1]
    rw [List.foldl_cons, e, State.driveBytes_silent l bs]
    · simp only [Store.putChannel_channel_self _ l, Store.putChannel_putChannel, List.foldl_cons]
    · simpa only [Store.putChannel_channel_self _ l] using h.2

/-- A working part takes bytes that complete no report into the window of a fitted channel. -/
theorem State.driveEvent_silent {s : State} {n : Fin 4} {bs : List Byte} (hw : s.path.condition = .working)
    (hf : s.store.fitted n.val = true) (h : driveSilent (s.store.channel n).window bs = true) :
    s.driveEvent n bs = { s with store := s.store.putChannel n { s.store.channel n with
      window := bs.foldl (fun w b => (driveGather w b).1) (s.store.channel n).window } } := by
  rw [State.driveEvent, if_pos (by simp [State.working, hw, hf]), State.driveBytes_silent n.isLt _ _ h]

/-- A whole message at an empty window is one event: the report it makes is taken. -/
theorem State.driveEvent_message {s : State} {n : Fin 4} {k x : Byte} {r : DriveReport}
    (hw : s.path.condition = .working) (hf : s.store.fitted n.val = true) (he : (s.store.channel n).window = [])
    (hr : driveReport k x = some r) :
    s.driveEvent n (driveMessage k x) = s.floorEvent fun st => (st.takeReport n r).eventEnd := by
  have two := State.driveBytes_silent n.isLt [k, x] s (by rw [he]; rfl)
  rw [he] at two
  have e : driveGather [k, x] (driveCheck k x) = ([], some r) := by simp [driveGather, hr]
  have c : ({ s.store.channel n with window := [] } : Channel) = s.store.channel n := by rw [← he]
  rw [State.driveEvent, if_pos (by simp [State.working, hw, hf]), State.floorEvent,
    if_pos (by simp [State.working, hw]), show driveMessage k x = [k, x] ++ [driveCheck k x] from rfl,
    List.foldl_append, two, List.foldl_cons, List.foldl_nil, State.driveByte]
  simp only [Store.putChannel_channel_self _ n.isLt, List.foldl_cons, List.foldl_nil]
  rw [if_pos (by rw [show driveGather (driveGather [] k).1 x = ([k, x], none) from rfl, e]; rfl)]
  simp only [State.jobEvent, State.onStore, Store.driveByte, Store.putChannel_channel_self _ n.isLt,
    Store.putChannel_putChannel, show driveGather (driveGather [] k).1 x = ([k, x], none) from rfl, e, c,
    Store.putChannel_channel]

/-- An effect may be weakened. -/
theorem State.Ends.imp {s : State} {c : Instr} {e e' : State → Prop} (h : s.Ends c e) (k : ∀ t, e t → e' t) :
    s.Ends c e' := by
  obtain ⟨t, a, b, g, d⟩ := h
  exact ⟨t, a, b, g, k t d⟩

/-- A store with the same two lists adds nothing. -/
theorem State.Settles.addsNothing {s t : State} {x : Store} (h : ({ s with store := x } : State).Settles t)
    (hn : x.notices = s.store.notices) (hw : x.writeBack = s.store.writeBack) : s.AddsNothing t :=
  ⟨fun n k => hn ▸ h.notices n k, fun r k => hw ▸ h.listed r k⟩

end Sys2Proof.Machine
end

