-- ==== Sys2Proof/Laws/Memory.lean ====
section
/-! SUPPORT. The working memory: every operation keeps the canonical form, and what a byte reads after a write. -/

namespace Sys2Proof.Machine.Memory

open Sys2Proof Sys2Proof.Machine

theorem wf_cons (k : Nat) (v : Byte) (t : List Host.Cell) :
    wf ((k, v) :: t) = true ↔ v ≠ unwritten ∧ (∀ c ∈ t, k < c.1) ∧ wf t = true := by
  simp [wf, and_assoc]

/-- An address in a written memory is the written one or an old one. -/
theorem mem_write {m : List Host.Cell} {a : Nat} {v : Byte} {c : Host.Cell} (h : c ∈ write m a v) :
    c.1 = a ∨ c ∈ m := by
  induction m with
  | nil => unfold write at h; split at h <;> simp_all
  | cons x t ih =>
    obtain ⟨k, w⟩ := x
    unfold write at h
    split at h
    · split at h
      · exact .inr h
      · rcases List.mem_cons.mp h with rfl | h
        · exact .inl rfl
        · exact .inr h
    · split at h
      · split at h
        · exact .inr (List.mem_cons_of_mem _ h)
        · rcases List.mem_cons.mp h with rfl | h
          · exact .inl rfl
          · exact .inr (List.mem_cons_of_mem _ h)
      · rcases List.mem_cons.mp h with rfl | h
        · exact .inr List.mem_cons_self
        · rcases ih h with h | h
          · exact .inl h
          · exact .inr (List.mem_cons_of_mem _ h)

theorem wf_write {m : List Host.Cell} (h : wf m = true) (a : Nat) (v : Byte) : wf (write m a v) = true := by
  induction m with
  | nil =>
    unfold write; split
    · rfl
    · rename_i hv; simp [wf, hv]
  | cons x t ih =>
    obtain ⟨k, w⟩ := x
    obtain ⟨hw, hk, ht⟩ := (wf_cons k w t).mp h
    unfold write
    split
    · rename_i hak
      split
      · exact h
      · rename_i hv
        refine (wf_cons _ _ _).mpr ⟨hv, ?_, h⟩
        intro c hc
        rcases List.mem_cons.mp hc with rfl | hc
        · exact hak
        · exact Nat.lt_trans hak (hk c hc)
    · split
      · rename_i _ hak
        split
        · exact ht
        · rename_i hv
          exact (wf_cons _ _ _).mpr ⟨hv, fun c hc => hak ▸ hk c hc, ht⟩
      · rename_i h1 h2
        refine (wf_cons _ _ _).mpr ⟨hw, ?_, ih ht⟩
        intro c hc
        rcases mem_write hc with h3 | h3
        · omega
        · exact hk c h3

/-- An address below every listed one is not written. -/
theorem read_below {m : List Host.Cell} {a : Nat} (h : ∀ c ∈ m, a < c.1) : read m a = unwritten := by
  induction m with
  | nil => rfl
  | cons x t ih =>
    obtain ⟨k, w⟩ := x
    have : a < k := h (k, w) List.mem_cons_self
    unfold read
    rw [if_neg (by omega)]
    exact ih fun c hc => h c (List.mem_cons_of_mem _ hc)

/-- What a byte reads after a byte has been written. -/
theorem read_write {m : List Host.Cell} (h : wf m = true) (a b : Nat) (v : Byte) :
    read (write m a v) b = if b = a then v else read m b := by
  induction m with
  | nil =>
    unfold write
    split
    · rename_i hv; simp [read, hv]
    · simp [read, eq_comm]
  | cons x t ih =>
    obtain ⟨k, w⟩ := x
    obtain ⟨hw, hk, ht⟩ := (wf_cons k w t).mp h
    unfold write
    split
    · rename_i hak
      have hbelow : ∀ c ∈ (k, w) :: t, a < c.1 := by
        intro c hc
        rcases List.mem_cons.mp hc with rfl | hc
        · exact hak
        · exact Nat.lt_trans hak (hk c hc)
      split
      · rename_i hv
        by_cases hb : b = a
        · rw [if_pos hb, hb, read_below hbelow, hv]
        · rw [if_neg hb]
      · conv => lhs; unfold read
        by_cases hb : b = a
        · rw [if_pos hb.symm, if_pos hb]
        · rw [if_neg (fun e => hb e.symm), if_neg hb]
    · split
      · rename_i _ hak
        subst hak
        split
        · rename_i hv
          by_cases hb : b = a
          · rw [if_pos hb, hb, read_below hk, hv]
          · rw [if_neg hb]
            conv => rhs; unfold read
            rw [if_neg (fun e => hb e.symm)]
        · conv => lhs; unfold read
          by_cases hb : b = a
          · rw [if_pos hb.symm, if_pos hb]
          · rw [if_neg (fun e => hb e.symm), if_neg hb]
            conv => rhs; unfold read
            rw [if_neg (fun e => hb e.symm)]
      · rename_i h1 h2
        have hka : ¬ k = a := fun e => h2 e.symm
        have hl : read ((k, w) :: write t a v) b = if k = b then w else read (write t a v) b := by
          conv => lhs; unfold read
        have hr : read ((k, w) :: t) b = if k = b then w else read t b := by conv => lhs; unfold read
        rw [hl, hr, ih ht]
        by_cases hb : k = b
        · have : ¬ b = a := by omega
          simp [hb, this]
        · simp [hb]

theorem wf_writeByte {m : List Host.Cell} (h : wf m = true) (a : Nat) (en : Enables) (d : Word) (i : Nat) :
    wf (writeByte m a en d i) = true := by
  unfold writeByte; split
  · exact wf_write h _ _
  · exact h

theorem read_writeByte {m : List Host.Cell} (h : wf m = true) (a : Nat) (en : Enables) (d : Word) (i b : Nat) :
    read (writeByte m a en d i) b = if b = a + i ∧ en.getLsbD i = true then byteAt d i else read m b := by
  unfold writeByte
  by_cases he : en.getLsbD i = true
  · simp [he, read_write h]
  · simp [he]

theorem wf_writeMasked {m : List Host.Cell} (h : wf m = true) (a : Nat) (en : Enables) (d : Word) :
    wf (writeMasked m a en d) = true :=
  wf_writeByte (wf_writeByte (wf_writeByte (wf_writeByte h _ _ _ _) _ _ _ _) _ _ _ _) _ _ _ _

/-- What a byte reads after a word has been written under its byte enables: the enabled bytes of the word, and outside
them what it read before. -/
theorem read_writeMasked {m : List Host.Cell} (h : wf m = true) (a : Nat) (en : Enables) (d : Word) (b : Nat) :
    read (writeMasked m a en d) b =
      if a ≤ b ∧ b < a + 4 ∧ en.getLsbD (b - a) = true then byteAt d (b - a) else read m b := by
  have h0 := wf_writeByte h a en d 0
  have h1 := wf_writeByte h0 a en d 1
  have h2 := wf_writeByte h1 a en d 2
  unfold writeMasked
  rw [read_writeByte h2, read_writeByte h1, read_writeByte h0, read_writeByte h]
  by_cases hin : a ≤ b ∧ b < a + 4
  · obtain ⟨i, hi, rfl⟩ : ∃ i, i < 4 ∧ b = a + i := ⟨b - a, by omega, by omega⟩
    have hsub : a + i - a = i := by omega
    rw [hsub]
    match i, hi with
    | 0, _ => simp
    | 1, _ => simp
    | 2, _ => simp
    | 3, _ => simp
  · have e3 : ¬ b = a + 3 := by omega
    have e2 : ¬ b = a + 2 := by omega
    have e1 : ¬ b = a + 1 := by omega
    have e0 : ¬ b = a + 0 := by omega
    have e : ¬ (a ≤ b ∧ b < a + 4 ∧ en.getLsbD (b - a) = true) := fun x => hin ⟨x.1, x.2.1⟩
    simp only [e0, e1, e2, e3, e, false_and, if_false]

theorem wf_writeWord {m : List Host.Cell} (h : wf m = true) (a : Nat) (d : Word) : wf (writeWord m a d) = true :=
  wf_writeMasked h _ _ _

theorem wf_writeWords {m : List Host.Cell} (h : wf m = true) (a : Nat) (ws : List Word) :
    wf (writeWords m a ws) = true := by
  induction ws generalizing m a with
  | nil => exact h
  | cons w ws ih => exact ih (wf_writeWord h _ _) _

/-- Outside the written words memory reads as before. -/
theorem read_writeWords_outside {m : List Host.Cell} (h : wf m = true) (a : Nat) (ws : List Word) (b : Nat)
    (hb : b < a ∨ a + 4 * ws.length ≤ b) : read (writeWords m a ws) b = read m b := by
  induction ws generalizing m a with
  | nil => rfl
  | cons w ws ih =>
    simp only [List.length_cons] at hb
    unfold writeWords
    rw [ih (wf_writeWord h _ _) _ (by omega)]
    unfold writeWord
    rw [read_writeMasked h, if_neg (by omega)]

/-- The bytes of a word, put together, are the word. -/
theorem wordOfBytes_bytes (d : Word) :
    wordOfBytes (byteAt d 0).toNat (byteAt d 1).toNat (byteAt d 2).toNat (byteAt d 3).toNat = d := by
  apply BitVec.eq_of_toNat_eq
  have hd := d.isLt
  simp only [wordOfBytes, byteAt, BitVec.extractLsb'_toNat, Nat.shiftRight_eq_div_pow, BitVec.toNat_ofNat]
  omega

/-- Two memories that agree on four bytes agree on the word. -/
theorem readWord_congr {m n : List Host.Cell} {a : Nat} (h : ∀ i, i < 4 → read m (a + i) = read n (a + i)) :
    readWord m a = readWord n a := by
  unfold readWord
  rw [show read m a = read n a from h 0 (by omega), h 1 (by omega), h 2 (by omega), h 3 (by omega)]

/-- A written word reads back. -/
theorem readWord_writeWord {m : List Host.Cell} (h : wf m = true) (a : Nat) (d : Word) :
    readWord (writeWord m a d) a = d := by
  have hb : ∀ i, i < 4 → read (writeWord m a d) (a + i) = byteAt d i := by
    intro i hi
    unfold writeWord
    rw [read_writeMasked h, show a + i - a = i by omega, if_pos]
    refine ⟨by omega, by omega, ?_⟩
    match i, hi with
    | 0, _ => rfl
    | 1, _ => rfl
    | 2, _ => rfl
    | 3, _ => rfl
  unfold readWord
  rw [show read (writeWord m a d) a = byteAt d 0 from hb 0 (by omega), hb 1 (by omega), hb 2 (by omega),
    hb 3 (by omega), wordOfBytes_bytes]

/-- Written words read back. -/
theorem readWords_writeWords {m : List Host.Cell} (h : wf m = true) (a : Nat) (ws : List Word) :
    readWords (writeWords m a ws) a ws.length = ws := by
  induction ws generalizing m a with
  | nil => rfl
  | cons w ws ih =>
    have hw := wf_writeWord h a w
    have h0 : readWord (writeWords (writeWord m a w) (a + 4) ws) a = w := by
      rw [readWord_congr (n := writeWord m a w) fun i hi => read_writeWords_outside hw _ _ _ (by omega),
        readWord_writeWord h]
    have hr := ih hw (a + 4)
    unfold readWords at hr ⊢
    rw [List.length_cons, List.range_succ_eq_map, List.map_cons, List.map_map]
    have hf : (fun i => readWord (writeWords m a (w :: ws)) (a + 4 * i)) ∘ Nat.succ =
        fun i => readWord (writeWords (writeWord m a w) (a + 4) ws) (a + 4 + 4 * i) := by
      funext i
      show readWord (writeWords (writeWord m a w) (a + 4) ws) (a + 4 * (i + 1)) = _
      rw [show a + 4 * (i + 1) = a + 4 + 4 * i by omega]
    rw [hf, hr]
    exact congrArg (· :: ws) h0

end Sys2Proof.Machine.Memory
end

