-- ==== Sys2Proof/Laws/Path.lean ====
section
/-! SUPPORT. The rows of the upstream side: what each access comes to, window by window; and what the arbiter, the take
check and the Report Writer's choice leave alone. -/

namespace Sys2Proof.Machine

open Sys2Proof

/-! ## Windows -/

theorem mem_windows (w : Window) : w ∈ Config.windows := by cases w <;> decide

/-- Two windows of a sound configuration have no address in common (R185). -/
theorem windows_apart {c : Configuration} (h : windowsSound c = true) {w v : Window} (hne : w ≠ v) {a : Nat}
    (hw : c.covers w a = true) : c.covers v a = false := by
  simp only [windowsSound, Bool.and_eq_true, List.all_eq_true, Bool.or_eq_true, beq_iff_eq] at h
  have := h.1.2 w (mem_windows w) v (mem_windows v)
  simp only [hne, false_or, spansMeet, Bool.not_eq_true', Bool.and_eq_false_iff, decide_eq_false_iff_not] at this
  simp only [Configuration.covers, Bool.and_eq_true, decide_eq_true_eq] at hw
  simp only [Configuration.covers, Bool.and_eq_false_iff, decide_eq_false_iff_not]
  omega

theorem covers_base (c : Configuration) (w : Window) {o : Nat} (h : o < Config.windowSize w) :
    c.covers w (c.base w + o) = true := by
  simp only [Configuration.covers, Bool.and_eq_true, decide_eq_true_eq]
  omega

/-- An address of an image record lies in one of the five image windows. -/
theorem recordAt_window {c : Configuration} {a : Nat} (h : (recordAt c a).isSome = true) :
    ∃ w, w ≠ .request ∧ w ≠ .report ∧ w ≠ .control ∧ c.covers w a = true := by
  unfold recordAt at h
  split at h
  · exact ⟨.carrier, by decide, by decide, by decide, by assumption⟩
  · split at h
    · exact ⟨.article, by decide, by decide, by decide, by assumption⟩
    · split at h
      · exact ⟨.order, by decide, by decide, by decide, by assumption⟩
      · split at h
        · exact ⟨.lane, by decide, by decide, by decide, by assumption⟩
        · split at h
          · exact ⟨.status, by decide, by decide, by decide, by assumption⟩
          · cases h

namespace State

/-! ## Accesses -/

theorem treated_done {s : State} (h : s.path.ending ≠ some .retry) : s.treated = s.finish := if_neg h

theorem treated_retry {s : State} (h : s.path.ending = some .retry) : s.treated = s := if_pos h

theorem read_loading {s : State} {a : Word} {st : LoadStage} (hf : s.path.inFlight = none)
    (h : s.path.condition = .loading st) : exec (.upstreamRead a) s = .next (s.endAccess .retry) := by
  simp [exec, execUpstreamRead, upstreamReadAt, portalFree, hf, h]

theorem write_loading {s : State} {a : Word} {en : Enables} {d : Word} {st : LoadStage} (hf : s.path.inFlight = none)
    (h : s.path.condition = .loading st) : exec (.upstreamWrite a en d) s = .next (s.endAccess .retry) := by
  simp [exec, execUpstreamWrite, upstreamWriteAt, portalFree, hf, h]

theorem readAt_working {s : State} (a : Nat) (hf : s.path.inFlight = none) (h : s.path.condition = .working) :
    s.upstreamReadAt a = (s.decodeRead a).treated := by
  simp [upstreamReadAt, portalFree, hf, h]

theorem readAt_passOnly {s : State} (a : Nat) (hf : s.path.inFlight = none) (h : s.path.condition = .passOnly) :
    s.upstreamReadAt a = (s.passRead a).treated := by
  simp [upstreamReadAt, portalFree, hf, h]

theorem writeAt_working {s : State} (a : Nat) {en : Enables} (d : Word) (hf : s.path.inFlight = none)
    (h : s.path.condition = .working) (he : en ≠ 0) : s.upstreamWriteAt a en d = (s.decodeWrite a en d).treated := by
  have he' : ¬ en = 0#4 := he
  simp [upstreamWriteAt, portalFree, hf, h, he']

theorem writeAt_passOnly {s : State} (a : Nat) {en : Enables} (d : Word) (hf : s.path.inFlight = none)
    (h : s.path.condition = .passOnly) (he : en ≠ 0) :
    s.upstreamWriteAt a en d = (s.postWith a en d id).treated := by
  have he' : ¬ en = 0#4 := he
  simp [upstreamWriteAt, portalFree, hf, h, he']

theorem writeAt_empty {s : State} (a : Nat) (d : Word) (hf : s.path.inFlight = none)
    (h : s.path.condition = .working) : s.upstreamWriteAt a 0 d = (s.endAccess .done).finish := by
  simp [upstreamWriteAt, portalFree, hf, h, treated, endAccess]

theorem postWith_room {s : State} (a : Nat) (en : Enables) (d : Word) (watch : State → State)
    (h : s.path.posted.length < Config.postedCapacity) : s.postWith a en d watch = watch (s.post a en d) := by
  have : s.bufferFull = false := by simpa [bufferFull] using h
  simp [postWith, this]

theorem postWith_full {s : State} (a : Nat) (en : Enables) (d : Word) (watch : State → State)
    (h : Config.postedCapacity ≤ s.path.posted.length) : s.postWith a en d watch = s.endAccess .retry := by
  have : s.bufferFull = true := by simpa [bufferFull] using h
  simp [postWith, this]

theorem decodeWrite_request {s : State} {a : Nat} (en : Enables) (d : Word)
    (h : s.store.cfg.covers .request a = true) : s.decodeWrite a en d = s.writeRequest a en d := by
  simp [decodeWrite, h]

theorem decodeWrite_report {s : State} {a : Nat} (en : Enables) (d : Word) (hw : windowsSound s.store.cfg = true)
    (h : s.store.cfg.covers .report a = true) : s.decodeWrite a en d = s.refuseWrite a := by
  simp [decodeWrite, h, windows_apart hw (by decide : Window.report ≠ .request) h]

theorem decodeWrite_control {s : State} {a : Nat} (en : Enables) (d : Word) (hw : windowsSound s.store.cfg = true)
    (h : s.store.cfg.covers .control a = true) : s.decodeWrite a en d = s.writeControl a en d := by
  simp [decodeWrite, h, windows_apart hw (by decide : Window.control ≠ .request) h,
    windows_apart hw (by decide : Window.control ≠ .report) h]

theorem decodeWrite_image {s : State} {a : Nat} (en : Enables) (d : Word) (hw : windowsSound s.store.cfg = true)
    (h : (recordAt s.store.cfg a).isSome = true) : s.decodeWrite a en d = s.refuseWrite a := by
  obtain ⟨w, h1, h2, h3, hc⟩ := recordAt_window h
  simp [decodeWrite, h, windows_apart hw h1 hc, windows_apart hw h2 hc, windows_apart hw h3 hc]

theorem decodeWrite_outside {s : State} {a : Nat} (en : Enables) (d : Word)
    (h : ∀ w, s.store.cfg.covers w a = false) : s.decodeWrite a en d = s.postWith a en d id := by
  simp [decodeWrite, recordAt, h]

/-- The words of the control window that the processor does not write (R190). -/
theorem writeControl_refused {s : State} {a : Nat} (en : Enables) (d : Word) (h : 12 ≤ a - s.base .control) :
    s.writeControl a en d = s.refuseWrite a := by
  have h0 : ¬ (a - s.base .control) / 4 * 4 = Config.offConsume := by unfold Config.offConsume; omega
  have h1 : ¬ (a - s.base .control) / 4 * 4 = Config.offAttention := by unfold Config.offAttention; omega
  have h2 : ¬ (a - s.base .control) / 4 * 4 = Config.offProbeSelect := by unfold Config.offProbeSelect; omega
  simp only [writeControl, h0, h1, h2, if_false]

/-! ## What follows leaves alone -/

theorem arbitrate_refusals (s : State) : s.arbitrate.path.refusals = s.path.refusals := by
  unfold arbitrate; (repeat' split) <;> rfl

theorem arbitrate_report (s : State) : s.arbitrate.report = s.report := by
  unfold arbitrate; (repeat' split) <;> rfl

theorem arbitrate_intake (s : State) : s.arbitrate.intake = s.intake := by
  unfold arbitrate; (repeat' split) <;> rfl

theorem arbitrate_notices (s : State) : s.arbitrate.store.notices = s.store.notices := by
  unfold arbitrate; (repeat' split) <;> rfl

theorem intakeTake_report (s : State) : s.intakeTake.report = s.report := by
  unfold intakeTake; split <;> rfl

theorem intakeTake_store (s : State) : s.intakeTake.store = s.store := by
  unfold intakeTake; split <;> rfl

/-- The refusal record after what follows: as it was, or taken by the PATH notice whose report write begins (R181). -/
theorem finish_refusals (s : State) :
    s.finish.path.refusals = s.path.refusals ∨
      (s.finish.path.refusals = ⟨none, 0⟩ ∧
        ∃ n, n.source = .path ∧ s.finish.report.writing = some (.notice n s.path.refusals)) := by
  have tk : s.intakeTake.path.refusals = s.path.refusals := by unfold intakeTake; split <;> rfl
  unfold finish
  rw [arbitrate_refusals, arbitrate_report]
  split
  · rw [← tk]
    generalize s.intakeTake = v
    unfold reportBegin
    split
    · split
      · exact .inl rfl
      · split
        · exact .inl rfl
        · split
          · exact .inl rfl
          · rename_i n rest _
            by_cases hn : n.source = .path
            · right; simp [beginNotice, claim, hn, takenRecord]
            · left; simp [beginNotice, claim, hn]
    · exact .inl rfl
  · exact .inl rfl

/-! ## No report write is left to be begun -/

/-- The Report Writer's choice leaves no write to be begun. -/
theorem reportBegin_begun (s : State) : s.reportBegin.ReportsBegun := by
  unfold reportBegin
  split
  · split
    · intro _ hw; cases hw
    · rename_i hc
      split
      · rename_i hr; exact fun _ _ _ => ⟨hc, .inl hr⟩
      · split
        · rename_i hn; exact fun _ _ _ => ⟨hc, .inr hn⟩
        · intro _ hw; cases hw
  · rename_i h
    intro _ hw hu
    exact absurd ⟨hw, by simpa [hasRoom] using hu⟩ h

theorem ReportsBegun.arbitrate {s : State} (h : s.ReportsBegun) : s.arbitrate.ReportsBegun := by
  unfold ReportsBegun unread returning at *
  rw [arbitrate_report, arbitrate_intake, arbitrate_notices, (Settles.arbitrate s).condition]
  exact h

/-- What follows within an event leaves no report write to be begun. -/
theorem finish_begun (s : State) : s.finish.ReportsBegun := by
  unfold finish
  split
  · exact (reportBegin_begun _).arbitrate
  · rename_i h
    refine ReportsBegun.arbitrate fun hc => absurd ?_ h
    simp [working, hc]

/-- With no report write left to be begun, what follows leaves the refusal record. -/
theorem finish_keepsRefusals {s : State} (h : s.ReportsBegun) : s.finish.path.refusals = s.path.refusals := by
  have tk : s.intakeTake.path.refusals = s.path.refusals := by unfold intakeTake; split <;> rfl
  unfold finish
  rw [arbitrate_refusals]
  split
  · rename_i hw
    have hc : s.path.condition = .working := by simpa [working] using hw
    have hb : s.intakeTake.report.writing = none ∧ s.intakeTake.hasRoom = true →
        s.intakeTake.report.completion = none ∧
          (s.intakeTake.returning = true ∨ s.intakeTake.store.notices = []) := by
      rintro ⟨w, u⟩
      rw [intakeTake_report] at w
      have hu : s.unread < Config.reportEntries := by
        simpa [hasRoom, unread, intakeTake_report] using u
      obtain ⟨hn, hr⟩ := h hc w hu
      refine ⟨by rw [intakeTake_report]; exact hn, ?_⟩
      rw [intakeTake_store]
      refine hr.imp_left fun e => ?_
      unfold intakeTake
      split
      · rename_i t
        simp only [mayTakeEntry, Bool.and_eq_true, beq_iff_eq] at t
        simp [returning, t.1.1.1.1.1] at e
      · exact e
    rw [← tk]
    generalize s.intakeTake = v at hb
    unfold reportBegin
    split
    · rename_i g
      obtain ⟨hn, hr⟩ := hb g
      rcases hr with hr | hr <;> simp [hn, hr]
    · rfl
  · rfl

/-- A command that only changes the Path Unit, and what follows it, leave memory, the floor's lines and every record. -/
theorem onlyPath_finish {s u : State} (hm : u.mem = s.mem) (hg : u.gateLines = s.gateLines) (hs : s.SameJobs u) :
    s.OnlyPath u.finish := by
  have h := finish_settles u
  refine ⟨h.mem.trans hm, h.gateLines.trans hg, ?_⟩
  unfold SameJobs at *
  rw [h.store, hs]

/-- A flag that an event raises is told after it. -/
theorem told_finish {u : State} {ns : List Notice} {src : Source} {f : Half}
    (h : u.store.notices = Store.raiseIn ns src f) : u.finish.told src f :=
  (finish_settles u).told _ _ (.inl (h ▸ raiseIn_told _ _ _))

end State

end Sys2Proof.Machine
end

