-- ==== Sys2Proof/Laws/Requests.lean ====
section
/-! SUPPORT. The request rows: an entry that is read is taken and answered in one event, whatever its owner does. -/

namespace Sys2Proof.Machine

open Sys2Proof

/-- While the Intake is RETURNING and a claim of its own waits, what follows an event grants the port and may begin a
pending completion, and leaves the store as it is. -/
theorem State.finish_store_of_returning {u : State} {e : Nat} {ws : List Word} {x : Transfer}
    (hi : u.intake.state = .returning e ws) (hx : x ∈ u.path.claims) (hc : State.classOf x = 3) :
    u.finish.store = u.store := by
  have hret : u.returning = true := by simp [State.returning, hi]
  have htake : u.intakeTake = u := by
    unfold State.intakeTake State.mayTakeEntry
    simp [hi]
  have harb : ∀ v : State, x ∈ v.path.claims → v.arbitrate.store = v.store := by
    intro v hv
    have hb : v.bestClaim ≠ none := by
      simp only [State.bestClaim]
      have h3 : v.oldestOf 3 ≠ none := by
        simp only [State.oldestOf, ne_eq, List.find?_eq_none, beq_iff_eq]
        exact fun h => h x hv hc
      cases h2 : v.oldestOf 2 <;> cases h3' : v.oldestOf 3 <;> simp_all
    unfold State.arbitrate
    split
    · rfl
    · split
      · rfl
      · split
        · rfl
        · rename_i h; exact absurd h hb
  unfold State.finish
  split
  · rw [htake]
    have hrb : u.reportBegin.store = u.store ∧ x ∈ u.reportBegin.path.claims := by
      unfold State.reportBegin
      split
      · split
        · exact ⟨rfl, List.mem_append_left _ hx⟩
        · exact ⟨rfl, hx⟩
      · exact ⟨rfl, hx⟩
    rw [harb _ hrb.2, hrb.1]
  · exact harb _ hx

/-- A request row on the entry it reads: the owner's answer, and the entry taken with it (R173 to R175). -/
theorem State.requestRow_taken {s : State} {e k : Nat} (h : s.Reads e k) {isKind : Nat → Bool} (hk : isKind k = true)
    (f : List Word → Store → Answer) :
    s.Answered (s.requestRow isKind f) e (f (s.entryWords e) s.store).status (f (s.entryWords e) s.store).data ∧
      (s.requestRow isKind f).store = (f (s.entryWords e) s.store).store := by
  have hans : answerOf f (s.entryWords e) s.store = f (s.entryWords e) s.store := by
    simp [answerOf, h.format]
  have hrow : s.requestRow isKind f = (s.takeEntry e (f (s.entryWords e) s.store)).finish := by
    unfold State.requestRow
    simp only [h.port, h.reading, h.kind, hk, hans]
    simp
  generalize f (s.entryWords e) s.store = ans at hrow
  rw [hrow]
  have hs := State.finish_settles (s.takeEntry e ans)
  refine ⟨⟨?_, ?_, ?_, hs.posted, hs.mem, hs.gateLines⟩, ?_⟩
  · rw [hs.busy (by simp [State.takeEntry, State.claim])]
    simp [State.takeEntry, State.claim]
  · exact hs.owed _ (.inl (by simp [State.takeEntry, State.claim, Req.giveBack]))
  · intro e'
    rw [hs.marks]
    show look (put s.path.marks e false) false e' = _
    rw [look_put]
    by_cases he : e = e'
    · subst he; simp [show e < 32 from h.entry]
    · have : ¬ e' = e := fun h => he h.symm
      simp [he, this]
  · rw [State.finish_store_of_returning (e := e) (x := .giveBack e (Req.giveBack (s.entryWords e))) (ws := completionWords
      (Req.kind (s.entryWords e)) ans.status (Req.tag (s.entryWords e)) s.intake.index ans.data)]
    · rfl
    · simp [State.takeEntry, State.claim]
    · simp [State.takeEntry, State.claim]
    · rfl

/-- An entry whose format code is not the request format is refused BAD_FIELD, whatever its kind (R174). -/
theorem State.requestRow_badFormat {s : State} {e : Nat} (he : e < Config.requestEntries)
    (hp : s.path.port = some ⟨.entryRead e, false⟩) (hr : s.intake.state = .reading e) {isKind : Nat → Bool}
    (hk : isKind (Req.kind (s.entryWords e)) = true) (hf : Req.format (s.entryWords e) ≠ Config.requestFormat)
    (f : List Word → Store → Answer) :
    s.Answered (s.requestRow isKind f) e .badField [] ∧ (s.requestRow isKind f).store = s.store := by
  have hans : answerOf f (s.entryWords e) s.store = .refuse s.store .badField := by simp [answerOf, hf]
  have hrow : s.requestRow isKind f = (s.takeEntry e (.refuse s.store .badField)).finish := by
    unfold State.requestRow
    simp only [hp, hr, hk, hans]
    simp
  rw [hrow]
  generalize ha : Answer.refuse s.store .badField = ans
  have hs := State.finish_settles (s.takeEntry e ans)
  have h1 : ans.status = .badField := by rw [← ha]; rfl
  have h2 : ans.data = [] := by rw [← ha]; rfl
  have h3 : ans.store = s.store := by rw [← ha]; rfl
  refine ⟨⟨?_, ?_, ?_, hs.posted, hs.mem, hs.gateLines⟩, ?_⟩
  · rw [hs.busy (by simp [State.takeEntry, State.claim])]
    simp [State.takeEntry, State.claim, h1, h2]
  · exact hs.owed _ (.inl (by simp [State.takeEntry, State.claim, Req.giveBack]))
  · intro e'
    rw [hs.marks]
    show look (put s.path.marks e false) false e' = _
    rw [look_put]
    by_cases hee : e = e'
    · subst hee; simp [show e < 32 from he]
    · have : ¬ e' = e := fun h => hee h.symm
      simp [hee, this]
  · rw [State.finish_store_of_returning (e := e) (x := .giveBack e (Req.giveBack (s.entryWords e))) (ws := completionWords
      (Req.kind (s.entryWords e)) ans.status (Req.tag (s.entryWords e)) s.intake.index ans.data)]
    · simp [State.takeEntry, State.claim, h3]
    · simp [State.takeEntry, State.claim]
    · simp [State.takeEntry, State.claim]
    · rfl

end Sys2Proof.Machine
end

