-- ==== Sys2Proof/WellFormed.lean ====
section
/-! DEFINITION. Which operands a command of the table can have. A command that is refused here is no event of that
row; exec still gives it the meaning its operands have by the rules (log 4). -/

namespace Sys2Proof

open Machine

/-- A byte that begins nothing when it is taken with no message pending (R83, R84). -/
def beginsNothing (b : Byte) : Bool :=
  b != Code.byteAck && b != Code.byteNak && b != Code.byteIdent && b != Code.byteBreak && (Code.keyOf b).isNone

/-- The checks of each row's operands. -/
def Instr.wellFormed : Instr → Bool
  | .powerUp _ => true
  | .configurationCheck => true
  | .articleImageLoad => true
  | .carrierImageLoad => true
  | .startUpLoadEnd => true
  | .linkReset => true
  -- an access is a word address (R184)
  | .upstreamRead a => a.toNat % 4 == 0
  | .passedReadEnd => true
  | .upstreamWrite a _ _ => a.toNat % 4 == 0
  -- the OWNER byte is enabled (R171)
  | .ownerWrite _ en _ => en.getLsbD 0
  | .consumeIndexWrite _ _ => true
  | .attentionEnableWrite _ _ => true
  | .probeSelectWrite _ _ => true
  | .probeSnapshot => true
  -- word 1 to 7 (R191)
  | .probeDataRead w => w.val != 0
  | .downstreamGrant => true
  | .postedWriteEnd => true
  | .writeBackBurstEnd => true
  | .intakeTake => true
  | .articleDefine => true
  | .articleRemove => true
  | .receive => true
  | .orderOpen => true
  | .orderCancel => true
  | .audit => true
  | .slotBlock => true
  | .slotUnblock => true
  | .home => true
  | .laneAccept => true
  | .laneRelease => true
  | .panelRestart => true
  | .unknownKind => true
  | .giveBackEnd => true
  | .intakeIndexWriteEnd => true
  | .reportWriteBegin => true
  | .reportEntryWriteEnd => true
  | .produceIndexWriteEnd => true
  -- position 0..23 and code 1..15 (R40, R197)
  | .arrived _ p => p.toNat ≤ 23
  | .stopped _ p => p.toNat ≤ 23
  | .homed _ _ => true
  | .fault _ c => 1 ≤ c.toNat && c.toNat ≤ 15
  -- bytes that make no report (R197)
  | .driveMessageDiscarded _ bs => !bs.isEmpty && driveSilent [] bs
  | .gateOpens _ => true
  | .gateCloses _ => true
  | .deadline _ => true
  | .ack _ => true
  | .nak _ => true
  | .ident _ _ _ => true
  | .keyMake _ _ => true
  | .keyBreak _ _ _ => true
  -- one of the failures or both (R85)
  | .parityFramingFailure _ p f => p || f
  | .answerTimer _ => true
  | .displayAgreement _ => true
  | .bayKeyMake _ => true
  | .plus _ => true
  | .minus _ => true
  | .plusMinusBreak _ => true
  | .bayKeyBreak _ => true
  | .scanTimer _ _ _ => true
  | .arrivalTimer _ => true
  -- a byte that begins nothing (R84)
  | .messageAbandoned _ b => beginsNothing b
  | .controlWordWriteEnd => true

end Sys2Proof
end

