-- ==== Sys2Proof/Tests/Slice0.lean ====
section
/-! SUPPORT. Tests: ill-formed operands are refused, each family of commands does on a small part what the spec says,
and the hypotheses of each statement are met by a state (test_applies_<statement>). -/

namespace Sys2Proof.Tests

-- One test at a time: each thread that waits for the kernel holds a stack.
set_option Elab.async false

open Sys2Proof Sys2Proof.Machine

/-! ## A small working part -/

/-- A configuration within every range, with every place fitted. -/
def cfg : Configuration where
  bases := #v[0x1000, 0x1800, 0x2000, 0x4000, 0x6000, 0x8000, 0x9000, 0x9400]
  carousels := Vector.replicate 4 ⟨true, 8, #v[5, 5, 5], 8, 20⟩
  loadLimit := 3000
  imbalanceLimit := 400
  panelRate := 1
  repeatByte := 18
  lanes := Vector.replicate 16 ⟨true, 32, 0⟩
  scanInterval := 200
  settleBand := 5
  emptyThreshold := 20
  arrivalWindow := 5
  attention := 1

/-- What a panel shows at an idle face in service. -/
def shown : Display := ⟨true, .blank, #v[BayDisplay.off, BayDisplay.off, BayDisplay.off]⟩

/-- Every carousel IDLE at 0 with its gate closed, every panel READY and agreed, every lane FREE. -/
def store : Store :=
  { Store.powerUp with
    cfg := cfg
    articles := put Store.powerUp.articles 3 (some ⟨77, 2, 90, 4⟩)
    channels := Vector.replicate 4 { Channel.powerUp with state := .idle, position := some 0, gate := .closed }
    faces := Vector.replicate 8 { Face.powerUp with state := .idle, desired := shown }
    panels := Vector.replicate 8 { Panel.unfitted with line := .ready, shown := some shown }
    lanes := Vector.replicate 16 { Lane.powerUp 0 with state := .free, scan := some 200 } }

/-- The part at work on that store, the port free. -/
def part : State :=
  { State.reset with
    path := { PathUnit.powerUp with condition := .working, port := none, claims := [] }
    store := store }

/-- The part with another store, another path, or a transfer on the port. -/
def withStore (f : Store → Store) : State := { part with store := f store }
def withPath (f : PathUnit → PathUnit) : State := { part with path := f part.path }
def carrying (x : Transfer) : State := withPath fun p => { p with port := some ⟨x, false⟩ }
def withChannel (f : Channel → Channel) : State := withStore fun s => s.putChannel 0 (f (s.channel 0))
def withPanel (f : Panel → Panel) : State := withStore fun s => s.putPanel 0 (f (s.panel 0))
def withLane (f : Lane → Lane) : State := withStore fun s => s.putLane 0 (f (s.lane 0))
def withOrder (o : Order) : State := withStore fun s => s.putOrder 0 (some o)

/-- The part as the read of request entry 0 returns a kind code and parameters. -/
def asking (kind : Nat) (ps : List Word) (f : Store → Store) : State :=
  { part with
    mem := Memory.writeWords [] 0x1000 (wordOfBytes 1 kind 0x10 0 :: 0xAA :: ps)
    path := { part.path with port := some ⟨.entryRead 0, false⟩ }
    intake := ⟨0, .reading 0⟩
    store := f store }

/-- Whether a command answers a next state with a property. -/
def gives (c : Instr) (s : State) (f : State → Bool) : Bool :=
  match exec c s with
  | .next t => f t
  | .fault _ => false
  | .refused _ => false

/-- A loaded slot 0 with four tyres of article 3. -/
def stocked (s : Store) : Store := s.changeSlot 0 fun q => { q with count := 4, article := some 3, lotWeek := some 9 }

/-- An order of two lines of article 3, one tyre each. -/
def order (st : OrderState) (lane : Option Nat) : Order :=
  ⟨0xAA, 1, st, 0, none, lane, [⟨3, 1, false, 0, 0, none⟩, ⟨3, 1, false, 0, 0, none⟩]⟩

/-- Face 0 presents carrier 0 with one item at the head of bay 0, the key of bay 0 held. -/
def presenting (it : Item) (kind : PresentationKind) (bay1 : List Item) (s : Store) : Store :=
  let s1 := s.putFace 0 { s.face 0 with
    state := .presenting, carrier := some 0, kind := some kind, bays := #v[[it], bay1, []], held := [0, 1]
    selected := some 0 }
  let s2 := s1.derive 0
  s2.putPanel 0 { s2.panel 0 with shown := some (s2.face 0).desired }

/-- A key event in the holder of panel 0. -/
def holding (k : Key) (make : Bool) (s : Store) : Store :=
  s.putPanel 0 { s.panel 0 with holder := some ⟨k, make⟩, inhibit := true }

/-- A reservation of two tyres on slot 0, presented at face 0. -/
def reserved (c : Claim) (s : Store) : Store := { s with reservations := [⟨0, c, 0, 2, .presented 0⟩] }

/-- An audit entry of carrier 23 of carousel 3. -/
def entry (st : EntryState) : AuditRecord :=
  .listed ⟨3, 23, .request, st, #v[⟨some 4, [], none⟩, ⟨some 0, [], none⟩, ⟨some 0, [], none⟩]⟩

/-- What is left of the audit of carrier 23 of carousel 3. -/
def decided : AuditEntry := ⟨3, 23, .request, .ready, Vector.replicate 3 ⟨none, [], none⟩⟩

/-- An audit entry of carrier 0 of carousel 0, at work on bay 0. -/
def counting : AuditRecord :=
  .listed ⟨0, 0, .request, .counting (.presented 0),
    #v[⟨some 4, [], none⟩, ⟨some 0, [0], some .verified⟩, ⟨some 0, [0], some .verified⟩]⟩

/-! ## How the conditions of the statements are shown -/

theorem attended_of {s : Store} (h : s.passDue = false ∧ ∀ p, p < 8 → (s.panel p).line = .ready →
    (s.panel p).outstanding = none → (s.panel p).shown = none ∨ (s.panel p).shown = some (s.face p).desired) :
    s.Attended := ⟨h.1, h.2⟩

theorem bounded_of {s : Store} (h : s.reservations.length ≤ 256 ∧ (s.reservations.map fun r => r.number).Nodup ∧
    (∀ n, n < 4 → (s.channel n).queue.length ≤ 8) ∧ (s.notices.map fun n => n.source).Nodup ∧ s.writeBack.Nodup) :
    s.Bounded where
  reservations := h.1
  numbers := h.2.1
  queues n := by
    by_cases l : n < 4
    · exact h.2.2.1 n l
    · have e : s.channel n = Channel.powerUp := by simp [Store.channel, look, l]
      rw [e]; exact Nat.zero_le _
  sources := h.2.2.2.1
  listed := h.2.2.2.2

theorem faces_of {s : Store} (h : (∀ i, i < 8 →
    ((s.face i).state = .presenting → (∃ c, c < 24 ∧ (s.face i).carrier = some c) ∧ (s.face i).kind ≠ none) ∧
    ((s.face i).state ≠ .presenting →
      (s.face i).carrier = none ∧ (s.face i).kind = none ∧ (s.face i).bays = #v[[], [], []])) ∧
    ∀ r ∈ s.reservations, r.state = .presented 0) : s.FacesSound where
  faces i l := ⟨(h.1 i l).1, (h.1 i l).2⟩
  presented r m f e := by
    rw [h.2 r m] at e
    cases e
    decide

theorem keysTaken_of {s : Store} (h : ∀ p, p < 8 → ((s.panel p).line = .ready ∧ (s.panel p).outstanding = none ∧
    (s.panel p).shown = some (s.face p).desired) → (s.panel p).holder = none) : s.KeysTaken := h

theorem hears_of {s : State} {n : Nat} (hw : s.path.condition = .working)
    (hf : (s.store.cfg.carousel n).fitted = true) (he : (s.store.channel n).window = []) (ha : s.store.Attended)
    (hb : s.store.Bounded) : s.HearsDrive n := ⟨hw, hf, he, ha, hb⟩

theorem decodes_of {s : State} (h : s.path.condition = .working ∧ s.path.inFlight = none ∧
    windowsSound s.store.cfg = true) : s.Decodes := ⟨h.1, h.2.1, h.2.2⟩

theorem reads_of {s : State} {e k : Nat} (h : e < 32 ∧ s.path.port = some ⟨.entryRead e, false⟩ ∧
    s.intake.state = .reading e ∧ Req.kind (s.entryWords e) = k ∧ Req.format (s.entryWords e) = 0x10) : s.Reads e k :=
  ⟨h.1, h.2.1, h.2.2.1, h.2.2.2.1, h.2.2.2.2⟩

/-! ## Ill-formed operands -/

theorem test_wf_read_unaligned : (Instr.upstreamRead 0x1001).wellFormed = false := by decide
theorem test_wf_write_unaligned : (Instr.upstreamWrite 0x1002 15 0).wellFormed = false := by decide
theorem test_wf_owner_byte_left_out : (Instr.ownerWrite 0 14 1).wellFormed = false := by decide
theorem test_wf_probe_word_0 : (Instr.probeDataRead 0).wellFormed = false := by decide
theorem test_wf_arrived_above_23 : (Instr.arrived 0 24).wellFormed = false := by decide
theorem test_wf_stopped_above_23 : (Instr.stopped 0 24).wellFormed = false := by decide
theorem test_wf_fault_code_0 : (Instr.fault 0 0).wellFormed = false := by decide
theorem test_wf_fault_code_16 : (Instr.fault 0 16).wellFormed = false := by decide
theorem test_wf_no_bytes : (Instr.driveMessageDiscarded 0 []).wellFormed = false := by decide
theorem test_wf_bytes_that_report :
    (Instr.driveMessageDiscarded 0 [0xB1, 0x05, 0xEE]).wellFormed = false := by decide
theorem test_wf_no_failure : (Instr.parityFramingFailure 0 false false).wellFormed = false := by decide
theorem test_wf_ack_abandons_nothing : (Instr.messageAbandoned 0 0xE0).wellFormed = false := by decide
theorem test_wf_key_abandons_nothing : (Instr.messageAbandoned 0 0x05).wellFormed = false := by decide
theorem test_wf_good :
    ([Instr.upstreamRead 0x1000, .ownerWrite 31 1 1, .probeDataRead 7, .arrived 3 23, .fault 0 15,
      .driveMessageDiscarded 0 [0xB1, 0x18, 0xF3], .parityFramingFailure 7 true true, .messageAbandoned 0 0xC1]).all
      Instr.wellFormed = true := by decide

/-! ## Reset and the path -/

/-- The first command of the machine as it stands after reset is the check of the configuration block: an empty memory
holds none, so the part enters PASS-ONLY. -/
theorem test_reset_configuration_check :
    gives .configurationCheck State.reset (fun t => t.path.condition == .passOnly) = true := by decide +kernel

theorem test_reset_access_is_retried :
    gives (.upstreamRead 0x1000) State.reset (fun t => t.path.ending == some .retry) = true := by decide +kernel

/-- Configuration words 0 to 63 within every range. -/
def block : List Word :=
  [wordOfBytes 0x21 0 0 0, 0x1000, 0x1800, 0x2000, 0x4000, 0x6000, 0x8000, 0x9000, 0x9400, wordOfBytes 0x01 0 1 0] ++
    List.replicate 4 (wordOfBytes 8 45 5 0) ++ List.replicate 4 (wordOfHalves 8 20) ++
    [wordOfHalves 3000 400, wordOfBytes 1 18 0 0] ++ List.replicate 16 (wordOfBytes 32 0 0 0) ++
    [wordOfBytes 200 0 5 20, wordOfBytes 5 1 0 0]

/-- The machine after reset with that block in its memory. -/
def blockThere : State := { State.reset with mem := Memory.writeWords [] 0xF000 block }

theorem test_configuration_is_taken :
    gives .configurationCheck blockThere (fun t => t.path.condition == .loading .articles &&
      t.store.cfg.loadLimit == 3000 && (t.store.cfg.carousel 0).fitted && !(t.store.cfg.carousel 1).fitted) = true := by
  decide +kernel

theorem test_power_up : gives (.powerUp 0) part (fun t => t.path.condition == .loading .configuration) = true := by
  decide +kernel

theorem test_posted_write_then_memory :
    gives (.upstreamWrite 0x100 5 0xAABBCCDD) part (fun t =>
      gives .postedWriteEnd t fun u => Memory.readWord u.mem 0x100 == 0x00BB00DD && u.path.posted.isEmpty) = true := by
  decide +kernel

theorem test_owner_write_sets_the_mark :
    gives (.ownerWrite 0 15 0x00100101) part (fun t => look t.path.marks false 0 && t.path.ending == some .done) = true :=
  by decide +kernel

theorem test_consume_write_beyond_is_refused :
    gives (.consumeIndexWrite 15 1) part (fun t => t.report.consume == 0 && t.path.posted.isEmpty &&
      t.report.writing == some (.notice ⟨.path, 1⟩ ⟨some 0x2000, 1⟩)) = true := by decide +kernel

theorem test_link_reset_writes_the_indices :
    gives .linkReset (withPath fun p => { p with marks := put p.marks 3 true }) (fun t => t.intake == ⟨0, .waiting⟩ &&
      !look t.path.marks true 3 && t.path.port == some ⟨.intakeIndex 0 false, false⟩) = true := by decide +kernel

/-! ## The floor -/

theorem test_gate_opens : gives (.gateOpens 2) part (fun t => (t.store.channel 2).gate == .opened) = true := by
  decide +kernel

theorem test_home_sends_home :
    gives .home (asking 9 [1] fun s => s.putChannel 1 { s.channel 1 with state := .unhomed, position := none })
      (fun t => (t.store.channel 1).state == .homing && (t.store.channel 1).deadline == some 212 &&
        (t.store.channel 1).sent == [0xA2, 0x00, 0xF8]) = true := by decide +kernel

theorem test_arrived_at_another_position_fences :
    gives (.arrived 0 4) (withChannel fun c => { c with state := .moving, target := some (5, .forward) })
      (fun t => (t.store.channel 0).state == .fenced && (t.store.channel 0).fenceCause == some .wrongPosition) = true :=
  by decide +kernel

/-- A run of bytes at a window that holds the kind of HOMED completes HOMED and then ARRIVED, each an event of its own:
the second meets an IDLE channel. -/
theorem test_two_reports_in_one_run :
    gives (.driveMessageDiscarded 0 [0, 0xE9, 0xB1, 0, 0xEB])
      (withChannel fun c => { c with state := .homing, position := none, window := [0xB3] })
      (fun t => (t.store.channel 0).state == .fenced && (t.store.channel 0).fenceCause == some .unsolicited &&
        (t.store.channel 0).window == [] &&
        (t.store.notices.any fun n => n.source == .carousel 0 && hasFlag n.flags Flag.carouselFenced)) = true := by
  decide +kernel

theorem test_settling :
    gives (.scanTimer 0 12 true) (withLane fun x => { x with samples := [9, 30, 10] })
      (fun t => (t.store.lane 0).samples == [30, 10, 12] && (t.store.lane 0).settled == none) = true ∧
    gives (.scanTimer 0 12 true) (withLane fun x => { x with samples := [9, 14, 10] })
      (fun t => (t.store.lane 0).settled == some 12) = true := by decide +kernel

theorem test_plus_raises_a_count :
    gives (.plus 0) (withStore fun s => holding .plus true (presenting ⟨.count 0, none, 98⟩ .count [] s))
      (fun t => ((look (t.store.face 0).bays [] 0).map fun i => i.displayed) == [99] &&
        (t.store.panel 0).sentBytes == [0xC4, 0x00, 0x03, 0x63, 0x7F]) = true := by decide +kernel

theorem test_order_open_is_admitted :
    gives .orderOpen (asking 4 [7, 0x00000101, 0x00020003] id)
      (fun t => (t.store.order 0).any (fun o => o.state == .active && o.lane == some 0)) = true := by decide +kernel

/-- Four tyres of 90 hg leave the carrier within the imbalance limit of 400 hg, five do not (R123). -/
theorem test_receive_keeps_the_balance :
    gives .receive (asking 3 [7, 3, 100, 5] id)
      (fun t => t.store.batch 0 == .opened ⟨7, 3, 100, 5, 5, 0, 0⟩ && (t.store.slot 0).incoming == 4) = true := by
  decide +kernel

/-! ## The hypotheses of the statements: the step and the invariants -/

theorem test_applies_StepRunsFrontCommand :
    ({ part with pending := [.deadline 0, .ack 1] } : State).pending = .deadline 0 :: [.ack 1] := rfl

theorem test_applies_QueueIsLeftToTheStep : part.pending = [] := rfl

/-- A part at work, with 63 unread entries and a report write in flight, about to run a command. -/
def busy : State :=
  { part with
    pending := [.deadline 0]
    path := { part.path with
      claims := [.reportEntry 63 []], posted := List.replicate 8 ⟨0x100, 15, 0⟩ }
    report := ⟨63, 0, none, some .completion⟩ }

theorem test_applies_MemoryFormKept : busy.MemorySound ∧ ∃ t, step busy = .next t := ⟨by decide, _, rfl⟩

theorem part_begun : part.ReportsBegun := fun _ _ _ => ⟨rfl, .inr rfl⟩

theorem test_applies_ReportRingKept :
    busy.RingSound ∧ busy.ReportsBegun ∧ (∃ t, step busy = .next t) ∧ part.ReportsBegun ∧ ∃ t, step part = .next t := by
  refine ⟨⟨by decide +kernel, by decide +kernel, by decide +kernel, ?_, by decide +kernel⟩,
    fun _ h => (by cases h), ⟨_, rfl⟩, part_begun, _, rfl⟩
  intro t ht
  have e : busy.reportTransfers = [.reportEntry 63 []] := by decide +kernel
  rw [e] at ht
  rcases List.mem_singleton.mp ht with rfl
  show 63 = busy.reportEntryIndex
  decide +kernel

theorem store_faces : store.FacesSound := faces_of (by decide +kernel)

theorem test_applies_ListBoundsKept :
    busy.BufferSound ∧ busy.store.Bounded ∧ busy.store.FacesSound ∧ ∃ t, step busy = .next t :=
  ⟨by decide +kernel, bounded_of (by decide +kernel), store_faces, _, rfl⟩

/-- The part at a stage of its load, its blocks as after reset but for the configuration and the articles. -/
def loading (stage : LoadStage) : State :=
  { State.reset with
    path := { State.reset.path with condition := .loading stage, port := some ⟨.load stage, false⟩ }
    store := { State.reset.store with cfg := cfg, articles := store.articles } }

theorem loading_sound (stage : LoadStage) : (loading stage).LoadSound where
  intake _ _ _ h := by
    rcases h with h | h
    · exact absurd h (by simp [loading, State.reset, PathUnit.powerUp])
    · exact absurd h (by simp [loading])
  blank _ _ _ := rfl

theorem test_applies_WindowsKept :
    (busy.WindowsSound ∧ ∃ t, step busy = .next t) ∧
    (let s := { loading .carriers with pending := [.linkReset] }
     s.WindowsSound ∧ s.LoadSound ∧ ∃ t, step s = .next t) :=
  ⟨⟨by show windowsSound busy.store.cfg = true; decide +kernel, _, rfl⟩,
    by show windowsSound cfg = true; decide +kernel,
    ⟨(loading_sound .carriers).intake, (loading_sound .carriers).blank⟩, _, rfl⟩

theorem test_applies_NothingIsLeftDue :
    busy.store.Attended ∧ busy.store.KeysTaken ∧ ∃ t, step busy = .next t :=
  ⟨attended_of (by decide +kernel), keysTaken_of (by decide +kernel), _, rfl⟩

/-! ## The hypotheses: upstream accesses -/

theorem part_decodes : part.Decodes := decodes_of (by decide +kernel)

theorem test_applies_RetryHasNoEffect :
    (State.reset.path.inFlight = none ∧ ∃ st, State.reset.path.condition = .loading st) ∧
    (let s := carrying (.burst (.lane 15) [])
     s.path.inFlight = none ∧ s.path.condition = .working ∧ s.probeWordAt (0x91FC : Word).toNat = none ∧
       s.inBurst (0x91FC : Word).toNat = true) ∧
    (let s : State := { part with intake := ⟨31, .reading 31⟩ }
     s.path.inFlight = none ∧ s.path.condition = .working ∧ s.store.cfg.covers .request (0x17FC : Word).toNat = true ∧
       s.entryInHand = some (((0x17FC : Word).toNat - s.base .request) / 64)) ∧
    (let s := withPath fun p => { p with condition := .passOnly, posted := List.replicate 8 ⟨0, 15, 0⟩ }
     s.path.inFlight = none ∧ s.path.condition = .passOnly ∧ s.path.posted.length = 8) ∧
    (let s : State := { withPath (fun p => { p with posted := List.replicate 8 ⟨0, 15, 0⟩ }) with
        report := ⟨2, 0, none, none⟩ }
     s.Decodes ∧ s.path.posted.length = 8 ∧ (∀ w, s.store.cfg.covers w (0x0FFC : Word).toNat = false) ∧
       s.store.cfg.covers .request (0x17FC : Word).toNat = true ∧
       ((2 : Half) - s.report.consume).toNat ≤ (s.report.produce - s.report.consume).toNat) :=
  ⟨⟨by decide, _, rfl⟩, by decide +kernel, by decide +kernel, by decide +kernel, decodes_of (by decide +kernel),
    by decide +kernel, fun w => by cases w <;> decide +kernel, by decide +kernel⟩

theorem test_applies_ReadIsPassed :
    (let s := withPath fun p => { p with condition := .passOnly }
     s.path.inFlight = none ∧ s.path.condition = .passOnly) ∧
    (part.path.inFlight = none ∧ part.path.condition = .working ∧ part.probeWordAt (0x201C : Word).toNat = none ∧
      part.inBurst (0x201C : Word).toNat = false ∧ part.path.posted = []) := by decide +kernel

theorem test_applies_PassedReadEnds :
    (carrying (.passedRead 0x100)).path.port = some ⟨.passedRead 0x100, false⟩ := rfl

theorem test_applies_WriteIsPosted :
    (let s := withPath fun p => { p with posted := List.replicate 7 ⟨0, 15, 0⟩ }
     s.path.inFlight = none ∧ s.path.posted.length < 8 ∧ s.path.condition = .working ∧
       ∀ w, s.store.cfg.covers w (0x0FFC : Word).toNat = false) ∧
    (let s := withPath fun p => { p with condition := .passOnly }
     s.path.inFlight = none ∧ s.path.posted.length < 8 ∧ s.path.condition = .passOnly) ∧
    (part.store.cfg.covers .request (0x1000 : Word).toNat = true ∧ (14 : Enables) ≠ 0 ∧
      (14 : Enables).getLsbD 0 = false ∧ part.store.cfg.covers .request (0x17FC : Word).toNat = true ∧
      ((0x17FC : Word).toNat - part.base .request) % 64 ≠ 0 ∧ part.entryInHand = none ∧ part.path.inFlight = none ∧
      part.path.posted.length < 8 ∧ part.path.condition = .working) ∧ part.ReportsBegun :=
  ⟨⟨rfl, by decide, rfl, fun w => by cases w <;> decide +kernel⟩, by decide +kernel, by decide +kernel, part_begun⟩

theorem test_applies_WriteIsRefused :
    part.Decodes ∧ part.store.cfg.covers .report (0x1FFC : Word).toNat = true ∧
    (recordAt part.store.cfg (0x4000 : Word).toNat).isSome = true ∧
    (part.store.cfg.covers .control (0x200C : Word).toNat = true ∧
      12 ≤ (0x200C : Word).toNat - part.base .control) := ⟨part_decodes, by decide +kernel⟩

theorem test_applies_OwnerWriteActsOnTheMark :
    part.Decodes ∧ (1 : Enables).getLsbD 0 = true ∧ part.path.posted.length < 8 ∧
      part.entryInHand ≠ some (31 : Fin 32).val := ⟨part_decodes, by decide +kernel⟩

theorem test_applies_ConsumeWriteMovesForward :
    (let s : State := { part with report := ⟨2, 0, none, none⟩ }
     s.Decodes ∧ ((2 : Half) - s.report.consume).toNat ≤ (s.report.produce - s.report.consume).toNat ∧
       s.path.posted.length < 8) ∧
    (let s : State := { part with report := ⟨2, 0, none, none⟩ }
     s.Decodes ∧ (s.report.produce - s.report.consume).toNat < ((3 : Half) - s.report.consume).toNat) :=
  ⟨⟨decodes_of (by decide +kernel), by decide +kernel⟩, decodes_of (by decide +kernel), by decide +kernel⟩

theorem test_applies_AttentionWriteActsOnTheLine :
    part.Decodes ∧ (1 : Enables) ≠ 0 ∧ part.path.posted.length < 8 := ⟨part_decodes, by decide⟩

theorem test_applies_ProbeShowsTheSelectedEntry :
    part.Decodes ∧ (15 : Enables) ≠ 0 ∧ part.path.posted.length < 8 ∧ (1 : Fin 8).val ≠ 0 ∧ (7 : Fin 8).val ≠ 0 ∧
    (∀ row ∈ [((0x002 : Word), Claim.pick 63 7), (0x002, .put 15), (0x102, .put 15)],
      let s : State := { part with path := { part.path with probeSelect := row.1 }, store := reserved row.2 part.store }
      s.path.condition = .working ∧ s.path.inFlight = none ∧ windowsSound s.store.cfg = true ∧
      s.path.probeSelect.toNat % 256 = 2 ∧
      s.store.reservations[s.path.probeSelect.toNat / 256]? =
        if row.1 = 2 then some ⟨0, row.2, 0, 2, .presented 0⟩ else none) ∧
    256 ≤ (0x10002 : Word).toNat / 256 ∧ 7 < (8 : Word).toNat % 256 ∧ (0x100 : Word).toNat % 256 = 0 :=
  ⟨part_decodes, by decide +kernel⟩

/-! ## The hypotheses: the port, the Intake and the Report Writer -/

theorem test_applies_ArbiterGrantsByClass :
    (carrying .postedWrite).path.port ≠ none ∧
    (let s := withPath fun p => { p with posted := [⟨0, 15, 0⟩] }
     s.path.port = none ∧ s.path.posted ≠ []) ∧
    (let s := withPath fun p => { p with claims := [.reportEntry 0 [], .entryRead 0, .intakeIndex 0 false] }
     s.path.port = none ∧ s.path.posted = [] ∧
       s.path.claims = [.reportEntry 0 []] ++ .entryRead 0 :: [.intakeIndex 0 false] ∧
       (∀ y ∈ s.path.claims, 2 ≤ State.classOf y ∧ State.classOf y ≤ 4) ∧
       (∀ y ∈ [Transfer.reportEntry 0 []], State.classOf (.entryRead 0) < State.classOf y) ∧
       ∀ y ∈ [Transfer.intakeIndex 0 false], State.classOf (.entryRead 0) ≤ State.classOf y) ∧
    (let s := withStore fun s => { s with writeBack := [.status 11] }
     s.path.port = none ∧ s.path.posted = [] ∧ s.path.claims = [] ∧ s.path.condition ≠ .passOnly ∧
       s.store.writeBack = .status 11 :: [] ∧ recordIndex (.status 11) < 700) := by decide +kernel

theorem test_applies_PostedWriteReachesMemory :
    let s := withPath fun p => { p with posted := [⟨0x100, 6, 0⟩], port := some ⟨.postedWrite, false⟩ }
    s.MemorySound ∧ s.path.port = some ⟨.postedWrite, false⟩ ∧ s.path.posted = ⟨0x100, 6, 0⟩ :: [] :=
  ⟨by decide, rfl, rfl⟩

theorem test_applies_BurstReachesMemory :
    (carrying (.burst (.lane 0) [1, 2])).MemorySound ∧
      (carrying (.burst (.lane 0) [1, 2])).path.port = some ⟨.burst (.lane 0) [1, 2], false⟩ := ⟨by decide, rfl⟩

theorem test_applies_ControlWordReachesMemory :
    part.MemorySound ∧ (carrying (.controlWord 8 5)).path.port = some ⟨.controlWord 8 5, false⟩ ∧
    (carrying (.intakeIndex 0 false)).path.port = some ⟨.intakeIndex 0 false, false⟩ ∧
    (carrying (.produceIndex 0 false)).path.port = some ⟨.produceIndex 0 false, false⟩ := ⟨by decide, rfl, rfl, rfl⟩

theorem test_applies_IntakeTakesACommittedEntry :
    (let s : State := { withPath (fun p => { p with marks := put p.marks 0 true }) with report := ⟨63, 0, none, none⟩ }
     s.path.condition = .working ∧ s.intake.state = .waiting ∧
       look s.path.marks false (s.intake.index.toNat % 32) = true ∧ s.path.posted = [] ∧
       (s.report.produce - s.report.consume).toNat < 64 ∧ s.report.completion = none ∧
       s.report.writing ≠ some .completion) ∧
    (part.path.condition = .working ∧ part.intake.state = .waiting ∧ look part.path.marks false 0 ≠ true) := by
  decide +kernel

theorem test_applies_GiveBackRaisesTheIndex :
    (carrying (.giveBack 31 0)).MemorySound ∧
      (carrying (.giveBack 31 0)).path.port = some ⟨.giveBack 31 0, false⟩ := ⟨by decide, rfl⟩

theorem test_applies_IndexWriteHandsTheCompletionOver :
    let s : State := { carrying (.intakeIndex 1 true) with intake := ⟨1, .returning 0 [5]⟩ }
    s.MemorySound ∧ s.path.condition = .working ∧ s.path.port = some ⟨.intakeIndex 1 true, false⟩ ∧
      s.intake.state = .returning 0 [5] := ⟨by decide, rfl, rfl, rfl⟩

theorem test_applies_ReportWriterChooses :
    (let s : State := { part with report := ⟨63, 0, some [1], none⟩ }
     s.path.condition = .working ∧ s.report.writing = none ∧ (s.report.produce - s.report.consume).toNat < 64 ∧
       s.report.completion = some [1]) ∧
    (let s := withStore fun s => { s with notices := [⟨.device, 1⟩] }
     s.path.condition = .working ∧ s.report.writing = none ∧ (s.report.produce - s.report.consume).toNat < 64 ∧
       s.report.completion = none ∧ s.returning = false ∧ s.store.notices = ⟨.device, 1⟩ :: []) ∧
    (let s : State := { part with report := ⟨64, 0, some [1], none⟩ }
     s.path.condition = .working ∧ ¬ (s.report.produce - s.report.consume).toNat < 64) ∧
    (∀ b ∈ [BatchRecord.free, .opened ⟨7, 3, 9, 2, 2, 0, 0⟩, .done ⟨7, 3, 9, 2, 0, 2, 0⟩],
      (store.setBatch 15 b).batch 15 = b) := by decide +kernel

theorem test_applies_ReportEntryReachesMemory :
    (carrying (.reportEntry 63 [1, 2])).MemorySound ∧
      (carrying (.reportEntry 63 [1, 2])).path.port = some ⟨.reportEntry 63 [1, 2], false⟩ := ⟨by decide, rfl⟩

theorem test_applies_ProduceIndexRises :
    (let s : State := { carrying (.produceIndex 1 true) with
        report := ⟨0, 0, none, some (.notice ⟨.batch 15, 2⟩ ⟨none, 0⟩)⟩
        store := store.setBatch 15 (.done ⟨0, 3, 9, 1, 0, 1, 0⟩) }
     s.MemorySound ∧ s.path.port = some ⟨.produceIndex 1 true, false⟩ ∧
       s.report.writing = some (.notice ⟨.batch 15, 2⟩ ⟨none, 0⟩) ∧ hasFlag 2 Flag.batchDone = true ∧
       s.store.batch 15 = .done ⟨0, 3, 9, 1, 0, 1, 0⟩) ∧
    (let s : State := { carrying (.produceIndex 1 true) with
        report := ⟨0, 0, none, some (.notice ⟨.audit 0, 4⟩ ⟨none, 0⟩)⟩ }
     s.MemorySound ∧ s.path.port = some ⟨.produceIndex 1 true, false⟩ ∧
       s.report.writing = some (.notice ⟨.audit 0, 4⟩ ⟨none, 0⟩) ∧ hasFlag 4 Flag.auditCommitted = true ∧
       s.store.Attended ∧ (∀ x, s.store.audit 0 ≠ .committed x)) ∧
    (∀ marked ∈ [true, false],
      let s : State := { carrying (.produceIndex 1 true) with
        report := ⟨0, 0, none, some (.notice ⟨.audit 1, 4⟩ ⟨none, 0⟩)⟩
        store := ((store.setAudit 0 counting).setAudit 1 (.committed decided)).updCarrier 95 fun c =>
          { c with auditWanted := marked } }
      s.path.port = some ⟨.produceIndex 1 true, false⟩ ∧
      s.report.writing = some (.notice ⟨.audit 1, 4⟩ ⟨none, 0⟩) ∧
      s.store.audit 1 = .committed decided ∧
      s.store.passDue = false ∧ (∀ q, q < 8 → (s.store.panel q).shown = some (s.store.face q).desired) ∧
      (s.store.cfg.carousel (95 / 24)).fitted = true ∧ s.store.entryOf 95 = none ∧ s.store.audit 0 ≠ .free ∧
      ∀ c, c < 96 → ((s.store.carrier c).auditWanted = true ↔ c = 95 ∧ marked = true)) ∧
    (hasFlag 1 Flag.batchDone = false ∧ hasFlag 1 Flag.auditCommitted = false ∧
      (∀ b, b < 16 → store.batch b = .free) ∧ (∀ b, Source.lane 0 ≠ .batch b) ∧ ∀ a, Source.lane 0 ≠ .audit a) ∧
    (let s : State := { carrying (.produceIndex 1 true) with report := ⟨0, 0, none, some .completion⟩ }
     s.MemorySound ∧ s.path.port = some ⟨.produceIndex 1 true, false⟩ ∧ s.report.writing = some .completion) :=
  ⟨⟨by decide, rfl, rfl, by decide, by decide +kernel⟩,
    ⟨by decide, rfl, rfl, by decide, attended_of (by decide +kernel), fun _ h => by cases h⟩, by decide +kernel,
    ⟨by decide, by decide, by decide +kernel, fun _ h => (by cases h), fun _ h => (by cases h)⟩, by decide, rfl, rfl⟩

/-! ## The hypotheses: power-up, the load and the link reset -/

theorem test_applies_PowerUpBeginsTheLoad :
    ∀ x ∈ [Transfer.passedRead 0x100, .entryRead 31, .load .writeBack], (carrying x).path.port = some ⟨x, false⟩ ∧
      gives (.powerUp 5) (carrying x) (fun t => t.mem == part.mem) = true := by decide +kernel

theorem test_applies_ConfigurationIsChecked :
    (blockThere.path.condition = .loading .configuration ∧
      blockThere.path.port = some ⟨.load .configuration, false⟩ ∧
      gives .configurationCheck blockThere (fun t => t.path.condition == .loading .articles) = true) ∧
    (State.reset.path.condition = .loading .configuration ∧
      State.reset.path.port = some ⟨.load .configuration, false⟩ ∧
      byteNat (wordAt (Memory.readWords State.reset.mem 0xF000 64) 0) 0 ≠ 0x21) := by decide +kernel

theorem test_applies_ArticleImageIsLoaded :
    (loading .articles).path.condition = .loading .articles ∧
      (loading .articles).path.port = some ⟨.load .articles, false⟩ := ⟨rfl, rfl⟩

theorem test_article_image :
    articleOf [wordOfBytes 6 1 7 0, 88, wordOfBytes 232 3 100 0, 6] = some ⟨88, 7, 1000, 100⟩ ∧
    (∀ ws ∈ [[wordOfBytes 6 1 7 0, 88, wordOfBytes 232 3 100 0, 5],
      [wordOfBytes 6 0 7 0, 88, wordOfBytes 232 3 100 0, 6],
      [wordOfBytes 6 1 8 0, 88, wordOfBytes 232 3 100 0, 6], [wordOfBytes 6 1 7 0, 88, wordOfBytes 0 0 100 0, 6],
      [wordOfBytes 6 1 7 0, 88, wordOfBytes 232 3 101 0, 6]], articleOf ws = none) := by decide +kernel

/-- A carrier image: carrier 0 with FACE_OPEN, two tyres of article 3 in bay 0, an unknown article in bay 1 and a
REQUEST block on bay 2; carrier 1 torn. -/
def imaged : State :=
  { loading .carriers with mem := [
      (0x2018, 44), (0x4000, 9), (0x4001, 4), (0x400A, 3), (0x400C, 9), (0x400E, 1), (0x4010, 2),
      (0x401A, 4), (0x401C, 9), (0x401E, 1), (0x4020, 2), (0x4029, 1), (0x402A, 255), (0x402B, 255),
      (0x403C, 9), (0x4040, 9), (0x4041, 3), (0x407C, 8)] }

theorem test_applies_CarrierImageIsLoaded :
    ((loading .carriers).LoadSound ∧ imaged.LoadSound) ∧ imaged.path.condition = .loading .carriers ∧
      imaged.path.port = some ⟨.load .carriers, false⟩ :=
  ⟨⟨loading_sound _, (loading_sound .carriers).intake, (loading_sound .carriers).blank⟩, rfl, rfl⟩

theorem test_carrier_image :
    imaged.loadedCarrier true 0 = ⟨false, false, false, false, 180, #v[⟨none, some 3, some 9, 2, 0, 0⟩,
      { Slot.empty with blockReason := some .imageFault }, { Slot.empty with blockReason := some .request }]⟩ ∧
    imaged.heldFaceOpen 0 = true ∧ imaged.faultyIn true 0 = 1 ∧ imaged.faultyIn true 1 = 3 ∧
    (imaged.loadedCarrier true 1).auditWanted = false ∧ imaged.headerMatches 0x18 0x2C = true := by decide +kernel

theorem test_applies_StartUpLoadEnds :
    let s := withPath fun p => { p with condition := .loading .writeBack }
    s.path.condition = .loading .writeBack ∧ s.store.writeBack = [] ∧ s.path.claims = [] ∧ s.path.port = none ∧
    gives .startUpLoadEnd { s with path := { s.path with port := some ⟨.burst (.lane 15) [5], false⟩ } }
      (fun t => t.path.condition == .working) = true := by decide +kernel

theorem test_applies_LinkResetClearsTheLink :
    part.path.condition ≠ .passOnly ∧ (withPath fun p => { p with condition := .passOnly }).path.condition = .passOnly :=
  by decide

/-! ## The hypotheses: requests -/

theorem test_applies_CommonChecksRefuse :
    (let s : State := { asking 1 [] id with mem := Memory.writeWords [] 0x1000 [wordOfBytes 1 1 0x11 0] }
     (0 : Nat) < 32 ∧ s.path.port = some ⟨.entryRead 0, false⟩ ∧ s.intake.state = .reading 0 ∧
       Req.format (s.entryWords 0) ≠ 0x10 ∧ Req.kind (s.entryWords 0) = 1) ∧
    (Req.kind ((asking 0 [] id).entryWords 0) = 0 ∧ 12 < Req.kind ((asking 13 [] id).entryWords 0)) := by decide +kernel

theorem test_applies_ArticleDefineSetsTheEntry :
    (asking 1 [511, 8, wordOfBytes 7 100 232 3] id).Reads 0 1 ∧
    gives .articleDefine (asking 1 [511, 8, wordOfBytes 7 100 232 3] id)
      (fun t => t.store.article 511 == some ⟨8, 7, 1000, 100⟩) = true ∧
    gives .articleDefine (asking 1 [512, 8, wordOfBytes 7 100 232 3] id) (fun t => t.store.article 0 == none &&
      t.intake.state != .reading 0) = true ∧
    (let s := asking 1 [3, 8, wordOfBytes 2 4 91 0] stocked
     s.Reads 0 1 ∧ (s.store.slot 0).article = some 3 ∧ s.store.article 3 = some ⟨77, 2, 90, 4⟩) :=
  ⟨reads_of (by decide +kernel), by decide +kernel, by decide +kernel, reads_of (by decide +kernel), by decide +kernel⟩

theorem test_applies_ArticleRemoveClearsTheEntry :
    ((asking 2 [512] id).Reads 0 2 ∧ 511 < (wordAt ((asking 2 [512] id).entryWords 0) 2).toNat) ∧
    (let s := asking 2 [3] stocked
     s.Reads 0 2 ∧ s.store.article 3 ≠ none ∧ (s.store.slot 0).article = some 3) ∧
    (let s := asking 2 [3] id
     s.Reads 0 2 ∧ s.store.article 3 ≠ none ∧ gives .articleRemove s (fun t => t.store.article 3 == none) = true) :=
  ⟨⟨reads_of (by decide +kernel), by decide +kernel⟩, ⟨reads_of (by decide +kernel), by decide +kernel⟩,
    reads_of (by decide +kernel), by decide +kernel⟩

theorem test_applies_SlotBlockAndUnblock :
    ((asking 7 [288] id).Reads 0 7 ∧ (wordAt ((asking 7 [288] id).entryWords 0) 2).toNat = 288) ∧
    (let s := asking 7 [287] (fun s => s.setFrozen 95 true)
     s.Reads 0 7 ∧ (s.store.cfg.carousel (287 / 72)).fitted = true ∧ (s.store.carrier (287 / 3)).frozen = true) ∧
    (let s := asking 7 [287] id
     s.Reads 0 7 ∧ (s.store.cfg.carousel (287 / 72)).fitted = true ∧ (s.store.carrier (287 / 3)).frozen ≠ true) ∧
    (let s := asking 8 [287] id
     s.Reads 0 8 ∧ (s.store.carrier (287 / 3)).frozen ≠ true ∧ (s.store.slot 287).blockReason = none) ∧
    (let s := asking 8 [287] (fun s => s.setReason 287 (some .foreign))
     s.Reads 0 8 ∧ (s.store.carrier (287 / 3)).frozen ≠ true ∧ (s.store.slot 287).blockReason ≠ none) :=
  ⟨⟨reads_of (by decide +kernel), by decide +kernel⟩, ⟨reads_of (by decide +kernel), by decide +kernel⟩,
    ⟨reads_of (by decide +kernel), by decide +kernel⟩, ⟨reads_of (by decide +kernel), by decide +kernel⟩,
    reads_of (by decide +kernel), by decide +kernel⟩

theorem test_applies_ReceivePlansABatch :
    ((asking 3 [7, 3, 65536, 96] id).Reads 0 3) ∧
    (let s := asking 3 [7, 4, 65535, 1] id
     s.Reads 0 3 ∧ s.store.article 4 = none) ∧
    (let s := asking 3 [7, 3, 65535, 96] fun s => { s with batches := Vector.replicate 16 (.done ⟨0, 3, 9, 1, 0, 1, 0⟩) }
     s.Reads 0 3 ∧ s.store.article 3 ≠ none ∧ ∀ b, b < 16 → s.store.batch b ≠ .free) ∧
    (let s := asking 3 [7, 3, 65535, 1] fun s => { s with channels := Vector.replicate 4 Channel.powerUp }
     s.Reads 0 3 ∧ s.store.article 3 ≠ none ∧ s.store.batch 0 = .free ∧
       ((s.store.setBatch 0 (.opened ⟨7, 3, 65535, 1, 0, 0, 0⟩)).planRun 0 1).2 = 1) ∧
    (let s := asking 3 [7, 3, 65535, 4] id
     s.Reads 0 3 ∧ s.store.article 3 ≠ none ∧ s.store.batch 0 = .free ∧
       ((s.store.setBatch 0 (.opened ⟨7, 3, 65535, 4, 0, 0, 0⟩)).planRun 0 4).2 = 0 ∧
       (∀ q, q < 288 → (s.store.slot q).article = none ∧ (s.store.slot q).count + (s.store.slot q).incoming = 0) ∧
       (s.store.carrier 0).load = 0 ∧ (s.store.slot 0).blockReason = none ∧ 4 ≤ (s.store.cfg.carousel 0).bayDepth ∧
       4 * 90 ≤ s.store.cfg.imbalanceLimit ∧ (s.store.channel 0).state = .idle ∧ 2 ≤ s.store.cfg.maxClass 0 0) ∧
    (let s := asking 3 [7, 3, 9, 2] fun s => s.changeSlot 0 fun q =>
        { q with count := 2, article := some 3, lotWeek := some 9 }
     s.store.slot 0 = ⟨none, some 3, some 9, 2, 0, 0⟩ ∧ 4 ≤ (s.store.cfg.carousel 0).bayDepth ∧
       gives .receive s (fun t => (t.store.slot 0).incoming == 2) = true) :=
  ⟨reads_of (by decide +kernel), ⟨reads_of (by decide +kernel), by decide +kernel⟩,
    ⟨reads_of (by decide +kernel), by decide +kernel⟩, ⟨reads_of (by decide +kernel), by decide +kernel⟩,
    ⟨reads_of (by decide +kernel), by decide +kernel⟩, by decide +kernel⟩

/-- Words of ORDER_OPEN with one line. -/
def openWords (urgency count line : Nat) : List Word :=
  [0xAA, wordOfBytes urgency count 0 0, BitVec.ofNat 32 line]

theorem test_applies_OrderOpenFillsARecord :
    (let s := asking 4 (openWords 4 1 0x00100003) id
     s.Reads 0 4 ∧ 3 < byteNat (wordAt (s.entryWords 0) 3) 0) ∧
    (let s := asking 4 (openWords 3 1 0x00100004) id
     s.Reads 0 4 ∧ Req.line (s.entryWords 0) 0 = ⟨4, 16, false, 0, 0, none⟩ ∧ s.store.article 4 = none) ∧
    (let s := asking 4 (openWords 3 1 0x00100003) fun s => s.putOrder 63 (some (order .active (some 0)))
     s.Reads 0 4 ∧ s.store.order 63 = some (order .active (some 0)) ∧ wordAt (s.entryWords 0) 2 = 0xAA) ∧
    (let s := asking 4 (openWords 3 1 0x00100003) fun s => { s with
        cfg := { s.cfg with lanes := Vector.replicate 16 ⟨true, 15, 0⟩ } }
     s.Reads 0 4 ∧ Req.line (s.entryWords 0) 0 = ⟨3, 16, false, 0, 0, none⟩ ∧ (s.store.cfg.lane 0).capacity < 16) ∧
    (let s := asking 4 (openWords 3 1 0x00100003) fun s => { s with
        orders := Vector.replicate 64 (some { order .active none with tag := 1 }) }
     s.Reads 0 4 ∧ ∀ k, k < 64 → s.store.order k ≠ none) ∧
    (let s := asking 4 (openWords 3 1 0x01020003) id
     s.Reads 0 4 ∧ byteNat (wordAt (s.entryWords 0) 3) 0 = 3 ∧ byteNat (wordAt (s.entryWords 0) 3) 1 = 1 ∧
       Req.line (s.entryWords 0) 0 = ⟨3, 2, true, 0, 0, none⟩ ∧ s.store.article 3 ≠ none ∧
       (∀ k, k < 64 → s.store.order k = none) ∧ (s.store.cfg.lane 0).fitted = true ∧
       2 ≤ (s.store.cfg.lane 0).capacity) ∧
    (let s (line : Nat) := asking 4 (openWords 3 1 line) stocked
     let serves (line n : Nat) (week : Option Nat) := gives .orderOpen (s line) fun t =>
       (t.store.order 0).any (fun o => o.state == .active &&
         o.lines.map (fun l => (l.reservedFor, l.setWeek)) == [(n, week)]) && (t.store.slot 0).reserved == n
     (s 0x00020003).store.admission = [] ∧ (s 0x00020003).store.waiting = [] ∧
       (s 0x00020003).store.reservations = [] ∧ (s 0x00020003).store.slot 0 = ⟨none, some 3, some 9, 4, 0, 0⟩ ∧
       ((s 0x00020003).store.channel 0).state = .idle ∧
       serves 0x00020003 2 none = true ∧ serves 0x00100003 4 none = true ∧ serves 0x01020003 2 (some 9) = true ∧
       serves 0x01100003 0 none = true) :=
  ⟨⟨reads_of (by decide +kernel), by decide +kernel⟩, ⟨reads_of (by decide +kernel), by decide +kernel⟩,
    ⟨reads_of (by decide +kernel), by decide +kernel⟩, ⟨reads_of (by decide +kernel), by decide +kernel⟩,
    ⟨reads_of (by decide +kernel), by decide +kernel⟩, ⟨reads_of (by decide +kernel), by decide +kernel⟩,
    by decide +kernel⟩

/-- The part as ORDER_CANCEL names the order of record 63. -/
def cancelling (st : OrderState) : State :=
  asking 5 [0xAA] fun s => { s.putOrder 63 (some (order st (some 0))) with admission := [63] }

/-- The part as ORDER_CANCEL names an ACTIVE order with so many tyres filled and so many reserved for its line. -/
def cancellingWith (filled reservedFor : Nat) : State :=
  asking 5 [0xAA] fun s => (s.putOrder 63 (some { order .active (some 15) with
    lines := [⟨3, 4, false, filled, reservedFor, none⟩] })).putLane 15 { s.lane 15 with
      state := .assigned, order := some 63 }

theorem test_applies_OrderCancelEndsTheOrder :
    (let s := asking 5 [0xAB] fun s => s.putOrder 63 (some (order .active (some 0)))
     s.Reads 0 5 ∧ ∀ k, k < 64 → ∀ o ∈ s.store.order k, o.tag ≠ wordAt (s.entryWords 0) 2) ∧
    (∀ st ∈ [OrderState.cancelling, .complete, .abandoned, .admitting, .active],
      (cancelling st).store.order 63 = some (order st (some 0)) ∧
      (order st (some 0)).tag = wordAt ((cancelling st).entryWords 0) 2 ∧
      ∀ j, j < 63 → (cancelling st).store.order j = none) ∧
    (cancelling .admitting).Reads 0 5 ∧ (cancelling .active).Reads 0 5 ∧ (cancelling .complete).Reads 0 5 ∧
    (cancelling .active).store.Bounded ∧
    (∀ row ∈ [(0, 0, OrderState.active, 0xFF), (1, 0, .abandoned, 4), (1, 2, .cancelling, 2)],
      gives .orderCancel (cancellingWith row.1 row.2.1) (fun t =>
        (match t.store.order 63 with
          | none => row.2.2.2 == 0xFF
          | some x => x.state == row.2.2.1) &&
        (match t.intake.state with
          | .returning _ ws => wordAt ws 4 == BitVec.ofNat 32 row.2.2.2
          | _ => false)) = true) ∧
    (cancellingWith 1 2).Reads 0 5 ∧ (cancellingWith 1 2).store.Bounded :=
  ⟨⟨reads_of (by decide +kernel), by decide +kernel⟩, by decide +kernel, reads_of (by decide +kernel),
    reads_of (by decide +kernel), reads_of (by decide +kernel), bounded_of (by decide +kernel), by decide +kernel,
    reads_of (by decide +kernel), bounded_of (by decide +kernel)⟩

theorem test_applies_AuditListsACarrier :
    (let s := asking 6 [wordOfBytes 4 0 0 0] id
     s.Reads 0 6 ∧ 3 < byteNat (wordAt (s.entryWords 0) 2) 0) ∧
    (let s := asking 6 [wordOfBytes 3 23 0 0] fun s => { s.setAudit 15 (entry .ready) with auditList := [15] }
     s.Reads 0 6 ∧ (s.store.cfg.carousel 3).fitted = true ∧ s.store.entryOf (3 * 24 + 23) = some 15 ∧
       s.store.Attended) ∧
    (let s := asking 6 [wordOfBytes 3 22 0 0] fun s => { s with audits := Vector.replicate 16 (entry .ready) }
     s.Reads 0 6 ∧ s.store.entryOf (3 * 24 + 22) = none ∧ ∀ a, a < 16 → s.store.audit a ≠ .free) ∧
    (let s := asking 6 [wordOfBytes 3 23 0 0] id
     s.Reads 0 6 ∧ s.store.entryOf (3 * 24 + 23) = none ∧ s.store.audit 0 = .free ∧ s.store.reservations = []) ∧
    (let s := asking 6 [wordOfBytes 0 0 0 0] (reserved (.put 0))
     s.Reads 0 6 ∧ s.store.entryOf 0 = none ∧ s.store.audit 0 = .free ∧ ∃ x ∈ s.store.reservations, x.slot / 3 = 0) :=
  ⟨⟨reads_of (by decide +kernel), by decide +kernel⟩,
    ⟨reads_of (by decide +kernel), by decide +kernel, by decide +kernel, attended_of (by decide +kernel)⟩,
    ⟨reads_of (by decide +kernel), by decide +kernel⟩, ⟨reads_of (by decide +kernel), by decide +kernel⟩,
    reads_of (by decide +kernel), by decide +kernel⟩

theorem test_applies_HomeStartsTheRun :
    let asks (n : Nat) (st : ChannelState) (g : Gate) := asking 9 [BitVec.ofNat 32 n] fun s =>
      s.putChannel 3 { s.channel 3 with state := st, gate := g }
    ((asks 4 .unhomed .closed).Reads 0 9 ∧ 3 < (wordAt ((asks 4 .unhomed .closed).entryWords 0) 2).toNat) ∧
    ((asks 3 .idle .closed).Reads 0 9 ∧ ((asks 3 .idle .closed).store.channel 3).state = .idle) ∧
    ((asks 3 .fenced .opened).Reads 0 9 ∧ ((asks 3 .fenced .opened).store.channel 3).gate = .opened) ∧
    ((asks 3 .fenced .closed).Reads 0 9 ∧ ((asks 3 .fenced .closed).store.channel 3).state = .fenced ∧
      ((asks 3 .fenced .closed).store.channel 3).gate = .closed ∧ (asks 3 .fenced .closed).store.passDue = false) :=
  ⟨⟨reads_of (by decide +kernel), by decide +kernel⟩, ⟨reads_of (by decide +kernel), by decide +kernel⟩,
    ⟨reads_of (by decide +kernel), by decide +kernel⟩, reads_of (by decide +kernel), by decide +kernel⟩

/-- The part as a lane request names lane 15 in a state. -/
def laneAsks (kind l : Nat) (st : LaneState) (settled : Option Int) : State :=
  asking kind [BitVec.ofNat 32 l] fun s => s.putLane 15 { s.lane 15 with
    state := st, order := some 0, weight := some .mismatch, settled := settled }

/-- Order 0 ACTIVE with lane 15, so many tyres of its one line filled. -/
def filledOrder (n : Nat) (s : Store) : Store :=
  s.putOrder 0 (some { order .active (some 15) with lines := [⟨3, 1, false, n, 0, none⟩] })

theorem test_applies_LaneAcceptTakesTheWeight :
    ((laneAsks 10 16 .assigned none).Reads 0 10 ∧ (laneAsks 10 15 .free none).Reads 0 10 ∧
      ((laneAsks 10 15 .free none).store.lane 15).state ≠ .assigned) ∧
    ((laneAsks 10 15 .assigned none).Reads 0 10 ∧ ((laneAsks 10 15 .assigned none).store.lane 15).state = .assigned ∧
      ((laneAsks 10 15 .assigned none).store.lane 15).settled = none) ∧
    ((laneAsks 10 15 .assigned (some 40)).Reads 0 10 ∧
      ((laneAsks 10 15 .assigned (some 40)).store.lane 15).settled = some 40) ∧
    (∀ row ∈ [(1, OrderState.complete), (0, .active)],
      gives .laneAccept { laneAsks 10 15 .assigned (some 40) with
          store := filledOrder row.1 (laneAsks 10 15 .assigned (some 40)).store }
        (fun t => (t.store.order 0).any fun o => o.state == row.2) = true) :=
  ⟨⟨reads_of (by decide +kernel), reads_of (by decide +kernel), by decide +kernel⟩,
    ⟨reads_of (by decide +kernel), by decide +kernel⟩, ⟨reads_of (by decide +kernel), by decide +kernel⟩,
    by decide +kernel⟩

theorem test_applies_LaneReleaseTaresTheLane :
    ((laneAsks 11 16 .done none).Reads 0 11 ∧ (laneAsks 11 15 .assigned none).Reads 0 11) ∧
    ((laneAsks 11 15 .done none).Reads 0 11 ∧ ((laneAsks 11 15 .done none).store.lane 15).settled = none) ∧
    ((laneAsks 11 15 .done (some 21)).Reads 0 11 ∧ (laneAsks 11 15 .done (some 21)).store.cfg.emptyThreshold = 20) ∧
    ((laneAsks 11 15 .done (some 20)).Reads 0 11 ∧
      ((laneAsks 11 15 .done (some 20)).store.lane 15).settled = some 20 ∧
      -32768 ≤ ((laneAsks 11 15 .done (some 20)).store.lane 15).tare ∧
      ((laneAsks 11 15 .done (some 20)).store.lane 15).tare ≤ 32767) :=
  ⟨⟨reads_of (by decide +kernel), reads_of (by decide +kernel)⟩, ⟨reads_of (by decide +kernel), by decide +kernel⟩,
    ⟨reads_of (by decide +kernel), by decide +kernel⟩, reads_of (by decide +kernel), by decide +kernel⟩

theorem test_applies_PanelRestartIdentifies :
    let asks (p : Nat) (l : LineState) := asking 12 [BitVec.ofNat 32 p] fun s =>
      s.putPanel 7 { s.panel 7 with line := l }
    (asks 8 .ready).Reads 0 12 ∧ (asks 7 .identifying).Reads 0 12 ∧ (asks 7 .ready).Reads 0 12 ∧
    (asks 7 .offline).Reads 0 12 ∧ (asks 7 .offline).store.Attended ∧
    ((asks 7 .identifying).store.panel 7).line = .identifying ∧ ((asks 7 .ready).store.panel 7).line = .ready :=
  ⟨reads_of (by decide +kernel), reads_of (by decide +kernel), reads_of (by decide +kernel),
    reads_of (by decide +kernel), attended_of (by decide +kernel), by decide +kernel⟩

/-! ## The hypotheses: the floor -/

theorem test_applies_FaceIsChosenByTravel :
    (23 < 24 ∧ 1 < 2 ∧ 0 < 24) ∧ (travel 23 0).1 = 1 ∧ (travel 0 12).2 = .forward ∧ (travel 0 13).2 = .back ∧
    referencePosition (store.channel 0) < 24 ∧
    (∀ x ∈ [true, false], ∀ y ∈ [true, false], ∃ s : Store, s.faceHalted 0 0 = x ∧ s.faceHalted 0 1 = y) := by
  refine ⟨by decide, by decide, by decide, by decide, by decide +kernel, fun x _ y _ => ?_⟩
  refine ⟨(store.putFace 0 { store.face 0 with state := if x then .halted else .idle }).putFace 1
    { store.face 1 with state := if y then .halted else .idle }, ?_⟩
  revert x y
  decide +kernel

/-- A channel of the part in a state, as its drive is heard. -/
def driven (f : Channel → Channel) : State := withChannel f

theorem store_attended : store.Attended := attended_of (by decide +kernel)

theorem store_bounded : store.Bounded := bounded_of (by decide +kernel)

theorem driven_heard (f : Channel → Channel) (h : (f (store.channel 0)).window = [] ∧
    (f (store.channel 0)).queue.length ≤ 8) : (driven f).HearsDrive 0 where
  working := rfl
  fitted := by
    show (store.cfg.carousel 0).fitted = true
    decide
  window := by
    show ((store.putChannel 0 (f (store.channel 0))).channel 0).window = []
    rw [Store.putChannel_channel_self _ (by decide)]; exact h.1
  attended := store_attended.of_eq rfl rfl fun _ _ => rfl
  bounded := {
    reservations := store_bounded.reservations
    numbers := store_bounded.numbers
    queues := fun n => by
      by_cases e : n = 0
      · subst e
        show ((store.putChannel 0 (f (store.channel 0))).channel 0).queue.length ≤ 8
        rw [Store.putChannel_channel_self _ (by decide)]; exact h.2
      · show ((store.putChannel 0 (f (store.channel 0))).channel n).queue.length ≤ 8
        rw [Store.putChannel_channel_other _ e]
        exact store_bounded.queues n
    sources := store_bounded.sources
    listed := store_bounded.listed }

theorem driven_faces (f : Channel → Channel) : (driven f).store.FacesSound :=
  ⟨fun i l => store_faces.faces i l, store_faces.presented⟩

theorem test_applies_ArrivalServesThePosition :
    (let s := driven fun c => { c with
        state := .moving, target := some (23, .back), queue := [⟨11, 1, .count 0⟩] }
     s.HearsDrive 0 ∧ s.store.FacesSound ∧ (s.store.channel 0).state = .moving ∧ (23 : Byte).toNat ≤ 23 ∧
       (s.store.channel 0).target = some ((23 : Byte).toNat, .back) ∧
       (s.store.face (2 * 0 + 1)).state ≠ .halted ∧
       ∃ e ∈ (s.store.channel 0).queue, e.face = 1 ∧ e.carrier = ((23 : Byte).toNat + 12 * 1) % 24) ∧
    (let s := driven fun c => { c with state := .moving, target := some (23, .back) }
     s.HearsDrive 0 ∧ s.store.FacesSound ∧ (s.store.channel 0).target.map Prod.fst ≠ some (22 : Byte).toNat) :=
  ⟨⟨driven_heard _ (by decide +kernel), driven_faces _, by decide +kernel⟩, driven_heard _ (by decide +kernel),
    driven_faces _, by decide +kernel⟩

theorem test_applies_StopHoldsTheCarousel :
    (let s := driven fun c => { c with state := .moving, target := some (4, .back), gate := .opened }
     s.HearsDrive 0 ∧ (s.store.channel 0).state = .moving ∧ (s.store.channel 0).gate = .opened) ∧
    (let s := driven fun c => { c with state := .moving, target := some (4, .back) }
     s.HearsDrive 0 ∧ (s.store.channel 0).state = .moving ∧ (s.store.channel 0).gate = .closed) :=
  ⟨⟨driven_heard _ (by decide +kernel), by decide +kernel⟩, driven_heard _ (by decide +kernel), by decide +kernel⟩

theorem test_applies_HomedBringsIntoService :
    (driven fun c => { c with state := .homing, position := none }).HearsDrive 0 ∧
    ((driven fun c => { c with state := .homing, position := none }).store.channel 0).state = .homing :=
  ⟨driven_heard _ (by decide +kernel), by decide +kernel⟩

theorem test_applies_UnexpectedReportFences :
    (∀ st : ChannelState, (driven fun c => { c with state := st }).HearsDrive 0 ∧
      (driven fun c => { c with state := st }).store.FacesSound ∧
      ((driven fun c => { c with state := st }).store.channel 0).state = st) ∧
    (23 : Byte).toNat ≤ 23 ∧ 1 ≤ (15 : Byte).toNat ∧ (15 : Byte).toNat ≤ 15 :=
  ⟨fun st => ⟨driven_heard (fun c => { c with state := st }) (by cases st <;> decide +kernel), driven_faces _,
    by cases st <;> decide +kernel⟩, by decide⟩

theorem test_applies_DeadlineFencesAndNoiseDoesNot :
    (let s := driven fun c => { c with state := .moving, deadline := some 1 }
     s.path.condition = .working ∧ s.store.Attended ∧ s.store.Bounded ∧ s.store.FacesSound ∧
       (s.store.channel 0).deadline ≠ none) ∧
    (let s := withStore fun s => reserved (.put 15)
        (presenting ⟨.put 0, some 2, 1⟩ .work []
          (s.putChannel 0 { s.channel 0 with state := .moving, deadline := some 1 }))
     s.path.condition = .working ∧ s.store.Attended ∧ s.store.Bounded ∧ s.store.FacesSound ∧
       (s.store.channel 0).deadline ≠ none) ∧
    (part.path.condition = .working ∧ (part.store.channel 0).deadline = none ∧
      (part.store.cfg.carousel 0).fitted = true ∧ (part.store.channel 0).window = [] ∧
      driveSilent [] [0xB1, 0x18] = true ∧ (0 : Byte) ≠ 0xB1 ^^^ 0x18 ^^^ 0x5A ∧
      (0xF3 : Byte) = 0xB1 ^^^ 0x18 ^^^ 0x5A ∧ 23 < (0x18 : Byte).toNat) :=
  ⟨⟨rfl, (driven_heard _ (by decide +kernel)).attended, (driven_heard _ (by decide +kernel)).bounded,
    driven_faces _, by decide +kernel⟩,
    ⟨rfl, attended_of (by decide +kernel), bounded_of (by decide +kernel), faces_of (by decide +kernel),
      by decide +kernel⟩, by decide +kernel⟩

theorem test_applies_GateLineIsTaken :
    (part.store.Attended ∧ look part.gateLines true 0 = true ∧ part.path.condition = .working) ∧
    (∀ st : ChannelState, let s : State := { driven (fun c => { c with state := st, gate := .opened }) with
        gateLines := Vector.replicate 4 false }
      s.store.Attended ∧ look s.gateLines true 0 = false ∧ (s.store.channel 0).state = st) ∧
    (State.reset.store.Attended ∧ State.reset.path.condition ≠ .working ∧
      look State.reset.gateLines true 0 = true) :=
  ⟨⟨attended_of (by decide +kernel), by decide +kernel⟩,
    fun st => ⟨(driven_heard (fun c => { c with state := st, gate := .opened })
      (by cases st <;> decide +kernel)).attended, by cases st <;> decide +kernel⟩,
    attended_of (by decide +kernel), by decide +kernel⟩

theorem test_applies_AnswersDriveThePanelLine :
    let at_ (f : Panel → Panel) := withPanel f
    let sending (l : LineState) (st : Option IdentStep) (n : Nat) := at_ fun x => { x with
      line := l, step := st, outstanding := some .identify, attempt := some n, timer := some 50 }
    (∀ s ∈ [part, sending .identifying (some .awaitAck) 1, sending .identifying (some .awaitIdent) 1,
        sending .identifying (some .awaitRepeatAck) 2, sending .ready none 2],
      s.path.condition = .working ∧ s.store.passDue = false ∧
      (∀ p, p < 8 → (s.store.panel p).line = .ready → (s.store.panel p).outstanding = none →
        (s.store.panel p).shown = some (s.store.face p).desired) ∧
      (∀ p, p < 8 → (s.store.panel p).holder = none) ∧ (s.store.panel 0).received = .none) ∧
    (let acked (c : PanelCommand) (d : Display) := at_ fun x => { x with
        outstanding := some c, attempt := some 1, timer := some 50, shown := some d
        holder := some ⟨.plus, true⟩, inhibit := true }
     ∀ s ∈ [acked .enable { shown with enabled := false }, acked .halt shown,
        at_ (fun x => { x with
          line := .identifying, step := some .awaitIdent, outstanding := some .identify, attempt := some 1
          timer := some 50, received := .ident }),
        at_ (fun x => { x with received := .breakPrefix }),
        at_ (fun x => { x with line := .offline, shown := none })],
      s.path.condition = .working ∧ s.store.passDue = false ∧
      (∀ p, p < 8 → (s.store.panel p).line = .ready → (s.store.panel p).outstanding = none →
        (s.store.panel p).shown = some (s.store.face p).desired ∧ (s.store.panel p).holder = none)) ∧
    ((part.store.panel 0).outstanding = none ∧ ((sending .ready none 2).store.panel 0).timer ≠ none ∧
      (0xBF : Byte).toNat ≤ 0xBF ∧ (0x31 : Byte).toNat ≤ 0xBF) := by decide +kernel

theorem test_applies_KeyEventsReachTheHolder :
    let full := withPanel fun x => { x with
      outstanding := some .enable, attempt := some 1, holder := some ⟨.plus, true⟩, received := .breakPrefix }
    let waits := withPanel fun x => { x with outstanding := some .enable, attempt := some 1 }
    let names := withPanel fun x => { x with line := .identifying, received := .ident }
    (∀ s ∈ [part, full, waits, names],
      s.path.condition = .working ∧ s.store.passDue = false ∧
      (∀ p, p < 8 → (s.store.panel p).line = .ready → (s.store.panel p).outstanding = none →
        (s.store.panel p).shown = some (s.store.face p).desired ∧ (s.store.panel p).holder = none)) ∧
    (part.store.panel 0).holder = none ∧ (waits.store.panel 0).holder = none ∧
    (waits.store.panel 0).outstanding ≠ none ∧ (full.store.panel 0).received = .breakPrefix ∧
    (names.store.panel 0).received = .ident ∧ 0xBF < (0xC0 : Byte).toNat ∧
    (6 : Byte) ∉ ([0xE0, 0xE1, 0xE2, 0xF0, 1, 2, 3, 4, 5] : List Byte) := by decide +kernel

theorem test_applies_BadByteSetsItsFlags :
    part.path.condition = .working ∧ (part.store.panel 7).line ≠ .offline := by decide +kernel

theorem test_applies_KeysActAtTheFace :
    let shows (it : Item) (k : Key) (make : Bool) := withStore fun s => holding k make (presenting it .count [] s)
    (∀ s ∈ [shows ⟨.count 0, none, 98⟩ .plus true, shows ⟨.count 0, none, 99⟩ .plus true,
        shows ⟨.count 0, none, 1⟩ .minus true, shows ⟨.count 0, none, 0⟩ .minus true,
        shows ⟨.count 0, none, 0⟩ .minus false, shows ⟨.count 0, none, 0⟩ .bay2 true],
      s.path.condition = .working ∧ s.store.passDue = false ∧
      (∀ q, q < 8 → (s.store.panel q).line = .ready ∧ (s.store.panel q).outstanding = none ∧
        (s.store.panel q).shown = some (s.store.face q).desired) ∧
      (s.store.panel 0).holder ≠ none ∧ (s.store.face 0).state = .presenting ∧ (s.store.face 0).selected = some 0) ∧
    (∀ d ∈ [{ shown with enabled := false }, { shown with bays := put shown.bays 2 ⟨.pick, 1, some 0⟩ },
        { shown with note := .wait }, shown],
      ((withPanel fun x => { x with shown := some d }).store.panel 0).shown = some d) := by decide +kernel

/-- The part with the break of bay 0's key in the holder, and an item at the head of bay 0. -/
def breaking (it : Item) (kind : PresentationKind) (bay1 : List Item) (f : Store → Store) : State :=
  withStore fun s => holding .bay0 false (presenting it kind bay1 (f s))

theorem test_applies_BayBreakConfirmsTheHead :
    let pick := breaking ⟨.pick 0, some 2, 1⟩ .work [] fun s =>
      (reserved (.pick 63 1) (stocked s)).putOrder 63 (some (order .active (some 15)))
    let putIn := breaking ⟨.put 0, some 2, 1⟩ .work [] fun s =>
      (reserved (.put 15) s).setBatch 15 (.opened ⟨7, 3, 9, 2, 2, 0, 0⟩)
    let count := breaking ⟨.count 15, none, 4⟩ .count [⟨.count 15, none, 0⟩] fun s => s.setAudit 15 (entry .ready)
    (∀ s ∈ [pick, putIn, count],
      s.path.condition = .working ∧ s.store.passDue = false ∧
      (∀ q, q < 8 → (s.store.panel q).line = .ready ∧ (s.store.panel q).outstanding = none ∧
        (s.store.panel q).shown = some (s.store.face q).desired) ∧
      (s.store.panel 0).holder = some ⟨.bay0, false⟩ ∧ (s.store.face 0).state = .presenting ∧
      0 ∈ (s.store.face 0).held ∧ 2 ∉ (s.store.face 0).held ∧ look (s.store.face 0).bays [] 2 = []) ∧
    pick.store.Bounded ∧ putIn.store.Bounded ∧ count.store.Bounded ∧
    (pick.store.reservation 0 = some ⟨0, .pick 63 1, 0, 2, .presented 0⟩ ∧
      (pick.store.order 63).map Order.lines = some (order .active none).lines) ∧
    (putIn.store.reservation 0 = some ⟨0, .put 15, 0, 2, .presented 0⟩ ∧
      putIn.store.batch 15 = .opened ⟨7, 3, 9, 2, 2, 0, 0⟩) ∧
    (count.store.audit 15 = entry .ready ∧ look (count.store.face 0).bays [] 1 ≠ []) ∧
    (∀ k ∈ [4, 5],
      let last := breaking ⟨.count 15, none, k⟩ .count [] fun s => { s.setAudit 15 counting with auditList := [15] }
      last.store.audit 15 = counting ∧ (last.store.face 0).kind = some .count ∧ (last.store.face 0).carrier = some 0 ∧
      last.store.entryOf 0 = some 15 ∧ look (last.store.face 0).bays [] 1 = [] ∧
      (last.store.channel 0).queue = [] ∧ (last.store.channel 0).pendingCount = none ∧ last.store.waiting = [] ∧
      (∀ r, r < 96 → (last.store.carrier r).auditWanted = false) ∧
      (∀ a, a < 15 → last.store.audit a = .free) ∧
      gives (.bayKeyBreak 0) last (fun t => match t.store.audit 15 with
        | .committed _ => k == 4 && (t.store.face 0).state == .idle
        | _ => k == 5 && (t.store.face 0).state == .presenting) = true) ∧
    (∀ row ∈ [(180, OrderState.complete), (140, .active)],
      let fills := breaking ⟨.pick 0, some 2, 2⟩ .work [] fun s =>
        (reserved (.pick 63 0) (stocked s)).putOrder 63 (some { order .active (some 15) with
          lines := [⟨3, 2, false, 0, 2, none⟩] }) |>.putLane 15 { s.lane 15 with
            state := .assigned, order := some 63, weight := some .matched, settled := some row.1, tolerance := 20 }
      fills.store.article 3 = some ⟨77, 2, 90, 4⟩ ∧ (fills.store.slot 0).article = some 3 ∧
      gives (.bayKeyBreak 0) fills (fun t => ((t.store.order 63).any fun o => o.state == row.2) &&
        (t.store.lane 15).expected == 180) = true) :=
  ⟨by decide +kernel, bounded_of (by decide +kernel), bounded_of (by decide +kernel), bounded_of (by decide +kernel),
    by decide +kernel⟩

theorem test_applies_SampleSettlesTheLane :
    let of (st : LaneState) (w : Option WeightState) (xs : List Int) := withLane fun x => { x with
      state := st, weight := w, samples := xs, scale := .fault, expected := 100, tolerance := 4 }
    (∀ s ∈ [of .unsettled none [9, 10], of .free none [9, 10, 11], of .assigned (some .matched) [], of .done none [1],
        of .assigned (some .mismatch) [100, 100]],
      s.path.condition = .working ∧ s.store.passDue = false ∧
      (∀ q, q < 8 → (s.store.panel q).shown = some (s.store.face q).desired) ∧
      (s.store.cfg.lane 0).fitted = true ∧ (s.store.lane 0).scan ≠ none ∧ (s.store.lane 0).samples.length ≤ 3) ∧
    (∀ row ∈ [(1, OrderState.complete), (0, .active)],
      let s := withStore fun s => filledOrder row.1 (s.putLane 15 { s.lane 15 with
        state := .assigned, order := some 0, weight := some .mismatch, samples := [100, 100], expected := 100 })
      (s.store.order 0).bind Order.lane = some 15 ∧
      gives (.scanTimer 15 100 true) s (fun t => (t.store.order 0).any fun o => o.state == row.2) = true) := by
  decide +kernel

theorem test_applies_ArrivalTimerGivesMismatch :
    (let s := withLane fun x => { x with state := .assigned, weight := some .arriving, arrival := some 5 }
     s.path.condition = .working ∧ (s.store.lane 0).state = .assigned ∧ (s.store.lane 0).arrival ≠ none) ∧
    (part.path.condition = .working ∧ (part.store.lane 0).state ≠ .assigned) := by decide +kernel

end Sys2Proof.Tests
end

/-! # What the end of an event leaves: the notice list and the records listed -/

section

namespace Sys2Proof.Machine

open Sys2Proof

/-! ## Records stay listed

Every operation of the job blocks is a chain of primitive updates; none of them takes a record off the write-back list. -/

theorem Store.mem_list_writeBack (s : Store) (r : ImageRecord) : r ∈ (s.list r).writeBack := by
  unfold Store.list
  split
  · rename_i h; simpa using h
  · simp

theorem Store.mem_list_writeBack_of_mem {s : Store} {x : ImageRecord} (h : x ∈ s.writeBack) (r : ImageRecord) :
    x ∈ (s.list r).writeBack := by
  unfold Store.list
  split
  · exact h
  · exact List.mem_append_left _ h

theorem Prim.keeps_listed {s t : Store} (p : Prim s t) {x : ImageRecord} (h : x ∈ s.writeBack) : x ∈ t.writeBack := by
  cases p with
  | list r => exact Store.mem_list_writeBack_of_mem h r
  | _ => exact h

theorem Evolves.keeps_listed {s t : Store} (h : Evolves s t) {x : ImageRecord} (hx : x ∈ s.writeBack) :
    x ∈ t.writeBack := by
  induction h with
  | refl => exact hx
  | step _ p ih => exact p.keeps_listed ih

/-! ## The notice list

Neither the allocation pass nor the comparison of the displays raises a notice: one lemma for each operation they are
made of, in the order of the definitions. -/

namespace Store

theorem foldl_notices {α : Type} (g : Store → α → Store) (h : ∀ s x, (g s x).notices = s.notices) (xs : List α)
    (s : Store) : (xs.foldl g s).notices = s.notices := by
  induction xs generalizing s with
  | nil => rfl
  | cons x xs ih => rw [List.foldl_cons, ih, h]

/-! ### Presentations -/

@[simp] theorem markFaceOpen_notices (s : Store) (r : Nat) (v : Bool) : (s.markFaceOpen r v).notices = s.notices :=
  updCarrier_notices _ _ _

@[simp] theorem changeSlot_notices (s : Store) (q : Nat) (f : Slot → Slot) : (s.changeSlot q f).notices = s.notices :=
  updCarrier_notices _ _ _

@[simp] theorem derive_notices (s : Store) (i : Nat) : (s.derive i).notices = s.notices := setFace_notices _ _ _

@[simp] theorem deriveBoth_notices (s : Store) (n : Nat) : (s.deriveBoth n).notices = s.notices := by
  simp [deriveBoth]

@[simp] theorem changeChannel_notices (s : Store) (n : Nat) (c : Channel) :
    (s.changeChannel n c).notices = s.notices := by
  simp only [changeChannel]; split <;> simp

@[simp] theorem presentAll_notices (s : Store) (ns : List Nat) (f : Nat) : (s.presentAll ns f).notices = s.notices :=
  foldl_notices _ (fun s n => setReservationState_notices s n _) _ _

@[simp] theorem openWork_notices (s : Store) (n f c : Nat) (ns : List Nat) :
    (s.openWork n f c ns).notices = s.notices := by
  simp [openWork]

@[simp] theorem auditPresented_notices (s : Store) (a f : Nat) : (s.auditPresented a f).notices = s.notices := by
  unfold auditPresented; split <;> rfl

@[simp] theorem openCount_notices (s : Store) (n f c a : Nat) : (s.openCount n f c a).notices = s.notices := by
  simp [openCount]

@[simp] theorem join_notices (s : Store) (n f : Nat) (r : Reservation) : (s.join n f r).notices = s.notices := by
  simp only [join, list_notices]; split <;> simp

/-! ### Motion -/

@[simp] theorem enqueue_notices (s : Store) (n : Nat) (e : QueueEntry) : (s.enqueue n e).notices = s.notices :=
  setChannel_notices _ _ _

@[simp] theorem placeCore_notices (s : Store) (num : Nat) : (s.placeCore num).1.notices = s.notices := by
  unfold placeCore
  split
  · rfl
  · split
    · rfl
    · dsimp only
      split
      · simp
      · split
        · simp
        · split
          · split <;> simp
          · rfl

@[simp] theorem countCore_notices (s : Store) (n a c : Nat) : (s.countCore n a c).1.notices = s.notices := by
  simp only [countCore]
  split
  · split <;> simp
  · simp

@[simp] theorem retryCore_notices (s : Store) (n : Nat) : (s.retryCore n).notices = s.notices := by
  simp only [retryCore]
  rw [foldl_notices _ placeCore_notices]
  split <;> simp

@[simp] theorem serveFace_notices (s : Store) (n p f : Nat) : (s.serveFace n p f).1.notices = s.notices := by
  simp only [serveFace]
  split
  · rfl
  · split <;> simp

@[simp] theorem serveAt_notices (s : Store) (n p : Nat) : (s.serveAt n p).notices = s.notices := by
  simp only [serveAt]; split <;> simp

@[simp] theorem serviceCheck_notices (s : Store) (n : Nat) : (s.serviceCheck n).notices = s.notices := by
  unfold serviceCheck
  split
  · split
    · rfl
    · dsimp only; split <;> simp [sendMove]
  · rfl

@[simp] theorem place_notices (s : Store) (num : Nat) : (s.place num).notices = s.notices := by
  unfold place
  split
  · rfl
  · unfold serviceAfter; split <;> simp

/-! ### The allocation pass -/

@[simp] theorem takeClaim_notices (s : Store) (c : Claim) (q k : Nat) (f : Slot → Slot) :
    (s.takeClaim c q k f).2.notices = s.notices := by
  unfold takeClaim
  split
  · simp
  · split <;> simp

@[simp] theorem claimPick_notices (s : Store) (q o l a k : Nat) : (s.claimPick q o l a k).2.notices = s.notices := by
  unfold claimPick; split <;> simp

@[simp] theorem putLine_notices (s : Store) (k l : Nat) (f : Line → Line) : (s.putLine k l f).notices = s.notices := by
  unfold putLine; split <;> rfl

@[simp] theorem lineClaimed_notices (s : Store) (o l k : Nat) (w : Option Nat) :
    (s.lineClaimed o l k w).notices = s.notices := by
  simp only [lineClaimed, list_notices]; split <;> simp

@[simp] theorem serveLine_notices (o l : Nat) (w : Option Nat) (n : Nat) (s : Store) :
    (serveLine o l w n s).1.notices = s.notices := by
  induction n generalizing s with
  | zero => rfl
  | succ n ih =>
    unfold serveLine
    split
    · rfl
    · split
      · rfl
      · split
        · rfl
        · rename_i x _ _ _ q _
          dsimp only
          have h := claimPick_notices s q o l x.article (min (s.available q) x.need)
          split <;> rename_i heq <;> rw [heq] at h
          · rw [ih, lineClaimed_notices, h]
          · exact h
          · exact h

@[simp] theorem serveEntry_notices (s : Store) (e : Nat × Nat) : (s.serveEntry e).1.notices = s.notices := by
  unfold serveEntry
  split
  · rfl
  · split
    · split
      · simp
      · split <;> simp
    · simp

@[simp] theorem serveEntries_notices (es : List (Nat × Nat)) (s : Store) :
    (serveEntries es s).notices = s.notices := by
  induction es generalizing s with
  | nil => rfl
  | cons e es ih => simp only [serveEntries]; split <;> simp [ih]

@[simp] theorem allocationPass_notices (s : Store) : s.allocationPass.notices = s.notices := by
  unfold allocationPass; split <;> simp

/-! ### The end of an event -/

@[simp] theorem agreePanel_notices (s : Store) (p : Nat) : (s.agreePanel p).notices = s.notices := by
  simp only [agreePanel]
  split
  · split
    · rfl
    · split <;> rfl
  · rfl

@[simp] theorem agreeAll_notices (s : Store) : s.agreeAll.notices = s.notices := foldl_notices _ agreePanel_notices _ _

/-- The end of an event raises no notice. -/
@[simp] theorem eventEnd_notices (s : Store) : s.eventEnd.notices = s.notices := by simp [eventEnd]

theorem standing_articles (s : Store) : s.standing.articles = s.articles := rfl

/-- The end of an event leaves the article table. -/
@[simp] theorem eventEnd_articles (s : Store) : s.eventEnd.articles = s.articles := by
  rw [← standing_articles s.eventEnd, standing_eventEnd, standing_articles]

theorem eventEnd_keeps_listed (s : Store) {x : ImageRecord} (h : x ∈ s.writeBack) : x ∈ s.eventEnd.writeBack :=
  (eventEnd_evolves s).keeps_listed h

end Store

end Sys2Proof.Machine

end

/-! # Requests on the article table (R11 to R13) -/

section

namespace Sys2Proof.Machine

open Sys2Proof

/-! ## An owner's answer as the outcome of its row -/

namespace Answer

@[simp] theorem refuse_store (s : Store) (st : Status) : (refuse s st).store = s := rfl
@[simp] theorem refuse_status (s : Store) (st : Status) : (refuse s st).status = st := rfl
@[simp] theorem refuse_data (s : Store) (st : Status) : (refuse s st).data = [] := rfl
@[simp] theorem accept_store (s : Store) (st : Status) (ws : List Word) : (accept s st ws).store = s.eventEnd := by
  simp only [accept]
@[simp] theorem accept_status (s : Store) (st : Status) (ws : List Word) : (accept s st ws).status = st := rfl
@[simp] theorem accept_data (s : Store) (st : Status) (ws : List Word) : (accept s st ws).data = ws := rfl

end Answer

theorem exec_articleRemove (s : State) :
    exec .articleRemove s = .next (s.requestRow (· == Code.articleRemove) Owner.articleRemove) := rfl

/-- A row whose owner refuses an entry refuses it (R174). -/
theorem State.Reads.refuses {s : State} {e k : Nat} (h : s.Reads e k) {c : Instr} {isKind : Nat → Bool}
    {f : List Word → Store → Answer} (hc : exec c s = .next (s.requestRow isKind f)) (hk : isKind k = true)
    {st : Status} (hf : f (s.entryWords e) s.store = .refuse s.store st) : s.Refuses c e st := by
  obtain ⟨hans, hstore⟩ := State.requestRow_taken h hk f
  rw [hf, Answer.refuse_status, Answer.refuse_data] at hans
  rw [hf, Answer.refuse_store] at hstore
  exact ⟨_, hc, hans, hstore⟩

/-- A row whose owner accepts an entry with a store accepts it, with what that store is at the end of the event. -/
theorem State.Reads.accepts {s : State} {e k : Nat} (h : s.Reads e k) {c : Instr} {isKind : Nat → Bool}
    {f : List Word → Store → Answer} (hc : exec c s = .next (s.requestRow isKind f)) (hk : isKind k = true)
    {x : Store} {st : Status} {data : List Word} (hf : f (s.entryWords e) s.store = .accept x st data)
    {effect : Store → Prop} (hx : effect x.eventEnd) : s.Accepts c e st data effect := by
  obtain ⟨hans, hstore⟩ := State.requestRow_taken h hk f
  rw [hf, Answer.accept_status, Answer.accept_data] at hans
  rw [hf, Answer.accept_store] at hstore
  exact ⟨_, hc, hans, by rw [hstore]; exact hx⟩

/-! ## An article in use (R11) -/

/-- What holds of some entry of a table, by its index. -/
theorem toList_any_iff_look {α : Type} {n : Nat} (t : Vector α n) (d : α) (p : α → Bool) :
    t.toList.any p = true ↔ ∃ i, i < n ∧ p (look t d i) = true := by
  have hlook : ∀ i (hi : i < n), look t d i = t[i] := fun i hi => by simp [look, hi]
  rw [List.any_eq_true]
  constructor
  · rintro ⟨x, hx, hp⟩
    obtain ⟨i, hi, rfl⟩ := Vector.mem_iff_getElem.mp (Vector.mem_toList_iff.mp hx)
    exact ⟨i, hi, by rw [hlook i hi]; exact hp⟩
  · rintro ⟨i, hi, hp⟩
    exact ⟨t[i], Vector.mem_toList_iff.mpr (Vector.getElem_mem hi), by rw [← hlook i hi]; exact hp⟩

/-- What holds of an entry other than the default holds within the table. -/
theorem lt_of_look {α : Type} {n : Nat} {t : Vector α n} {d : α} {i : Nat} (h : look t d i ≠ d) : i < n :=
  Nat.lt_of_not_le fun hi => h (by simp only [look, Vector.getElem?_eq_none hi, Option.getD_none])

namespace Store

/-- A slot of the article's: slot `3 r + b` is bay `b` of carrier record `r` (R1). -/
theorem articleHeld_iff (s : Store) (a : Nat) :
    s.articleHeld a = true ↔ ∃ q, q < 288 ∧ (s.slot q).article = some a := by
  simp only [articleHeld, toList_any_iff_look s.carriers Carrier.blank, toList_any_iff_look _ Slot.empty, beq_iff_eq]
  constructor
  · rintro ⟨r, hr, b, hb, h⟩
    refine ⟨3 * r + b, by omega, ?_⟩
    have hrec : slotRecord (3 * r + b) = r := by unfold slotRecord; omega
    have hbay : slotBay (3 * r + b) = b := by unfold slotBay; omega
    rw [slot, hrec, hbay]
    exact h
  · rintro ⟨q, hq, h⟩
    exact ⟨q / 3, by omega, q % 3, by omega, h⟩

theorem articleOrdered_iff (s : Store) (a : Nat) :
    s.articleOrdered a = true ↔ ∃ k o l, s.order k = some o ∧ l ∈ o.lines ∧ l.article = a := by
  simp only [articleOrdered, toList_any_iff_look s.orders none, Option.any_eq_true, List.any_eq_true, beq_iff_eq]
  constructor
  · rintro ⟨k, _, o, ho, l, hl, h⟩
    exact ⟨k, o, l, ho, hl, h⟩
  · rintro ⟨k, o, l, ho, hl, h⟩
    exact ⟨k, lt_of_look (t := s.orders) (by rw [← order, ho]; nofun), o, ho, l, hl, h⟩

theorem articleBatched_iff (s : Store) (a : Nat) :
    s.articleBatched a = true ↔ ∃ b x, s.batch b = .opened x ∧ x.article = a := by
  rw [articleBatched, toList_any_iff_look s.batches .free]
  constructor
  · rintro ⟨b, _, h⟩
    split at h
    · rename_i x hx
      exact ⟨b, x, hx, by simpa using h⟩
    · cases h
    · cases h
  · rintro ⟨b, x, hx, h⟩
    refine ⟨b, lt_of_look (t := s.batches) (by rw [← batch, hx]; nofun), ?_⟩
    rw [← batch, hx]
    simpa using h

/-- An article is in use when a slot holds it, a line of an order not yet freed names it, or an OPEN batch does (R11). -/
theorem articleInUse_iff (s : Store) (a : Nat) :
    s.articleInUse a = true ↔ (∃ q, q < 288 ∧ (s.slot q).article = some a) ∨
      (∃ k o l, s.order k = some o ∧ l ∈ o.lines ∧ l.article = a) ∨
      (∃ b x, s.batch b = .opened x ∧ x.article = a) := by
  rw [articleInUse, Bool.or_eq_true, Bool.or_eq_true, articleHeld_iff, articleOrdered_iff, articleBatched_iff, or_assoc]

/-! ## An article entry replaced (R24) -/

theorem article_eq_none_of_gt (s : Store) {a : Nat} (h : 511 < a) : s.article a = none := by
  rw [article, look, Vector.getElem?_eq_none (by omega), Option.getD_none]

theorem standing_setArticle (s : Store) (a : Nat) (x : Option Article) :
    (s.setArticle a x).standing = { s.standing with articles := put s.articles a x } := by
  rw [setArticle, standing_list]; rfl

/-- The entry after its replacement, at the end of the event. -/
theorem setArticle_eventEnd_article (s : Store) (a b : Nat) (x : Option Article) :
    (s.setArticle a x).eventEnd.article b = if a = b ∧ a < 512 then x else s.article b := by
  simp only [article, eventEnd_articles, setArticle_articles, look_put]

theorem setArticle_eventEnd_listed (s : Store) (a : Nat) (x : Option Article) :
    .article a ∈ (s.setArticle a x).eventEnd.writeBack :=
  eventEnd_keeps_listed _ (mem_list_writeBack _ _)

/-- Nothing else stands changed at the end of the event. -/
theorem setArticle_eventEnd_standing (s : Store) (a : Nat) (x : Option Article) :
    (s.setArticle a x).eventEnd.standing =
      { s.standing with articles := (s.setArticle a x).eventEnd.articles } := by
  rw [standing_eventEnd, standing_setArticle, eventEnd_articles, setArticle_articles]

end Store

/-! ## ARTICLE_REMOVE (R13) -/

namespace Owner

theorem articleRemove_undefined {ws : List Word} {s : Store} (h : s.article (Req.whole ws 2) = none) :
    articleRemove ws s = .refuse s .notFound := by simp [articleRemove, h]

theorem articleRemove_inUse {ws : List Word} {s : Store} (hd : s.article (Req.whole ws 2) ≠ none)
    (hu : s.articleInUse (Req.whole ws 2) = true) : articleRemove ws s = .refuse s .inUse := by
  simp [articleRemove, hd, hu]

theorem articleRemove_removes {ws : List Word} {s : Store} (hd : s.article (Req.whole ws 2) ≠ none)
    (hu : ¬ s.articleInUse (Req.whole ws 2) = true) :
    articleRemove ws s = .accept (s.setArticle (Req.whole ws 2) none) .accepted [] := by
  simp [articleRemove, hd, hu]

end Owner

end Sys2Proof.Machine

end

section

open Sys2Proof Sys2Proof.Machine

/-- Settles O37: the three answers of the owner, by whether the entry is DEFINED and whether it is in use (R11, R13). -/
theorem articleRemoveClearsTheEntry : Obligations.ArticleRemoveClearsTheEntry := by
  unfold Obligations.ArticleRemoveClearsTheEntry
  intro s e h a inUse
  have hrow := exec_articleRemove s
  have hkind : (Code.articleRemove == Code.articleRemove) = true := beq_self_eq_true _
  have huse : s.store.articleInUse a = true ↔ inUse := s.store.articleInUse_iff a
  refine ⟨fun hnone => ?_, fun _ hdef hu => ?_, fun ha hdef hfree => ?_⟩
  · have hnone : s.store.article a = none := hnone.elim s.store.article_eq_none_of_gt id
    exact h.refuses hrow hkind (Owner.articleRemove_undefined hnone)
  · exact h.refuses hrow hkind (Owner.articleRemove_inUse hdef (huse.mpr hu))
  · refine h.accepts hrow hkind (Owner.articleRemove_removes hdef (mt huse.mp hfree)) ⟨?_, fun b hb => ?_,
      Store.setArticle_eventEnd_listed .., Store.setArticle_eventEnd_standing .., by simp⟩
    · rw [Store.setArticle_eventEnd_article]
      exact if_pos ⟨rfl, Nat.lt_succ_of_le ha⟩
    · rw [Store.setArticle_eventEnd_article]
      exact if_neg fun hab => hb hab.1.symm

end

/-! # The channel: its homing run (R48), and the choice of a face by travel (R28, R32) -/

section

namespace Sys2Proof.Machine

open Sys2Proof

/-! ## The end of an event with no pass due -/

namespace Store

/-- The comparison of a panel with its face changes the panels alone (R86). -/
theorem agreePanel_panels_only (s : Store) (p : Nat) : ∃ ps, s.agreePanel p = { s with panels := ps } := by
  simp only [agreePanel]
  split
  · split
    · exact ⟨s.panels, rfl⟩
    · split
      · exact ⟨_, rfl⟩
      · exact ⟨s.panels, rfl⟩
  · exact ⟨s.panels, rfl⟩

theorem foldl_agreePanel_panels_only (xs : List Nat) (s : Store) :
    ∃ ps, xs.foldl agreePanel s = { s with panels := ps } := by
  induction xs generalizing s with
  | nil => exact ⟨s.panels, rfl⟩
  | cons p xs ih =>
    obtain ⟨_, hfirst⟩ := s.agreePanel_panels_only p
    obtain ⟨ps, hrest⟩ := ih (s.agreePanel p)
    exact ⟨ps, by rw [List.foldl_cons, hrest, hfirst]⟩

/-- Where no allocation pass is due, the end of an event changes the panels alone (R86, R100). -/
theorem eventEnd_panels_only {s : Store} (h : s.passDue = false) : ∃ ps, s.eventEnd = { s with panels := ps } := by
  have hpass : s.allocationPass = s := if_neg (by rw [h]; nofun)
  rw [eventEnd, hpass]
  exact foldl_agreePanel_panels_only _ s

/-! ## A channel replaced (R52, R70) -/

@[simp] theorem derive_channels (s : Store) (i : Nat) : (s.derive i).channels = s.channels := setFace_channels _ _ _

@[simp] theorem derive_reservations (s : Store) (i : Nat) : (s.derive i).reservations = s.reservations :=
  setFace_reservations _ _ _

@[simp] theorem derive_passDue (s : Store) (i : Nat) : (s.derive i).passDue = s.passDue := setFace_passDue _ _ _

@[simp] theorem changeChannel_channels (s : Store) (n : Nat) (c : Channel) :
    (s.changeChannel n c).channels = put s.channels n c := by
  simp only [changeChannel]; split <;> simp [deriveBoth]

@[simp] theorem changeChannel_reservations (s : Store) (n : Nat) (c : Channel) :
    (s.changeChannel n c).reservations = s.reservations := by
  simp only [changeChannel]; split <;> simp [deriveBoth]

@[simp] theorem changeChannel_passDue (s : Store) (n : Nat) (c : Channel) :
    (s.changeChannel n c).passDue = s.passDue := by
  simp only [changeChannel]; split <;> simp [deriveBoth]

theorem changeChannel_channel_self (s : Store) {n : Nat} (h : n < 4) (c : Channel) :
    (s.changeChannel n c).channel n = c := by
  simp [channel, look_put, h]

theorem changeChannel_channel_other (s : Store) {n m : Nat} (h : m ≠ n) (c : Channel) :
    (s.changeChannel n c).channel m = s.channel m := by
  simp [channel, look_put, Ne.symm h]

/-- A channel record that shows another status is listed (R52). -/
theorem setChannel_listed {s : Store} {n : Nat} {c : Channel} (h : statusOf (s.channel n) ≠ statusOf c) :
    .status n ∈ (s.setChannel n c).writeBack := by
  rw [setChannel, if_neg h]
  exact mem_list_writeBack _ _

/-- A change of a channel's state lists its record, and both faces derive their displays (R52, R70). -/
theorem changeChannel_listed {s : Store} {n : Nat} {c : Channel} (h : (s.channel n).state ≠ c.state) :
    .status n ∈ (s.changeChannel n c).writeBack := by
  have hset : .status n ∈ (s.setChannel n c).writeBack :=
    setChannel_listed fun heq => h (congrArg ChannelStatus.state heq)
  rw [changeChannel, if_neg h]
  exact (deriveBoth_evolves _ n).keeps_listed hset

/-! ## HOME (R48) -/

/-- The channel in its homing run: the deadline of a whole turn, and the bytes of HOME (R48, R197). -/
theorem sendHome_channel_self (s : Store) {n : Nat} (h : n < 4) :
    (s.sendHome n).channel n = { s.channel n with
      state := .homing
      deadline := some (24 * (s.cfg.carousel n).stepTime + (s.cfg.carousel n).settleAllowance)
      sent := [0xA2, 0x00, 0xF8] } := by
  rw [sendHome, changeChannel_channel_self s h]
  rfl

theorem sendHome_channel_other (s : Store) {n m : Nat} (h : m ≠ n) : (s.sendHome n).channel m = s.channel m :=
  changeChannel_channel_other s h _

@[simp] theorem sendHome_reservations (s : Store) (n : Nat) : (s.sendHome n).reservations = s.reservations :=
  changeChannel_reservations _ _ _

@[simp] theorem sendHome_notices (s : Store) (n : Nat) : (s.sendHome n).notices = s.notices :=
  changeChannel_notices _ _ _

@[simp] theorem sendHome_passDue (s : Store) (n : Nat) : (s.sendHome n).passDue = s.passDue :=
  changeChannel_passDue _ _ _

theorem sendHome_listed {s : Store} {n : Nat} (h : (s.channel n).state ≠ .homing) :
    .status n ∈ (s.sendHome n).writeBack :=
  changeChannel_listed h

end Store

theorem exec_home (s : State) : exec .home s = .next (s.requestRow (· == Code.home) Owner.home) := rfl

namespace Owner

variable {ws : List Word} {s : Store}

theorem home_notFitted (h : ¬ (Req.whole ws 2 ≤ 3 ∧ s.fitted (Req.whole ws 2) = true)) :
    home ws s = .refuse s .notFitted := by
  have hcheck : 3 < Req.whole ws 2 ∨ s.fitted (Req.whole ws 2) = false :=
    (Decidable.not_and_iff_or_not.mp h).imp Nat.lt_of_not_le eq_false_of_ne_true
  simp only [home, if_pos hcheck]

/-- HOME on a fitted carousel: the checks that are left, and the run (R48). -/
theorem home_fitted (h : Req.whole ws 2 ≤ 3 ∧ s.fitted (Req.whole ws 2) = true) :
    home ws s =
      if (s.channel (Req.whole ws 2)).state ≠ .unhomed ∧ (s.channel (Req.whole ws 2)).state ≠ .fenced then
        .refuse s .wrongState
      else if (s.channel (Req.whole ws 2)).gate = .opened then .refuse s .gateOpen
      else .accept (s.sendHome (Req.whole ws 2)) .accepted [] := by
  have hcheck : ¬ (3 < Req.whole ws 2 ∨ s.fitted (Req.whole ws 2) = false) := by simp [h.1, h.2]
  simp only [home, if_neg hcheck]

theorem home_wrongState (hf : Req.whole ws 2 ≤ 3 ∧ s.fitted (Req.whole ws 2) = true)
    (hs : ¬ ((s.channel (Req.whole ws 2)).state = .unhomed ∨ (s.channel (Req.whole ws 2)).state = .fenced)) :
    home ws s = .refuse s .wrongState := by
  rw [home_fitted hf, if_pos (not_or.mp hs)]

theorem home_gateOpen (hf : Req.whole ws 2 ≤ 3 ∧ s.fitted (Req.whole ws 2) = true)
    (hs : (s.channel (Req.whole ws 2)).state = .unhomed ∨ (s.channel (Req.whole ws 2)).state = .fenced)
    (hg : (s.channel (Req.whole ws 2)).gate = .opened) : home ws s = .refuse s .gateOpen := by
  rw [home_fitted hf, if_neg fun hn => not_or.mpr hn hs, if_pos hg]

theorem home_starts (hf : Req.whole ws 2 ≤ 3 ∧ s.fitted (Req.whole ws 2) = true)
    (hs : (s.channel (Req.whole ws 2)).state = .unhomed ∨ (s.channel (Req.whole ws 2)).state = .fenced)
    (hg : (s.channel (Req.whole ws 2)).gate = .closed) :
    home ws s = .accept (s.sendHome (Req.whole ws 2)) .accepted [] := by
  rw [home_fitted hf, if_neg fun hn => not_or.mpr hn hs, if_neg (by rw [hg]; nofun)]

end Owner

/-! ## Geometry (R28) -/

/-- A carrier's target is the one position at which the face shows it. -/
theorem eq_targetOf_iff_shownAt {c f t : Nat} (hc : c < 24) (hf : f < 2) (ht : t < 24) :
    t = targetOf c f ↔ shownAt t f = c := by
  unfold targetOf shownAt; omega

/-- Up to half a turn is travelled FORWARD. -/
theorem travel_forward {p t : Nat} (h : (t + 24 - p) % 24 ≤ 12) : travel p t = ((t + 24 - p) % 24, .forward) :=
  if_pos h

/-- More than half a turn is travelled BACK, the rest of the turn. -/
theorem travel_back {p t : Nat} (h : 12 < (t + 24 - p) % 24) : travel p t = (24 - (t + 24 - p) % 24, .back) :=
  if_neg (Nat.not_le.mpr h)

theorem travel_steps (p t : Nat) :
    (travel p t).1 = if (t + 24 - p) % 24 ≤ 12 then (t + 24 - p) % 24 else 24 - (t + 24 - p) % 24 := by
  split
  · rw [travel_forward ‹_›]
  · rw [travel_back (Nat.lt_of_not_le ‹_›)]

theorem travel_steps_le (p t : Nat) : (travel p t).1 ≤ 12 := by
  rw [travel_steps]; split <;> omega

/-- A travel FORWARD ends at its target. -/
theorem travel_forward_ends {p t : Nat} (hp : p < 24) (ht : t < 24) (h : (travel p t).2 = .forward) :
    (p + (travel p t).1) % 24 = t := by
  rcases Nat.lt_or_ge 12 ((t + 24 - p) % 24) with hd | hd
  · rw [travel_back hd] at h; cases h
  · rw [travel_forward hd]; omega

/-- A travel BACK, taken in reverse, leads from its target to its start. -/
theorem travel_back_ends {p t : Nat} (hp : p < 24) (h : (travel p t).2 = .back) :
    (t + (travel p t).1) % 24 = p := by
  rcases Nat.lt_or_ge 12 ((t + 24 - p) % 24) with hd | hd
  · rw [travel_back hd]; omega
  · rw [travel_forward hd] at h; cases h

/-- The targets of the two faces lie half a turn apart, so the travels to them add up to half a turn. -/
theorem travel_faces_add {p c : Nat} (hp : p < 24) (hc : c < 24) :
    (travel p (targetOf c 0)).1 + (travel p (targetOf c 1)).1 = 12 := by
  rw [travel_steps, travel_steps]
  unfold targetOf
  split <;> split <;> omega

theorem referencePosition_of_standing {c : Channel} {p : Nat} (h : c.state = .idle ∨ c.state = .held)
    (hp : c.position = some p) : referencePosition c = p := by
  rcases h with h | h <;> simp [referencePosition, h, hp]

theorem referencePosition_of_moving {c : Channel} {t : Nat} {d : Direction} (h : c.state = .moving)
    (ht : c.target = some (t, d)) : referencePosition c = t := by
  simp [referencePosition, h, ht]

/-! ## The face of a new entry (R32) -/

namespace Store

theorem faceHalted_iff (s : Store) (n f : Nat) : s.faceHalted n f = true ↔ (s.face (2 * n + f)).state = .halted := by
  rw [faceHalted, faceIndex, Nat.mul_comm n 2, beq_iff_eq]

variable {s : Store} {n : Nat}

theorem chooseFace_none (h0 : s.faceHalted n 0 = true) (h1 : s.faceHalted n 1 = true) (c : Nat) :
    s.chooseFace n c = none := by
  simp [chooseFace, h0, h1]

theorem chooseFace_only_one (h0 : s.faceHalted n 0 = true) (h1 : ¬ s.faceHalted n 1 = true) (c : Nat) :
    s.chooseFace n c = some 1 := by
  simp [chooseFace, h0, h1]

theorem chooseFace_only_zero (h0 : ¬ s.faceHalted n 0 = true) (h1 : s.faceHalted n 1 = true) (c : Nat) :
    s.chooseFace n c = some 0 := by
  simp [chooseFace, h0, h1]

/-- With both faces in use the shorter travel decides, and face 0 has the tie. -/
theorem chooseFace_by_travel (h0 : ¬ s.faceHalted n 0 = true) (h1 : ¬ s.faceHalted n 1 = true) (c : Nat) :
    s.chooseFace n c = if (travel (referencePosition (s.channel n)) (targetOf c 0)).1 ≤
      (travel (referencePosition (s.channel n)) (targetOf c 1)).1 then some 0 else some 1 := by
  simp [chooseFace, h0, h1]

end Store

end Sys2Proof.Machine

end

section

open Sys2Proof Sys2Proof.Machine

/-- Settles O43: the refusals in the order of the owner's checks, and the run that `Store.sendHome` starts; with no pass
due the end of the event leaves it as it is (R48, R197). -/
theorem homeStartsTheRun : Obligations.HomeStartsTheRun := by
  unfold Obligations.HomeStartsTheRun
  intro s e h n c fitted still
  have hrow := exec_home s
  have hkind : (Code.home == Code.home) = true := beq_self_eq_true _
  refine ⟨fun hf => ?_, fun hf hs => ?_, fun hf hs hg => ?_, fun hf hs hg hpass => ?_⟩
  · exact h.refuses hrow hkind (Owner.home_notFitted hf)
  · exact h.refuses hrow hkind (Owner.home_wrongState hf hs)
  · exact h.refuses hrow hkind (Owner.home_gateOpen hf hs hg)
  · have hn : n < 4 := Nat.lt_succ_of_le hf.1
    have hnot : c.state ≠ .homing := by rcases hs with hs | hs <;> rw [hs] <;> nofun
    obtain ⟨ps, hend⟩ := Store.eventEnd_panels_only ((s.store.sendHome_passDue n).trans hpass)
    refine h.accepts hrow hkind (Owner.home_starts hf hs hg) ?_
    rw [show Req.whole (s.entryWords e) 2 = n from rfl, hend]
    exact ⟨s.store.sendHome_channel_self hn, fun m hm => s.store.sendHome_channel_other hm,
      Store.sendHome_listed hnot, s.store.sendHome_reservations n, s.store.sendHome_notices n⟩

/-- Settles O47: the geometry of a turn of 24 positions, and the choice between two travels that add up to half a turn
(R28, R32). -/
theorem faceIsChosenByTravel : Obligations.FaceIsChosenByTravel := by
  unfold Obligations.FaceIsChosenByTravel
  refine ⟨fun c f t => eq_targetOf_iff_shownAt, fun p t hp ht => ?_, fun c p t d => ?_, fun s n c hc hp => ?_⟩
  · refine ⟨fun hd => ?_, fun _ hd => travel_forward hd, travel_back, travel_steps_le p t, travel_forward_ends hp ht,
      travel_back_ends hp⟩
    rw [travel_forward (by omega)]
    exact hd
  · exact ⟨referencePosition_of_standing, referencePosition_of_moving⟩
  · intro steps halted
    have hhalted (f : Nat) : halted f ↔ s.faceHalted n f = true := (s.faceHalted_iff n f).symm
    have hsum : steps 0 + steps 1 = 12 := travel_faces_add hp hc
    simp only [hhalted]
    refine ⟨fun h0 h1 => Store.chooseFace_none h0 h1 c, fun h0 h1 => Store.chooseFace_only_one h0 h1 c,
      fun h0 h1 => Store.chooseFace_only_zero h0 h1 c, fun h0 h1 => ?_, hsum⟩
    have hchoice : s.chooseFace n c = if steps 0 ≤ steps 1 then some 0 else some 1 :=
      Store.chooseFace_by_travel h0 h1 c
    have hzero (h : steps 0 ≤ steps 1) : s.chooseFace n c = some 0 := hchoice.trans (if_pos h)
    have hone (h : steps 1 < steps 0) : s.chooseFace n c = some 1 := hchoice.trans (if_neg (Nat.not_le.mpr h))
    exact ⟨fun h => hzero (by omega), hone, fun h => hzero (by omega), fun h => hone (by omega)⟩

end

/-! # The panel line: a byte with a parity or a framing failure (R85) -/

section

namespace Sys2Proof.Machine

open Sys2Proof

/-! ## A panel replaced (R89) -/

/-- The line state and the four error flags: what the face record carries of a panel (R89). -/
def Panel.SameStatus (x y : Panel) : Prop :=
  x.line = y.line ∧ x.overrun = y.overrun ∧ x.parity = y.parity ∧ x.framing = y.framing ∧ x.wrongType = y.wrongType

namespace Store

variable {s : Store} {p : Nat} {x : Panel}

theorem setPanel_of_same (h : (s.panel p).SameStatus x) : s.setPanel p x = s.putPanel p x := if_pos h

/-- A panel that shows another status lists the record of its face. -/
theorem setPanel_of_changed (h : ¬ (s.panel p).SameStatus x) :
    s.setPanel p x = (s.putPanel p x).list (.status (4 + p)) := if_neg h

theorem setPanel_listed (h : ¬ (s.panel p).SameStatus x) : .status (4 + p) ∈ (s.setPanel p x).writeBack := by
  rw [setPanel_of_changed h]
  exact mem_list_writeBack _ _

/-- To list a record changes the write-back list alone. -/
theorem list_writeBack_only (s : Store) (r : ImageRecord) : ∃ rs, s.list r = { s with writeBack := rs } := by
  unfold list
  split
  · exact ⟨s.writeBack, rfl⟩
  · exact ⟨_, rfl⟩

/-- A panel replaced with the listing of its face and one replaced without differ in the write-back list alone. -/
theorem setPanel_writeBack_only (s : Store) (p : Nat) (x : Panel) :
    ∃ rs, s.setPanel p x = { s.putPanel p x with writeBack := rs } := by
  by_cases h : (s.panel p).SameStatus x
  · exact ⟨s.writeBack, setPanel_of_same h⟩
  · obtain ⟨rs, hlist⟩ := (s.putPanel p x).list_writeBack_only (.status (4 + p))
    exact ⟨rs, (setPanel_of_changed h).trans hlist⟩

end Store

/-- The records of the job blocks are read without the write-back list. -/
theorem State.JobsAre.setPanel {t : State} {s : Store} {p : Nat} {x : Panel} (h : t.JobsAre (s.setPanel p x)) :
    t.JobsAre (s.putPanel p x) := by
  obtain ⟨rs, hset⟩ := s.setPanel_writeBack_only p x
  rw [State.JobsAre, hset] at h
  exact h

/-! ## The bad byte (R85) -/

/-- A panel's record after a byte with these failures: each failure sets its flag, and no flag is cleared. -/
def Panel.badByte (x : Panel) (parity framing : Bool) : Panel :=
  { x with parity := x.parity || parity, framing := x.framing || framing }

namespace Panel

variable {x : Panel} {parity framing : Bool}

/-- The status stays exactly where each failure finds its flag set. -/
theorem sameStatus_badByte_iff :
    x.SameStatus (x.badByte parity framing) ↔
      (parity = true → x.parity = true) ∧ (framing = true → x.framing = true) := by
  have hflag (old new : Bool) : old = (old || new) ↔ (new = true → old = true) := by
    cases old <;> cases new <;> decide
  simp only [SameStatus, badByte, hflag, true_and, and_true]

/-- A failure whose flag was clear changes the status. -/
theorem badByte_changes (h : (parity = true ∧ x.parity = false) ∨ (framing = true ∧ x.framing = false)) :
    ¬ x.SameStatus (x.badByte parity framing) := by
  rw [sameStatus_badByte_iff]
  rintro ⟨hp, hf⟩
  rcases h with ⟨hnew, hold⟩ | ⟨hnew, hold⟩
  · exact absurd (hp hnew) (by simp [hold])
  · exact absurd (hf hnew) (by simp [hold])

end Panel

theorem Store.badByte_online {s : Store} {p : Nat} (h : (s.panel p).line ≠ .offline) (parity framing : Bool) :
    s.badByte p parity framing = s.setPanel p ((s.panel p).badByte parity framing) := if_neg h

theorem exec_parityFramingFailure (p : Fin 8) (parity framing : Bool) (s : State) :
    exec (.parityFramingFailure p parity framing) s =
      .next (s.floorEvent fun st => st.badByte p.val parity framing) := rfl

end Sys2Proof.Machine

end

section

open Sys2Proof Sys2Proof.Machine

/-- Settles O56: the byte replaces the panel by `Panel.badByte`, which lists the face record exactly where a flag
changes, and what follows the event leaves the job blocks' records alone (R85, R89). -/
theorem badByteSetsItsFlags : Obligations.BadByteSetsItsFlags := by
  unfold Obligations.BadByteSetsItsFlags
  intro s p parity framing hworking honline x
  have hrow := exec_parityFramingFailure p parity framing s
  have hends := State.floorEvent_ends hrow hworking _ (Store.badByte_online honline parity framing)
  refine hends.imp fun t ⟨hjobs, hsettles⟩ => ⟨hjobs.setPanel, fun m hm => ?_, fun hclear => ?_, fun hp hf => ?_⟩
  · simpa using hsettles.notices m hm
  · exact hsettles.renewed _ (.inl (Store.setPanel_listed (Panel.badByte_changes hclear)))
  · have hsame : x.SameStatus (x.badByte parity framing) := Panel.sameStatus_badByte_iff.mpr ⟨hp, hf⟩
    rw [Store.setPanel_of_same hsame] at hsettles
    exact hsettles.addsNothing rfl rfl

end

/-! # AUDIT: a carrier's entry, its freeze and the counting check (R154, R155, R158) -/

section

namespace Sys2Proof.Machine

open Sys2Proof

/-! ## The least number with a property -/

theorem firstBelow_eq_some {n i : Nat} {p : Nat → Bool} (hi : i < n) (hp : p i = true)
    (hleast : ∀ j, j < i → ¬ p j = true) : firstBelow n p = some i := by
  rw [firstBelow, List.find?_range_eq_some]
  exact ⟨hp, List.mem_range.mpr hi, fun j hj => by simpa using hleast j hj⟩

theorem firstBelow_eq_none {n : Nat} {p : Nat → Bool} (h : ∀ i, i < n → ¬ p i = true) : firstBelow n p = none := by
  rw [firstBelow, List.find?_range_eq_none]
  exact fun i hi => by simpa using h i hi

/-! ## What two stores that stand alike have in common -/

theorem look_map {α β : Type} {n : Nat} (g : α → β) (t : Vector α n) (d : α) (i : Nat) :
    look (t.map g) (g d) i = g (look t d i) := by
  by_cases h : i < n <;> simp [look, h]

/-- An audit record that stands like an entry is an entry of the same carrier and of the same origin (R152). -/
theorem AuditRecord.listed_of_standing {x : AuditRecord} {e : AuditEntry} (h : x.standing = (listed e).standing) :
    ∃ e', x = .listed e' ∧ e'.carousel = e.carousel ∧ e'.carrier = e.carrier ∧ e'.origin = e.origin := by
  cases x with
  | free => nomatch h
  | committed y => nomatch h
  | listed y =>
    simp only [standing, listed.injEq, AuditEntry.mk.injEq] at h
    obtain ⟨hcarousel, hcarrier, horigin, _⟩ := h
    exact ⟨y, rfl, hcarousel, hcarrier, horigin⟩

theorem Carrier.standing_frozen (c : Carrier) : c.standing.frozen = c.frozen := rfl

theorem Carrier.standing_blank : Carrier.blank.standing = Carrier.blank := by
  simp [standing, blank, Slot.empty]

namespace Store

theorem standing_auditList (s : Store) : s.standing.auditList = s.auditList := rfl

theorem standing_audit (s : Store) (a : Nat) : s.standing.audit a = (s.audit a).standing :=
  look_map AuditRecord.standing s.audits .free a

theorem standing_carrier (s : Store) (r : Nat) : s.standing.carrier r = (s.carrier r).standing := by
  have hmap := look_map Carrier.standing s.carriers Carrier.blank r
  rwa [Carrier.standing_blank] at hmap

variable {s t : Store}

theorem audit_listed_of_standing (h : t.standing = s.standing) {a : Nat} {e : AuditEntry}
    (he : s.audit a = .listed e) :
    ∃ e', t.audit a = .listed e' ∧ e'.carousel = e.carousel ∧ e'.carrier = e.carrier ∧ e'.origin = e.origin :=
  AuditRecord.listed_of_standing (by rw [← he, ← standing_audit, ← standing_audit, h])

theorem auditList_of_standing (h : t.standing = s.standing) : t.auditList = s.auditList := by
  rw [← standing_auditList t, h, standing_auditList]

theorem carrier_frozen_of_standing (h : t.standing = s.standing) (r : Nat) :
    (t.carrier r).frozen = (s.carrier r).frozen := by
  rw [← Carrier.standing_frozen, ← standing_carrier, h, standing_carrier, Carrier.standing_frozen]

/-! ## The audit records under motion

Placement, displays and travel write no audit record; only the opening of a count does (R159). -/

section

variable (s : Store)

theorem foldl_audits {α : Type} (g : Store → α → Store) (h : ∀ s x, (g s x).audits = s.audits) (xs : List α) :
    (xs.foldl g s).audits = s.audits := by
  induction xs generalizing s with
  | nil => rfl
  | cons x xs ih => rw [List.foldl_cons, ih, h]

@[simp] theorem markFaceOpen_audits (r : Nat) (v : Bool) : (s.markFaceOpen r v).audits = s.audits :=
  updCarrier_audits _ _ _

@[simp] theorem setFrozen_audits (r : Nat) (v : Bool) : (s.setFrozen r v).audits = s.audits := updCarrier_audits _ _ _

@[simp] theorem derive_audits (i : Nat) : (s.derive i).audits = s.audits := setFace_audits _ _ _

@[simp] theorem deriveBoth_audits (n : Nat) : (s.deriveBoth n).audits = s.audits := by simp [deriveBoth]

@[simp] theorem changeChannel_audits (n : Nat) (c : Channel) : (s.changeChannel n c).audits = s.audits := by
  simp only [changeChannel]; split <;> simp

@[simp] theorem presentAll_audits (ns : List Nat) (f : Nat) : (s.presentAll ns f).audits = s.audits :=
  foldl_audits _ _ (fun s n => setReservationState_audits s n _) _

@[simp] theorem openWork_audits (n f c : Nat) (ns : List Nat) : (s.openWork n f c ns).audits = s.audits := by
  simp [openWork]

@[simp] theorem join_audits (n f : Nat) (r : Reservation) : (s.join n f r).audits = s.audits := by
  simp only [join, list_audits]; split <;> simp

@[simp] theorem enqueue_audits (n : Nat) (e : QueueEntry) : (s.enqueue n e).audits = s.audits :=
  setChannel_audits _ _ _

@[simp] theorem placeCore_audits (num : Nat) : (s.placeCore num).1.audits = s.audits := by
  unfold placeCore
  split
  · rfl
  · split
    · rfl
    · dsimp only
      split
      · simp
      · split
        · simp
        · split
          · split <;> simp
          · rfl

@[simp] theorem countCore_audits (n a c : Nat) : (s.countCore n a c).1.audits = s.audits := by
  simp only [countCore]
  split
  · split <;> simp
  · simp

@[simp] theorem retryCore_audits (n : Nat) : (s.retryCore n).audits = s.audits := by
  simp only [retryCore]
  rw [foldl_audits _ _ placeCore_audits]
  split <;> simp

@[simp] theorem sendMove_audits (n p t : Nat) : (s.sendMove n p t).audits = s.audits := changeChannel_audits _ _ _

end

/-! ## An entry past WAITING (R154, R157, R158) -/

/-- Audit record `a` is an entry that is READY or COUNTING. -/
def PastWaiting (a : Nat) (s : Store) : Prop := ∃ e, s.audit a = .listed e ∧ e.state ≠ .waiting

namespace PastWaiting

variable {a : Nat}

theorem of_audits (h : s.PastWaiting a) (haudits : t.audits = s.audits) : t.PastWaiting a := by
  rw [PastWaiting, audit, haudits]
  exact h

/-- An audit record written as an entry that is not WAITING. -/
theorem setAudit (h : s.PastWaiting a) (b : Nat) {x : AuditEntry} (hx : x.state ≠ .waiting) :
    (s.setAudit b (.listed x)).PastWaiting a := by
  obtain ⟨e, he, hstate⟩ := h
  by_cases hba : b = a ∧ b < 16
  · exact ⟨x, (look_put ..).trans (if_pos hba), hx⟩
  · exact ⟨e, ((look_put ..).trans (if_neg hba)).trans he, hstate⟩

theorem auditPresented (h : s.PastWaiting a) (b f : Nat) : (s.auditPresented b f).PastWaiting a := by
  unfold Store.auditPresented
  split
  · exact h.setAudit b nofun
  · exact h
  · exact h

theorem openCount (h : s.PastWaiting a) (n f c b : Nat) : (s.openCount n f c b).PastWaiting a := by
  unfold Store.openCount
  exact of_audits (auditPresented (h.of_audits ((markFaceOpen_audits ..).trans (putFace_audits ..))) b f)
    ((list_audits ..).trans (derive_audits ..))

theorem serveFace (h : s.PastWaiting a) (n p f : Nat) : (s.serveFace n p f).1.PastWaiting a := by
  simp only [Store.serveFace]
  split
  · exact h
  · split
    · exact h.of_audits ((openWork_audits ..).trans (setChannel_audits ..))
    · exact openCount (h.of_audits (setChannel_audits ..)) ..

theorem serveAt (h : s.PastWaiting a) (n p : Nat) : (s.serveAt n p).PastWaiting a := by
  have hserved := (h.serveFace n p 0).serveFace n p 1
  simp only [Store.serveAt]
  split
  · exact hserved.of_audits (retryCore_audits ..)
  · exact hserved

theorem serviceCheck (h : s.PastWaiting a) (n : Nat) : (s.serviceCheck n).PastWaiting a := by
  unfold Store.serviceCheck
  split
  · split
    · exact h
    · dsimp only
      split
      · exact h.serveAt ..
      · exact h.of_audits (sendMove_audits ..)
  · exact h

theorem countRequest (h : s.PastWaiting a) (n b c : Nat) : (s.countRequest n b c).PastWaiting a := by
  have hcore : (s.countCore n b c).1.PastWaiting a := h.of_audits (countCore_audits ..)
  unfold Store.countRequest serviceAfter
  split
  · exact hcore.serviceCheck n
  · exact hcore

theorem countingCheck (h : s.PastWaiting a) (n : Nat) : (s.countingCheck n).PastWaiting a := by
  unfold Store.countingCheck
  split
  · split
    · exact h
    · split
      · exact h
      · refine countRequest (h.setAudit _ ?_) ..
        nofun
  · exact h

end PastWaiting

/-! ## The counting check -/

@[simp] theorem countRequest_notices (s : Store) (n a c : Nat) : (s.countRequest n a c).notices = s.notices := by
  unfold countRequest serviceAfter; split <;> simp

@[simp] theorem countingCheck_notices (s : Store) (n : Nat) : (s.countingCheck n).notices = s.notices := by
  unfold countingCheck
  split
  · split
    · rfl
    · split <;> simp
  · rfl

/-- A carousel out of service counts nothing (R158). -/
theorem countingCheck_of_outOfService {n : Nat} (h : s.inService n = false) : s.countingCheck n = s :=
  if_neg (by simp [h])

theorem inService_eq_false {n : Nat} (h : (s.channel n).state = .unhomed ∨ (s.channel n).state = .homing ∨
    (s.channel n).state = .fenced) : s.inService n = false := by
  rcases h with h | h | h <;> simp only [inService, h]

/-! ## A new entry (R154) -/

/-- A carrier has drained when no reservation of the list is on one of its slots (R18). -/
theorem hasDrained_iff (s : Store) (r : Nat) :
    s.hasDrained r = true ↔ ∀ x ∈ s.reservations, x.slot / 3 ≠ r := by
  simp [hasDrained, onCarrier, slotRecord]

/-- The store with audit record `a` made the entry of carrier record `r` at the tail of the list, and the carrier
frozen, before the counting check (R154). -/
def withEntry (s : Store) (r a : Nat) (origin : AuditOrigin) : Store :=
  ({ s.setAudit a (.listed (s.newEntry r origin)) with auditList := s.auditList ++ [a] } : Store).setFrozen r true

/-- The store after the creation of an entry: the counting check is made where the carrier has drained (R154, R158). -/
def created (s : Store) (r a : Nat) (origin : AuditOrigin) : Store :=
  if s.hasDrained r = true then (s.withEntry r a origin).countingCheck (r / 24) else s.withEntry r a origin

section

variable {r a : Nat} {origin : AuditOrigin}

theorem newEntry_waiting (h : ¬ s.hasDrained r = true) : (s.newEntry r origin).state = .waiting := if_neg h

theorem newEntry_ready (h : s.hasDrained r = true) : (s.newEntry r origin).state = .ready := if_pos h

theorem newEntry_ready_iff : (s.newEntry r origin).state = .ready ↔ s.hasDrained r = true := by
  by_cases h : s.hasDrained r = true
  · exact iff_of_true (newEntry_ready h) h
  · exact iff_of_false (by rw [newEntry_waiting h]; nofun) h

theorem askAudit_merged (h : s.entryOf r = some a) (origin : AuditOrigin) (tell : Bool) :
    s.askAudit r origin tell = (.merged a, s) := by
  simp only [askAudit, h]

theorem askAudit_full (h : s.entryOf r = none) (hfull : s.freeAudit = none) (origin : AuditOrigin) (tell : Bool) :
    s.askAudit r origin tell = (.full, s) := by
  simp only [askAudit, h, hfull]

/-- An audit that is not to be told makes the entry and raises nothing (R155). -/
theorem askAudit_created (h : s.entryOf r = none) (hfree : s.freeAudit = some a) (origin : AuditOrigin) :
    s.askAudit r origin false = (.created a, s.created r a origin) := by
  simp only [askAudit, h, hfree, created, withEntry, newEntry_ready_iff, Bool.false_eq_true, if_false]

theorem withEntry_audit (ha : a < 16) : (s.withEntry r a origin).audit a = .listed (s.newEntry r origin) := by
  rw [audit, withEntry, setFrozen_audits]
  exact look_put_same _ _ _ _ ha

@[simp] theorem withEntry_auditList (s : Store) (r a : Nat) (origin : AuditOrigin) :
    (s.withEntry r a origin).auditList = s.auditList ++ [a] := updCarrier_auditList _ _ _

@[simp] theorem withEntry_notices (s : Store) (r a : Nat) (origin : AuditOrigin) :
    (s.withEntry r a origin).notices = s.notices := updCarrier_notices _ _ _

@[simp] theorem withEntry_channels (s : Store) (r a : Nat) (origin : AuditOrigin) :
    (s.withEntry r a origin).channels = s.channels := updCarrier_channels _ _ _

theorem withEntry_frozen (hr : r < 96) : ((s.withEntry r a origin).carrier r).frozen = true := by
  simp [carrier, withEntry, setFrozen, look_put, hr]

theorem withEntry_listed : .carrier r ∈ (s.withEntry r a origin).writeBack := mem_list_writeBack _ _

theorem created_drained (h : s.hasDrained r = true) :
    s.created r a origin = (s.withEntry r a origin).countingCheck (r / 24) := if_pos h

theorem created_undrained (h : ¬ s.hasDrained r = true) : s.created r a origin = s.withEntry r a origin := if_neg h

theorem standing_created : (s.created r a origin).standing = (s.withEntry r a origin).standing := by
  unfold created; split
  · exact standing_countingCheck _ _
  · rfl

theorem created_listed : .carrier r ∈ (s.created r a origin).writeBack := by
  unfold created; split
  · exact (countingCheck_evolves _ _).keeps_listed withEntry_listed
  · exact withEntry_listed

@[simp] theorem created_notices (s : Store) (r a : Nat) (origin : AuditOrigin) :
    (s.created r a origin).notices = s.notices := by
  unfold created; split <;> simp

/-- Neither the counting check nor the end of the event takes anything of what the creation has set. -/
theorem standing_created_eventEnd : (s.created r a origin).eventEnd.standing = (s.withEntry r a origin).standing := by
  rw [standing_eventEnd, standing_created]

/-! ## The entry state that the completion carries (R155) -/

/-- The code of the state of the entry in audit record `a`. -/
def stateCode (s : Store) (a : Nat) : Nat := ((s.entry a).map fun e => Code.entryState e.state).getD 0

theorem stateCode_of_listed {e : AuditEntry} (h : s.audit a = .listed e) : s.stateCode a = Code.entryState e.state := by
  simp only [stateCode, entry, h, Option.map_some, Option.getD_some]

theorem PastWaiting.stateCode (h : s.PastWaiting a) : s.stateCode a = 1 ∨ s.stateCode a = 2 := by
  obtain ⟨e, he, hstate⟩ := h
  rw [stateCode_of_listed he]
  cases hs : e.state with
  | waiting => exact absurd hs hstate
  | ready => exact .inl rfl
  | counting stage => exact .inr rfl

theorem created_stateCode_undrained (ha : a < 16) (h : ¬ s.hasDrained r = true) :
    (s.created r a origin).stateCode a = 0 := by
  rw [created_undrained h, stateCode_of_listed (withEntry_audit ha), newEntry_waiting h]
  rfl

theorem created_stateCode_drained (ha : a < 16) (h : s.hasDrained r = true) :
    (s.created r a origin).stateCode a = 1 ∨ (s.created r a origin).stateCode a = 2 := by
  rw [created_drained h]
  have hentry : (s.withEntry r a origin).PastWaiting a :=
    ⟨_, withEntry_audit ha, by rw [newEntry_ready h]; nofun⟩
  exact (hentry.countingCheck _).stateCode

/-- On a carousel out of service the counting check leaves the new entry READY (R155, R158). -/
theorem created_stateCode_outOfService (ha : a < 16) (h : s.hasDrained r = true)
    (hservice : s.inService (r / 24) = false) : (s.created r a origin).stateCode a = 1 := by
  have hsame : (s.withEntry r a origin).inService (r / 24) = s.inService (r / 24) := by
    simp only [inService, channel, withEntry_channels]
  rw [created_drained h, countingCheck_of_outOfService (hsame.trans hservice),
    stateCode_of_listed (withEntry_audit ha), newEntry_ready h]
  rfl

end

theorem freeAudit_eq_some {a : Nat} (ha : a < 16) (hfree : s.audit a = .free)
    (hleast : ∀ b, b < a → s.audit b ≠ .free) : s.freeAudit = some a :=
  firstBelow_eq_some ha (by simp [hfree]) fun b hb => by simpa using hleast b hb

theorem freeAudit_eq_none (h : ∀ a, a < 16 → s.audit a ≠ .free) : s.freeAudit = none :=
  firstBelow_eq_none fun a ha => by simpa using h a ha

end Store

/-! ## AUDIT (R155) -/

theorem exec_audit (s : State) : exec .audit s = .next (s.requestRow (· == Code.audit) Owner.audit) := rfl

namespace Owner

/-- AUDIT names a carrier of a fitted carousel. -/
def AuditFitted (ws : List Word) (s : Store) : Prop :=
  Req.byte ws 2 0 ≤ 3 ∧ Req.byte ws 2 1 ≤ 23 ∧ s.fitted (Req.byte ws 2 0) = true

/-- The carrier record that AUDIT names (R1). -/
def auditRecord (ws : List Word) : Nat := Store.recordOf (Req.byte ws 2 0) (Req.byte ws 2 1)

variable {ws : List Word} {s : Store} {a : Nat}

theorem auditFitted_iff :
    AuditFitted ws s ↔ ¬ (3 < Req.byte ws 2 0 ∨ 23 < Req.byte ws 2 1 ∨ s.fitted (Req.byte ws 2 0) = false) := by
  simp only [AuditFitted, not_or, Nat.not_lt, Bool.not_eq_false]

theorem audit_notFitted (h : ¬ AuditFitted ws s) : audit ws s = .refuse s .notFitted :=
  if_pos (Decidable.not_not.mp fun hn => h (auditFitted_iff.mpr hn))

theorem audit_merges (hf : AuditFitted ws s) (h : s.entryOf (auditRecord ws) = some a) :
    audit ws s = .accept s .merged [dataWord a] := by
  rw [auditRecord] at h
  simp only [audit, if_neg (auditFitted_iff.mp hf), Store.askAudit_merged h]

theorem audit_noRoom (hf : AuditFitted ws s) (h : s.entryOf (auditRecord ws) = none) (hfull : s.freeAudit = none) :
    audit ws s = .refuse s .noRoom := by
  rw [auditRecord] at h
  simp only [audit, if_neg (auditFitted_iff.mp hf), Store.askAudit_full h hfull]

theorem audit_creates (hf : AuditFitted ws s) (h : s.entryOf (auditRecord ws) = none)
    (hfree : s.freeAudit = some a) :
    audit ws s = .accept (s.created (auditRecord ws) a .request) .accepted
      [dataWord a, dataWord ((s.created (auditRecord ws) a .request).stateCode a)] := by
  rw [auditRecord] at h ⊢
  simp only [audit, if_neg (auditFitted_iff.mp hf), Store.askAudit_created h hfree, Store.stateCode]

end Owner

end Sys2Proof.Machine

end

section

open Sys2Proof Sys2Proof.Machine

/-- Settles O42: the refusals in the order of the owner's checks, the merge, and the entry that `Store.created` makes,
which the counting check and the end of the event leave standing (R154, R155). -/
theorem auditListsACarrier : Obligations.AuditListsACarrier := by
  unfold Obligations.AuditListsACarrier
  intro s e h n c r fitted drained
  have hrow := exec_audit s
  have hkind : (Code.audit == Code.audit) = true := beq_self_eq_true _
  refine ⟨fun hf => ?_, fun a hf hentry hattended => ?_, fun hf hentry hfull => ?_,
    fun a hf hentry ha hfree hleast => ?_⟩
  · exact h.refuses hrow hkind (Owner.audit_notFitted hf)
  · exact h.accepts hrow hkind (Owner.audit_merges hf hentry) (Store.eventEnd_still hattended)
  · exact h.refuses hrow hkind (Owner.audit_noRoom hf hentry (Store.freeAudit_eq_none hfull))
  · have ⟨(hn : n ≤ 3), (hc : c ≤ 23), _⟩ := hf
    have hcarousel : r / 24 = n := by omega
    have hcarrier : r % 24 = c := by omega
    have hdrained : s.store.hasDrained r = true ↔ drained := s.store.hasDrained_iff r
    have hstanding := Store.standing_created_eventEnd (s := s.store) (r := r) (a := a) (origin := .request)
    obtain ⟨x, hx, hxcarousel, hxcarrier, hxorigin⟩ :=
      Store.audit_listed_of_standing hstanding (Store.withEntry_audit ha)
    refine ⟨(s.store.created r a .request).stateCode a, fun hd => ?_, fun hd => ?_, fun hd hstate => ?_,
      h.accepts hrow hkind (Owner.audit_creates hf hentry (Store.freeAudit_eq_some ha hfree hleast)) ?_⟩
    · exact Store.created_stateCode_undrained ha (mt hdrained.mp hd)
    · exact Store.created_stateCode_drained ha (hdrained.mpr hd)
    · exact Store.created_stateCode_outOfService ha (hdrained.mpr hd)
        (by rw [hcarousel]; exact Store.inService_eq_false hstate)
    · refine ⟨⟨x, hx, hxcarousel.trans hcarousel, hxcarrier.trans hcarrier, hxorigin⟩, ?_, ?_, ?_, ?_⟩
      · exact (Store.auditList_of_standing hstanding).trans (Store.withEntry_auditList ..)
      · exact (Store.carrier_frozen_of_standing hstanding r).trans (Store.withEntry_frozen (by omega))
      · exact Store.eventEnd_keeps_listed _ Store.created_listed
      · rw [Store.eventEnd_notices, Store.created_notices]

end

/-! # What a command leads to -/

section

namespace Sys2Proof.Machine

open Sys2Proof

/-- The rows of the floor that change the store of a working part alone. -/
inductive FloorRow : (Store → Store) → Prop where
  | deadline (n : Nat) :
      FloorRow fun st => if (st.channel n).deadline.isSome then (st.expireDeadline n).eventEnd else st
  | message (p : Nat) (bs : List Byte) : FloorRow fun st => st.panelMessage p bs
  | badByte (p : Nat) (parity framing : Bool) : FloorRow fun st => st.badByte p parity framing
  | answer (p : Nat) :
      FloorRow fun st => if (st.panel p).timer.isSome then ((st.expireAnswer p).eventEnd).takeKey p else st
  | agreement (p : Nat) : FloorRow fun st => st.agreePanel p
  | key (p : Nat) (kind : KeyEvent → Bool) : FloorRow fun st => st.takeKeyIf p kind
  | sample (l : Nat) (raw : Int) (valid : Bool) : FloorRow fun st =>
      if (st.cfg.lane l).fitted && (st.lane l).scan.isSome then (st.scan l raw valid).eventEnd else st
  | arrival (l : Nat) : FloorRow fun st => st.expireArrival l

/-- The request rows: the kinds each answers, and its owner. -/
inductive RequestRow : (Nat → Bool) → (List Word → Store → Answer) → Prop where
  | articleDefine : RequestRow (· == Code.articleDefine) Owner.articleDefine
  | articleRemove : RequestRow (· == Code.articleRemove) Owner.articleRemove
  | receive : RequestRow (· == Code.receive) Owner.receive
  | orderOpen : RequestRow (· == Code.orderOpen) Owner.orderOpen
  | orderCancel : RequestRow (· == Code.orderCancel) Owner.orderCancel
  | audit : RequestRow (· == Code.audit) Owner.audit
  | slotBlock : RequestRow (· == Code.slotBlock) Owner.slotBlock
  | slotUnblock : RequestRow (· == Code.slotUnblock) Owner.slotUnblock
  | home : RequestRow (· == Code.home) Owner.home
  | laneAccept : RequestRow (· == Code.laneAccept) Owner.laneAccept
  | laneRelease : RequestRow (· == Code.laneRelease) Owner.laneRelease
  | panelRestart : RequestRow (· == Code.panelRestart) Owner.panelRestart
  | unknown : RequestRow (fun k => !inRange 1 12 k) Owner.unknown

/-- The gate rows: what the channel of a fitted carousel does. -/
inductive GateRow : (Store → Nat → Store) → Prop where
  | opens : GateRow Store.gateOpened
  | closes : GateRow Store.gateClosed

namespace State

/-- The start-up load has ended and the part begins its work (R194). -/
def begunWork (s : State) : State :=
  (s.setCondition .working).onStore fun st =>
    st.startWork (s.path.articlesDiscarded || s.path.carriersDiscarded) s.gateLines

/-- A link reset of a PASS-ONLY part has dropped a passed read (R193). -/
def dropRead (s : State) : State :=
  { s.dropTransfers State.isPassedRead with
    path := { (s.dropTransfers State.isPassedRead).path with inFlight := none, ending := none } }

/-- Memory has returned the word of the passed read (R187). -/
def readReturned (s : State) (a : Nat) : State :=
  { s.freePort with path := { s.freePort.path with
      inFlight := none, ending := some (.data (Memory.readWord s.mem a)) } }

/-- The oldest posted write is in memory and has left the buffer (R187). -/
def postedWritten (s : State) (w : PostedWrite) (ws : List PostedWrite) : State :=
  State.claimRead { s with
    mem := Memory.writeMasked s.mem w.address w.enables w.data
    path := { s.path with port := none, posted := ws } }

/-- The intake index has risen, and its write is claimed (R175). -/
def indexRaised (s : State) : State :=
  { s with intake := { s.intake with index := s.intake.index + 1 } }.claim (.intakeIndex (s.intake.index + 1) true)

/-- The Intake waits again, and its completion is pending (R175). -/
def handedOver (s : State) (ws : List Word) : State :=
  { s with intake := { s.intake with state := .waiting }, report := { s.report with completion := some ws } }

/-- The words of a transfer that has completed are in memory, and the port is free. -/
def carried (s : State) (a : Nat) (ws : List Word) : State := s.freePort.writeMem a ws

/-- What an upstream access leads to. -/
inductive Accesses (s : State) : State → Prop where
  | untaken : Accesses s s
  | retry : Accesses s (s.endAccess .retry)
  | passed (a : Nat) : Accesses s (s.passRead a).finish
  | answered (x : Option (Vector Word 8)) (e : Ending) :
      Accesses s (State.finish { s with path := { s.path with snapshot := x, ending := some e } })
  | written (h : s.path.posted.length < Config.postedCapacity) (w : PostedWrite) (m : Vector Bool 32)
      (attention : Bool) (select : Word) (x : Option (Vector Word 8)) :
      Accesses s (State.finish { s with path := { s.path with
        posted := s.path.posted ++ [w], ending := some .done, marks := m, attention := attention
        probeSelect := select, snapshot := x } })
  | consumed (a : Nat) (en : Enables) (d : Word) (v : Half) (h : s.path.posted.length < Config.postedCapacity)
      (hv : (v - s.report.consume).toNat ≤ s.unread) :
      Accesses s (State.finish { s.post a en d with report := { s.report with consume := v } })
  | refused (a : Nat) (h : s.path.condition = .working) : Accesses s (s.refuseWrite a).finish

/-- What a command leads to, with what its row has checked. -/
inductive Leads (s : State) : State → Prop where
  | still : Leads s s
  | powerUp (k : Nat) :
      Leads s { State.reset with pending := s.pending, mem := s.tornMemory k, gateLines := s.gateLines }
  | configuration (h : s.loadingStage .configuration = true) : Leads s s.checkConfiguration
  | articles (h : s.loadingStage .articles = true) : Leads s s.loadArticles
  | carriers (h : s.loadingStage .carriers = true) : Leads s s.loadCarriers
  | work (h : s.loadDone = true) : Leads s s.begunWork.finish
  | linkReset (h : s.path.condition ≠ .passOnly) : Leads s s.resetLink.finish
  | passOnlyReset (h : s.path.condition = .passOnly) : Leads s s.dropRead.finish
  | access {t : State} (h : s.Accesses t) : Leads s t
  | readReturned (a : Nat) (h : s.path.port = some ⟨.passedRead a, false⟩) : Leads s (s.readReturned a).finish
  | freed (g : Grant) (h : s.path.port = some g) (hg : g.dropped = true ∨ g.transfer = .postedWrite) :
      Leads s s.freePort.finish
  | grant : Leads s s.arbitrate
  | postedWritten (w : PostedWrite) (ws : List PostedWrite) (b : Bool) (h : s.path.port = some ⟨.postedWrite, b⟩)
      (hw : s.path.posted = w :: ws) : Leads s (s.postedWritten w ws).finish
  | carried (g : Grant) (a : Nat) (ws : List Word) (h : s.path.port = some g)
      (hg : g.dropped = true ∨ isReportTransfer g.transfer = false) : Leads s (s.carried a ws).finish
  | entryTaken (h : s.path.condition = .working) : Leads s s.intakeTake.arbitrate
  | begun (h : s.path.condition = .working) : Leads s s.reportBegin.arbitrate
  | givenBack (e : Nat) (w : Word) (h : s.path.port = some ⟨.giveBack e w, false⟩) :
      Leads s (s.carried (s.entryAddress e) [w]).indexRaised.finish
  | handedOver (v : Half) (e : Nat) (ws : List Word) (h : s.path.port = some ⟨.intakeIndex v true, false⟩)
      (hi : s.intake.state = .returning e ws) :
      Leads s ((s.carried (s.controlAddress Config.offIntake) [wordOfHalves v.toNat 0]).handedOver ws).finish
  | entryWritten (e : Nat) (ws : List Word) (h : s.path.port = some ⟨.reportEntry e ws, false⟩) :
      Leads s ((s.carried (s.reportAddress e) ws).claim (.produceIndex (s.report.produce + 1) true)).finish
  | reportWritten (v : Half) (h : s.path.port = some ⟨.produceIndex v true, false⟩) :
      Leads s ((s.carried (s.controlAddress Config.offProduce) [wordOfHalves v.toNat 0]).reportWritten v).finish
  | request (isKind : Nat → Bool) (f : List Word → Store → Answer) (hf : RequestRow isKind f) (e : Nat)
      (h : s.path.port = some ⟨.entryRead e, false⟩) :
      Leads s (s.takeEntry e (answerOf f (s.entryWords e) s.store)).finish
  | floor (f : Store → Store) (hf : FloorRow f) (h : s.path.condition = .working) : Leads s (s.jobEvent f)
  | drive (n : Nat) (bs : List Byte) (h : s.path.condition = .working) : Leads s (bs.foldl (driveByte n) s)
  | gateLine (n : Nat) (high : Bool) (h : s.path.condition ≠ .working) :
      Leads s { s with gateLines := put s.gateLines n high }
  | gate (n : Nat) (high : Bool) (f : Store → Nat → Store) (hf : GateRow f) (h : s.path.condition = .working) :
      Leads s (jobEvent { s with gateLines := put s.gateLines n high } fun st =>
        if st.fitted n then (f st n).eventEnd else st)

variable {s : State}

/-! ## Upstream accesses -/

theorem passRead_ending (s : State) (a : Nat) : (s.passRead a).path.ending = none := by
  unfold passRead
  dsimp only
  split <;> rfl

theorem passRead_accesses (a : Nat) : s.Accesses (s.passRead a).treated := by
  rw [treated_done (by simp [passRead_ending])]
  exact .passed a

theorem decodeRead_accesses (a : Nat) : s.Accesses (s.decodeRead a).treated := by
  unfold decodeRead
  split
  · exact .answered (some (probeSnapshotOf s.store s.path.probeSelect)) _
  · exact .answered s.path.snapshot _
  · split
    · exact .retry
    · exact passRead_accesses a

theorem readAt_accesses (a : Nat) : s.Accesses (s.upstreamReadAt a) := by
  unfold upstreamReadAt
  split
  · split
    · exact .retry
    · exact passRead_accesses a
    · exact decodeRead_accesses a
  · exact .untaken

theorem empty_accesses : s.Accesses (s.endAccess .done).treated := .answered s.path.snapshot .done

theorem refuseWrite_accesses (h : s.path.condition = .working) (a : Nat) : s.Accesses (s.refuseWrite a).treated :=
  .refused a h

/-- A write to be passed ends RETRY with a full buffer; with room it leads to what its acceptance does. -/
theorem postWith_accesses {a : Nat} {en : Enables} {d : Word} {watch : State → State}
    (h : s.path.posted.length < Config.postedCapacity → s.Accesses (watch (s.post a en d)).treated) :
    s.Accesses (s.postWith a en d watch).treated := by
  rcases Nat.lt_or_ge s.path.posted.length Config.postedCapacity with hroom | hfull
  · exact postWith_room a en d watch hroom ▸ h hroom
  · exact postWith_full a en d watch hfull ▸ .retry

theorem post_accesses (a : Nat) (en : Enables) (d : Word) : s.Accesses (s.postWith a en d id).treated :=
  postWith_accesses fun h => .written h ⟨a, en, d⟩ s.path.marks s.path.attention s.path.probeSelect s.path.snapshot

theorem writeRequest_accesses (a : Nat) (en : Enables) (d : Word) : s.Accesses (s.writeRequest a en d).treated := by
  unfold writeRequest
  dsimp only
  split
  · exact .retry
  · refine postWith_accesses fun h => ?_
    split
    · exact .written h ⟨a, en, d⟩ _ s.path.attention s.path.probeSelect s.path.snapshot
    · exact .written h ⟨a, en, d⟩ s.path.marks s.path.attention s.path.probeSelect s.path.snapshot

theorem writeControl_accesses (h : s.path.condition = .working) (a : Nat) (en : Enables) (d : Word) :
    s.Accesses (s.writeControl a en d).treated := by
  unfold writeControl
  dsimp only
  split
  · unfold writeConsume
    dsimp only
    split
    · next hv => exact postWith_accesses fun hroom => .consumed a en d _ hroom hv
    · exact refuseWrite_accesses h a
  · split
    · exact postWith_accesses fun hroom =>
        .written hroom ⟨a, en, d⟩ s.path.marks _ s.path.probeSelect s.path.snapshot
    · split
      · exact postWith_accesses fun hroom => .written hroom ⟨a, en, d⟩ s.path.marks s.path.attention _ none
      · exact refuseWrite_accesses h a

theorem decodeWrite_accesses (h : s.path.condition = .working) (a : Nat) (en : Enables) (d : Word) :
    s.Accesses (s.decodeWrite a en d).treated := by
  unfold decodeWrite
  dsimp only
  split
  · exact writeRequest_accesses a en d
  · split
    · exact refuseWrite_accesses h a
    · split
      · exact writeControl_accesses h a en d
      · split
        · exact refuseWrite_accesses h a
        · exact post_accesses a en d

theorem writeAt_accesses (a : Nat) (en : Enables) (d : Word) : s.Accesses (s.upstreamWriteAt a en d) := by
  unfold upstreamWriteAt
  split
  · split
    · exact .retry
    · split
      · exact empty_accesses
      · exact post_accesses a en d
    · next hw =>
      split
      · exact empty_accesses
      · exact decodeWrite_accesses hw a en d
  · exact .untaken

/-! ## Rows -/

theorem working_iff : s.working = true ↔ s.path.condition = .working := beq_iff_eq

/-- A row that acts under a condition and is still otherwise. -/
theorem leads_ite {c : Prop} [Decidable c] {t : State} (h : c → s.Leads t) : s.Leads (if c then t else s) := by
  split
  · next hc => exact h hc
  · exact .still

theorem floorEvent_leads {f : Store → Store} (hf : FloorRow f) : s.Leads (s.floorEvent f) := by
  unfold floorEvent
  split
  · next h => exact .floor f hf (working_iff.1 h)
  · exact .still

theorem driveEvent_leads (n : Fin 4) (bs : List Byte) : s.Leads (s.driveEvent n bs) := by
  unfold driveEvent
  split
  · next h => exact .drive _ _ (working_iff.1 (Bool.and_eq_true _ _ ▸ h).1)
  · exact .still

theorem gateEvent_leads (n : Fin 4) (high : Bool) {f : Store → Nat → Store} (hf : GateRow f) :
    s.Leads (s.gateEvent n high f) := by
  unfold gateEvent floorEvent
  split
  · exact .still
  · split
    · next h => exact .gate n.val high f hf (working_iff.1 h)
    · next h => exact .gateLine n.val high fun hw => h (working_iff.2 hw)

theorem requestRow_leads {isKind : Nat → Bool} {f : List Word → Store → Answer} (hf : RequestRow isKind f) :
    s.Leads (s.requestRow isKind f) := by
  unfold requestRow
  split
  · next e dropped hp =>
    split
    · next hd => exact .freed _ hp (.inl hd)
    · next hd =>
      rw [Bool.not_eq_true] at hd
      subst hd
      split
      · exact leads_ite fun _ => .request _ f hf _ hp
      · exact .still
      · exact .still
  · exact .still

theorem passedReadEnd_leads : ∃ t, execPassedReadEnd s = .next t ∧ s.Leads t := by
  unfold execPassedReadEnd
  split
  · next a dropped hp =>
    refine ⟨_, rfl, ?_⟩
    cases dropped
    case true => exact .freed _ hp (.inl rfl)
    case false => exact .readReturned a hp
  · exact ⟨_, rfl, .still⟩

theorem postedWriteEnd_leads : ∃ t, execPostedWriteEnd s = .next t ∧ s.Leads t := by
  unfold execPostedWriteEnd
  split
  · next b hp =>
    split
    · next w ws hw => exact ⟨_, rfl, .postedWritten w ws b hp hw⟩
    · exact ⟨_, rfl, .freed _ hp (.inr rfl)⟩
  · exact ⟨_, rfl, .still⟩

theorem writeBackBurstEnd_leads : ∃ t, execWriteBackBurstEnd s = .next t ∧ s.Leads t := by
  unfold execWriteBackBurstEnd
  split
  · next hp => exact ⟨_, rfl, .carried _ _ _ hp (.inr rfl)⟩
  · exact ⟨_, rfl, .still⟩

theorem controlWordWriteEnd_leads : ∃ t, execControlWordWriteEnd s = .next t ∧ s.Leads t := by
  unfold execControlWordWriteEnd
  split
  · next hp => exact ⟨_, rfl, .carried _ _ _ hp (.inr rfl)⟩
  · next hp => exact ⟨_, rfl, .carried _ _ _ hp (.inr rfl)⟩
  · next hp => exact ⟨_, rfl, .carried _ _ _ hp (.inr rfl)⟩
  · exact ⟨_, rfl, .still⟩

theorem giveBackEnd_leads : ∃ t, execGiveBackEnd s = .next t ∧ s.Leads t := by
  unfold execGiveBackEnd
  split
  · next e w dropped hp =>
    refine ⟨_, rfl, ?_⟩
    cases dropped
    case true => exact .carried _ _ _ hp (.inl rfl)
    case false => exact .givenBack e w hp
  · exact ⟨_, rfl, .still⟩

theorem intakeIndexWriteEnd_leads : ∃ t, execIntakeIndexWriteEnd s = .next t ∧ s.Leads t := by
  unfold execIntakeIndexWriteEnd
  split
  · next v closing dropped hp =>
    refine ⟨_, rfl, ?_⟩
    have hstay : s.Leads (s.writeIndex Config.offIntake v).finish := .carried _ _ _ hp (.inr rfl)
    dsimp only
    split
    · next e ws hi =>
      cases closing
      case false => exact hstay
      case true =>
        cases dropped
        case true => exact hstay
        case false => exact .handedOver v e ws hp hi
    · exact hstay
    · exact hstay
  · exact ⟨_, rfl, .still⟩

theorem reportEntryWriteEnd_leads : ∃ t, execReportEntryWriteEnd s = .next t ∧ s.Leads t := by
  unfold execReportEntryWriteEnd
  split
  · next e ws dropped hp =>
    refine ⟨_, rfl, ?_⟩
    cases dropped
    case true => exact .carried _ _ _ hp (.inl rfl)
    case false => exact .entryWritten e ws hp
  · exact ⟨_, rfl, .still⟩

theorem produceIndexWriteEnd_leads : ∃ t, execProduceIndexWriteEnd s = .next t ∧ s.Leads t := by
  unfold execProduceIndexWriteEnd
  split
  · next v closing dropped hp =>
    refine ⟨_, rfl, ?_⟩
    cases closing
    case false => exact .carried _ _ _ hp (.inr rfl)
    case true =>
      cases dropped
      case true => exact .carried _ _ _ hp (.inl rfl)
      case false => exact .reportWritten v hp
  · exact ⟨_, rfl, .still⟩

theorem linkReset_leads : ∃ t, execLinkReset s = .next t ∧ s.Leads t := by
  unfold execLinkReset
  split
  · next h => exact ⟨_, rfl, .passOnlyReset h⟩
  · next h => exact ⟨_, rfl, .linkReset (by simp [h])⟩
  · next h => exact ⟨_, rfl, .linkReset (by simp [h])⟩

end State

open State in
/-- Every command completes, and leads to what its row allows. -/
theorem exec_leads (c : Instr) (s : State) : ∃ t, exec c s = .next t ∧ s.Leads t := by
  cases c with
  | powerUp k => exact ⟨_, rfl, .powerUp k⟩
  | configurationCheck => exact ⟨_, rfl, leads_ite .configuration⟩
  | articleImageLoad => exact ⟨_, rfl, leads_ite .articles⟩
  | carrierImageLoad => exact ⟨_, rfl, leads_ite .carriers⟩
  | startUpLoadEnd => exact ⟨_, rfl, leads_ite .work⟩
  | linkReset => exact linkReset_leads
  | upstreamRead a => exact ⟨_, rfl, .access (readAt_accesses _)⟩
  | passedReadEnd => exact passedReadEnd_leads
  | upstreamWrite a en d => exact ⟨_, rfl, .access (writeAt_accesses _ _ _)⟩
  | ownerWrite e en d => exact ⟨_, rfl, .access (writeAt_accesses _ _ _)⟩
  | consumeIndexWrite en d => exact ⟨_, rfl, .access (writeAt_accesses _ _ _)⟩
  | attentionEnableWrite en d => exact ⟨_, rfl, .access (writeAt_accesses _ _ _)⟩
  | probeSelectWrite en d => exact ⟨_, rfl, .access (writeAt_accesses _ _ _)⟩
  | probeSnapshot => exact ⟨_, rfl, .access (readAt_accesses _)⟩
  | probeDataRead w => exact ⟨_, rfl, .access (readAt_accesses _)⟩
  | downstreamGrant => exact ⟨_, rfl, .grant⟩
  | postedWriteEnd => exact postedWriteEnd_leads
  | writeBackBurstEnd => exact writeBackBurstEnd_leads
  | intakeTake => exact ⟨_, rfl, leads_ite fun h => .entryTaken (working_iff.1 h)⟩
  | articleDefine => exact ⟨_, rfl, requestRow_leads .articleDefine⟩
  | articleRemove => exact ⟨_, rfl, requestRow_leads .articleRemove⟩
  | receive => exact ⟨_, rfl, requestRow_leads .receive⟩
  | orderOpen => exact ⟨_, rfl, requestRow_leads .orderOpen⟩
  | orderCancel => exact ⟨_, rfl, requestRow_leads .orderCancel⟩
  | audit => exact ⟨_, rfl, requestRow_leads .audit⟩
  | slotBlock => exact ⟨_, rfl, requestRow_leads .slotBlock⟩
  | slotUnblock => exact ⟨_, rfl, requestRow_leads .slotUnblock⟩
  | home => exact ⟨_, rfl, requestRow_leads .home⟩
  | laneAccept => exact ⟨_, rfl, requestRow_leads .laneAccept⟩
  | laneRelease => exact ⟨_, rfl, requestRow_leads .laneRelease⟩
  | panelRestart => exact ⟨_, rfl, requestRow_leads .panelRestart⟩
  | unknownKind => exact ⟨_, rfl, requestRow_leads .unknown⟩
  | giveBackEnd => exact giveBackEnd_leads
  | intakeIndexWriteEnd => exact intakeIndexWriteEnd_leads
  | reportWriteBegin => exact ⟨_, rfl, leads_ite fun h => .begun (working_iff.1 h)⟩
  | reportEntryWriteEnd => exact reportEntryWriteEnd_leads
  | produceIndexWriteEnd => exact produceIndexWriteEnd_leads
  | arrived n x => exact ⟨_, rfl, driveEvent_leads n _⟩
  | stopped n x => exact ⟨_, rfl, driveEvent_leads n _⟩
  | homed n x => exact ⟨_, rfl, driveEvent_leads n _⟩
  | fault n x => exact ⟨_, rfl, driveEvent_leads n _⟩
  | driveMessageDiscarded n bs => exact ⟨_, rfl, driveEvent_leads n bs⟩
  | gateOpens n => exact ⟨_, rfl, gateEvent_leads n false .opens⟩
  | gateCloses n => exact ⟨_, rfl, gateEvent_leads n true .closes⟩
  | deadline n => exact ⟨_, rfl, floorEvent_leads (.deadline n.val)⟩
  | ack p => exact ⟨_, rfl, floorEvent_leads (.message p.val _)⟩
  | nak p => exact ⟨_, rfl, floorEvent_leads (.message p.val _)⟩
  | ident p part type => exact ⟨_, rfl, floorEvent_leads (.message p.val _)⟩
  | keyMake p k => exact ⟨_, rfl, floorEvent_leads (.message p.val _)⟩
  | keyBreak p part k => exact ⟨_, rfl, floorEvent_leads (.message p.val _)⟩
  | parityFramingFailure p a b => exact ⟨_, rfl, floorEvent_leads (.badByte p.val a b)⟩
  | answerTimer p => exact ⟨_, rfl, floorEvent_leads (.answer p.val)⟩
  | displayAgreement p => exact ⟨_, rfl, floorEvent_leads (.agreement p.val)⟩
  | bayKeyMake p => exact ⟨_, rfl, floorEvent_leads (.key p.val _)⟩
  | plus p => exact ⟨_, rfl, floorEvent_leads (.key p.val _)⟩
  | minus p => exact ⟨_, rfl, floorEvent_leads (.key p.val _)⟩
  | plusMinusBreak p => exact ⟨_, rfl, floorEvent_leads (.key p.val _)⟩
  | bayKeyBreak p => exact ⟨_, rfl, floorEvent_leads (.key p.val _)⟩
  | scanTimer l raw valid => exact ⟨_, rfl, floorEvent_leads (.sample l.val _ valid)⟩
  | arrivalTimer l => exact ⟨_, rfl, floorEvent_leads (.arrival l.val)⟩
  | messageAbandoned p b => exact ⟨_, rfl, floorEvent_leads (.message p.val _)⟩
  | controlWordWriteEnd => exact controlWordWriteEnd_leads

/-- A step leads from the state with the queue's rest to what its command allows; an empty queue leaves the state. -/
theorem step_leads {s t : State} (h : step s = .next t) :
    t = s ∨ ∃ cs, State.Leads { s with pending := cs } t := by
  unfold step at h
  split at h
  · exact .inl (Host.Outcome.next.inj h).symm
  · next c cs hq =>
    obtain ⟨u, hu, hleads⟩ := exec_leads c { s with pending := cs }
    obtain rfl : u = t := Host.Outcome.next.inj (hu.symm.trans h)
    exact .inr ⟨cs, hleads⟩

end Sys2Proof.Machine

end

/-! # What every step keeps of the queue, the memory and the windows -/

section

namespace Sys2Proof.Machine

open Sys2Proof

namespace State

variable {s t : State}

/-- What a claim of the passed read changes: the claims alone. -/
theorem claimRead_only (s : State) : ∃ c, s.claimRead = { s with path := { s.path with claims := c } } := by
  unfold claimRead
  split
  · split
    · exact ⟨_, rfl⟩
    · exact ⟨_, rfl⟩
  · exact ⟨_, rfl⟩

theorem passRead_only (s : State) (a : Nat) : ∃ c, s.passRead a =
    { s with path := { s.path with inFlight := some a, ending := none, claims := c } } := by
  unfold passRead
  dsimp only
  split
  · exact ⟨_, rfl⟩
  · exact ⟨_, rfl⟩

/-- Claims have joined those that wait, and nothing else has changed. -/
def ClaimsMore (s t : State) (xs : List Transfer) : Prop :=
  t = { s with path := { s.path with claims := s.path.claims ++ xs } }

theorem ClaimsMore.refl (s : State) : s.ClaimsMore s [] := by
  unfold ClaimsMore
  rw [List.append_nil]

theorem ClaimsMore.claim {xs : List Transfer} (h : s.ClaimsMore t xs) (x : Transfer) :
    s.ClaimsMore (t.claim x) (xs ++ [x]) := by
  subst h
  unfold ClaimsMore State.claim
  rw [List.append_assoc]

theorem ClaimsMore.claim_if {xs : List Transfer} (h : s.ClaimsMore t xs) (c : Bool) (x : Transfer) :
    s.ClaimsMore (if c then t.claim x else t) (xs ++ if c then [x] else []) := by
  cases c
  case true => exact h.claim x
  case false => exact (List.append_nil xs).symm ▸ h

/-- The transfers that a link reset claims (R183). -/
def resetWords (c : Configuration) : List Transfer :=
  [.intakeIndex 0 false, .produceIndex 0 false, .controlWord Config.offConsume 0,
    .controlWord Config.offAttention (attentionWord c)]

/-- The transfers that the start-up load claims at its end (R194, step 4). -/
def startWords (s : State) : List Transfer :=
  resetWords s.store.cfg ++ [.controlWord Config.offProbeSelect 0] ++
    (if s.path.articlesDiscarded then [.controlWord Config.offArticleHeader (dataWord Config.articleFormat)] else []) ++
    if s.path.carriersDiscarded then [.controlWord Config.offCarrierHeader (dataWord Config.carrierFormat)] else []

theorem claimResetWords_claims (s : State) : s.ClaimsMore s.claimResetWords (resetWords s.store.cfg) :=
  ((((ClaimsMore.refl s).claim _).claim _).claim _).claim _

theorem claimStartWords_claims (s : State) : s.ClaimsMore s.claimStartWords s.startWords :=
  (((claimResetWords_claims s).claim _).claim_if _ _).claim_if _ _

/-- The articles are loaded: the table, the discard mark, the next stage and its claim, and what follows. -/
theorem loadArticles_eq (s : State) : s.loadArticles = State.finish { s with
    path := { s.path with
      port := none, condition := .loading .carriers, claims := s.path.claims ++ [.load .carriers]
      articlesDiscarded := !s.headerMatches Config.offArticleHeader Config.articleFormat }
    store := Store.listAll
      { s.store with articles := s.loadedArticles (s.headerMatches Config.offArticleHeader Config.articleFormat) }
      ((List.range 512).map ImageRecord.article) } := by
  simp only [loadArticles, setCondition, claim, onStore, freePort]

/-- The store once the carrier image has been loaded, its blocks at their power-up values and every record listed. -/
def carriersStore (s : State) : Store :=
  ((s.loadedStore (s.headerMatches Config.offCarrierHeader Config.carrierFormat)).powerUpValues s.gateLines).listAll
    Store.everyRecord

/-- The part once the carrier image has been loaded, before the control words are claimed. -/
def carriersLoaded (s : State) : State :=
  { s with
    path := { s.path with
      port := none, condition := .loading .writeBack
      carriersDiscarded := !s.headerMatches Config.offCarrierHeader Config.carrierFormat
      faultedRecords := ((List.range 96).map
        (s.faultyIn (s.headerMatches Config.offCarrierHeader Config.carrierFormat))).sum }
    store := s.carriersStore }

theorem loadCarriers_eq (s : State) : s.loadCarriers = s.carriersLoaded.claimStartWords.finish := by
  simp only [loadCarriers, carriersLoaded, carriersStore, setCondition, freePort]

/-- The link after a reset, before its control words are claimed. -/
def linkCleared (s : State) : State :=
  { s.returnNotice.dropTransfers resetDrops with
    intake := ⟨0, .waiting⟩
    report := ⟨0, 0, none, none⟩
    path := { (s.returnNotice.dropTransfers resetDrops).path with
      inFlight := none, ending := none, marks := Vector.replicate 32 false
      probeSelect := 0, snapshot := none, attention := s.store.cfg.allowsAttention } }

theorem resetLink_eq (s : State) :
    s.resetLink = s.linkCleared.claimResetWords.onStore fun st => st.raise .device Flag.deviceLinkReset := rfl

theorem returnNotice_only (s : State) : ∃ ns r, s.returnNotice =
    { s with store := { s.store with notices := ns }, path := { s.path with refusals := r } } := by
  unfold returnNotice
  split <;> exact ⟨_, _, rfl⟩

theorem reportWritten_only (s : State) (v : Half) : ∃ st, s.reportWritten v =
    { s with report := { s.report with produce := v, writing := none }, store := st } := by
  unfold reportWritten
  dsimp only
  split <;> exact ⟨_, rfl⟩

/-- The configuration check: the block's values, the condition, and what follows. -/
theorem checkConfiguration_only (s : State) : ∃ u : State, s.checkConfiguration = u.finish ∧ ∃ c att cond,
    u = { s with
      path := { s.path with port := none, condition := cond, claims := c, attention := att }
      store := { s.store with cfg := configurationOf s.configurationWords } } ∧
    ((cond = .loading .articles ∧ c = s.path.claims ++ [.load .articles] ∧
        configurationSound s.configurationWords = true ∧
        att = (configurationOf s.configurationWords).allowsAttention) ∨
      (cond = .passOnly ∧ c = [] ∧ configurationSound s.configurationWords = false ∧ att = false)) := by
  unfold checkConfiguration
  dsimp only
  split
  · next h => exact ⟨_, rfl, _, _, _, rfl, .inl ⟨rfl, rfl, h, rfl⟩⟩
  · next h => exact ⟨_, rfl, _, _, _, rfl, .inr ⟨rfl, rfl, by simpa using h, rfl⟩⟩

/-- One byte from a drive is an event of its own, or changes the window of its channel alone. -/
theorem driveByte_cases (n : Nat) (s : State) (b : Byte) :
    driveByte n s b = s.jobEvent (fun st => (st.driveByte n b).eventEnd) ∨
      driveByte n s b = { s with store := s.store.putChannel n { s.store.channel n with
        window := (driveGather (s.store.channel n).window b).1 } } := by
  unfold driveByte
  split
  · exact .inl rfl
  · next h =>
    right
    have hnone : (driveGather (s.store.channel n).window b).2 = none := by simpa using h
    simp only [onStore, Store.driveByte, hnone]

/-- What holds of a state after each byte of a drive holds after a run of them. -/
theorem driveBytes_induction {P : State → Prop} {n : Nat} (hb : ∀ u b, P u → P (driveByte n u b)) (bs : List Byte)
    (h : P s) : P (bs.foldl (driveByte n) s) := by
  induction bs generalizing s with
  | nil => exact h
  | cons b bs ih => exact ih (hb s b h)

/-! ## The queue (log 30) -/

theorem finish_pending (s : State) : s.finish.pending = s.pending := (finish_settles s).pending

theorem jobEvent_pending (s : State) (f : Store → Store) : (s.jobEvent f).pending = s.pending :=
  finish_pending (s.onStore f)

theorem driveByte_pending (n : Nat) (s : State) (b : Byte) : (driveByte n s b).pending = s.pending := by
  rcases driveByte_cases n s b with h | h
  · exact (congrArg State.pending h).trans (jobEvent_pending _ _)
  · exact (congrArg State.pending h :)

theorem Accesses.pending (h : s.Accesses t) : t.pending = s.pending := by
  cases h with
  | untaken => rfl
  | retry => rfl
  | passed a =>
    obtain ⟨c, hc⟩ := passRead_only s a
    rw [finish_pending, hc]
  | answered => exact finish_pending _
  | written => exact finish_pending _
  | consumed => exact finish_pending _
  | refused => exact finish_pending _

/-- No command touches the queue. -/
theorem Leads.pending (h : s.Leads t) : t.pending = s.pending := by
  cases h with
  | still => rfl
  | powerUp => rfl
  | configuration =>
    obtain ⟨u, hu, c, a, x, rfl, -⟩ := checkConfiguration_only s
    rw [hu, finish_pending]
  | articles => exact (congrArg State.pending (loadArticles_eq s)).trans (finish_pending _)
  | carriers => rw [loadCarriers_eq, finish_pending, claimStartWords_claims]; rfl
  | work => exact finish_pending _
  | linkReset =>
    obtain ⟨ns, r, hr⟩ := returnNotice_only s
    rw [finish_pending, resetLink_eq, claimResetWords_claims]
    exact (congrArg State.pending hr :)
  | passOnlyReset => exact finish_pending _
  | access h => exact h.pending
  | readReturned => exact finish_pending _
  | freed => exact finish_pending _
  | grant => exact (Settles.arbitrate s).pending
  | postedWritten =>
    unfold State.postedWritten
    obtain ⟨c, hc⟩ := claimRead_only _
    rw [finish_pending, hc]
  | carried => exact finish_pending _
  | entryTaken => exact ((Settles.intakeTake s).trans (Settles.arbitrate _)).pending
  | begun => exact ((Settles.reportBegin s).trans (Settles.arbitrate _)).pending
  | givenBack => exact finish_pending _
  | handedOver => exact finish_pending _
  | entryWritten => exact finish_pending _
  | reportWritten v =>
    obtain ⟨st, hst⟩ := reportWritten_only (s.carried (s.controlAddress Config.offProduce) [wordOfHalves v.toNat 0]) v
    rw [finish_pending, hst]
    rfl
  | request => exact finish_pending _
  | floor => exact finish_pending _
  | drive n bs =>
    exact driveBytes_induction (P := fun u => u.pending = s.pending)
      (fun u b hu => (driveByte_pending n u b).trans hu) bs rfl
  | gateLine => rfl
  | gate => exact finish_pending _

/-! ## The memory (log 2) -/

theorem MemorySound.finish (h : s.MemorySound) : s.finish.MemorySound := by
  unfold MemorySound
  rw [(finish_settles s).mem]
  exact h

theorem MemorySound.jobEvent (h : s.MemorySound) (f : Store → Store) : (s.jobEvent f).MemorySound :=
  MemorySound.finish (s := s.onStore f) h

theorem MemorySound.settles (h : s.MemorySound) (hst : s.Settles t) : t.MemorySound :=
  (congrArg Memory.wf hst.mem).trans h

theorem MemorySound.writeMem (h : s.MemorySound) (a : Nat) (ws : List Word) : (s.writeMem a ws).MemorySound :=
  Memory.wf_writeWords h a ws

theorem MemorySound.carried (h : s.MemorySound) (a : Nat) (ws : List Word) : (s.carried a ws).MemorySound :=
  h.writeMem (s := s.freePort) a ws

theorem MemorySound.tornMemory (h : s.MemorySound) (k : Nat) : Memory.wf (s.tornMemory k) = true := by
  unfold State.tornMemory
  split
  · exact Memory.wf_writeWords h _ _
  · split
    · split
      · exact Memory.wf_writeMasked h _ _ _
      · exact h
    · exact h

theorem MemorySound.driveByte (n : Nat) (b : Byte) (h : s.MemorySound) : (driveByte n s b).MemorySound := by
  rcases driveByte_cases n s b with hd | hd
  · rw [hd]
    exact h.jobEvent _
  · rw [hd]
    exact h

theorem Accesses.memorySound (h : s.Accesses t) (hm : s.MemorySound) : t.MemorySound := by
  cases h with
  | untaken => exact hm
  | retry => exact hm
  | passed a =>
    obtain ⟨c, hc⟩ := passRead_only s a
    rw [hc]
    exact MemorySound.finish hm
  | answered => exact MemorySound.finish hm
  | written => exact MemorySound.finish hm
  | consumed => exact MemorySound.finish hm
  | refused => exact MemorySound.finish hm

theorem Leads.memorySound (h : s.Leads t) (hm : s.MemorySound) : t.MemorySound := by
  cases h with
  | still => exact hm
  | powerUp k => exact hm.tornMemory k
  | configuration =>
    obtain ⟨u, hu, c, a, x, rfl, -⟩ := checkConfiguration_only s
    rw [hu]
    exact MemorySound.finish hm
  | articles => exact loadArticles_eq s ▸ MemorySound.finish hm
  | carriers =>
    rw [loadCarriers_eq, claimStartWords_claims]
    exact MemorySound.finish hm
  | work => exact MemorySound.finish hm
  | linkReset =>
    obtain ⟨ns, r, hr⟩ := returnNotice_only s
    rw [resetLink_eq, claimResetWords_claims]
    exact MemorySound.finish (show Memory.wf s.returnNotice.mem = true by rw [hr]; exact hm)
  | passOnlyReset => exact MemorySound.finish hm
  | access h => exact h.memorySound hm
  | readReturned => exact MemorySound.finish hm
  | freed => exact MemorySound.finish hm
  | grant => exact hm.settles (Settles.arbitrate s)
  | postedWritten w ws b hp hw =>
    unfold State.postedWritten
    obtain ⟨c, hc⟩ := claimRead_only _
    rw [hc]
    exact MemorySound.finish (Memory.wf_writeMasked hm _ _ _)
  | carried => exact (hm.carried _ _).finish
  | entryTaken => exact hm.settles ((Settles.intakeTake s).trans (Settles.arbitrate _))
  | begun => exact hm.settles ((Settles.reportBegin s).trans (Settles.arbitrate _))
  | givenBack => exact MemorySound.finish (hm.carried _ _)
  | handedOver => exact MemorySound.finish (hm.carried _ _)
  | entryWritten => exact MemorySound.finish (hm.carried _ _)
  | reportWritten v =>
    obtain ⟨st, hst⟩ := reportWritten_only (s.carried (s.controlAddress Config.offProduce) [wordOfHalves v.toNat 0]) v
    rw [hst]
    exact MemorySound.finish (hm.carried _ _)
  | request => exact MemorySound.finish hm
  | floor => exact MemorySound.finish hm
  | drive n bs => exact driveBytes_induction (fun u b => MemorySound.driveByte n b) bs hm
  | gateLine => exact hm
  | gate => exact MemorySound.finish hm

end State

end Sys2Proof.Machine

end

section

open Sys2Proof Sys2Proof.Machine

/-- Settles O3: every row writes memory through `Memory.write`, or leaves it (log 2). -/
theorem memoryFormKept : Obligations.MemoryFormKept := by
  unfold Obligations.MemoryFormKept
  intro s t hm hstep
  rcases step_leads hstep with rfl | ⟨cs, hleads⟩
  · exact hm
  · exact hleads.memorySound hm

/-- Settles O1: the equation of a step with a command waiting. -/
theorem stepRunsFrontCommand : Obligations.StepRunsFrontCommand := by
  unfold Obligations.StepRunsFrontCommand
  intro c cs s h
  simp only [step, h]

/-- Settles O2: every command completes, and what it leads to has the same queue (log 30). -/
theorem queueIsLeftToTheStep : Obligations.QueueIsLeftToTheStep := by
  unfold Obligations.QueueIsLeftToTheStep
  refine ⟨fun c s => ?_, fun s h => ?_⟩
  · obtain ⟨t, ht, hleads⟩ := exec_leads c s
    exact ⟨t, ht, hleads.pending⟩
  · simp only [step, h]

end

/-! # The report ring (R176, R178) -/

section

namespace Sys2Proof.Machine

open Sys2Proof

namespace State

variable {s t : State}

/-! ## The transfers of report writes -/

/-- A state's report transfers, up to their order, are those of another with the same writer and condition. -/
structure SameReports (s t : State) : Prop where
  transfers : t.reportTransfers.Perm s.reportTransfers
  produce : t.report.produce = s.report.produce
  consume : t.report.consume = s.report.consume
  writing : t.report.writing = s.report.writing
  condition : t.path.condition = s.path.condition

theorem SameReports.refl (s : State) : s.SameReports s := ⟨.refl _, rfl, rfl, rfl, rfl⟩

theorem SameReports.trans {u : State} (h : s.SameReports t) (k : t.SameReports u) : s.SameReports u where
  transfers := k.transfers.trans h.transfers
  produce := k.produce.trans h.produce
  consume := k.consume.trans h.consume
  writing := k.writing.trans h.writing
  condition := k.condition.trans h.condition

theorem SameReports.unread (h : s.SameReports t) : t.unread = s.unread := by
  unfold State.unread
  rw [h.produce, h.consume]

theorem RingSound.of_same (r : s.RingSound) (h : s.SameReports t) : t.RingSound where
  unread := h.unread ▸ r.unread
  idle hw := List.perm_nil.1 (r.idle (h.writing ▸ hw) ▸ h.transfers)
  busy hw := by
    obtain ⟨hlen, hroom⟩ := r.busy (h.writing ▸ hw)
    exact ⟨h.transfers.length_eq.trans hlen, h.unread ▸ hroom⟩
  place x hx := by
    have hsound := r.place x (h.transfers.subset hx)
    cases x <;> simp_all [reportPlaceSound, reportEntryIndex, h.produce]
  waits hw := by
    rw [h.writing]
    exact r.waits (by simpa [State.working, h.condition] using hw)

/-- The report transfers, where the port and the claims are known. -/
theorem reportTransfers_eq (s : State) :
    s.reportTransfers = s.liveGrant.filter isReportTransfer ++ s.path.claims.filter isReportTransfer :=
  List.filter_append ..

theorem SameReports.of_eq (hp : t.path.port = s.path.port) (hc : t.path.claims = s.path.claims)
    (hr : t.report = s.report) (hx : t.path.condition = s.path.condition) : s.SameReports t := by
  refine ⟨?_, by rw [hr], by rw [hr], by rw [hr], hx⟩
  rw [reportTransfers, reportTransfers, liveGrant, liveGrant, hp, hc]

/-- A claim of another kind is no report transfer. -/
theorem SameReports.claim (s : State) {x : Transfer} (hx : isReportTransfer x = false) : s.SameReports (s.claim x) := by
  refine ⟨?_, rfl, rfl, rfl, rfl⟩
  rw [reportTransfers_eq, reportTransfers_eq]
  simp [State.claim, liveGrant, hx]

theorem SameReports.claimsMore {xs : List Transfer} (h : s.ClaimsMore t xs)
    (hx : ∀ x ∈ xs, isReportTransfer x = false) : s.SameReports t := by
  subst h
  refine ⟨?_, rfl, rfl, rfl, rfl⟩
  have hnone : xs.filter isReportTransfer = [] := List.filter_eq_nil_iff.2 fun x hxs => by simp [hx x hxs]
  rw [reportTransfers_eq, reportTransfers_eq, List.filter_append, hnone, List.append_nil]
  exact .refl _

theorem liveGrant_none (h : s.path.port = none) : s.liveGrant = [] := by
  unfold liveGrant
  rw [h]

/-- A transfer has left the claims for the port. -/
theorem SameReports.grant {x : Transfer} (hp : s.path.port = none) (hx : x ∈ s.path.claims) :
    s.SameReports ({ s with path := { s.path with claims := s.path.claims.erase x } }.grantTo x) := by
  refine ⟨?_, rfl, rfl, rfl, rfl⟩
  rw [reportTransfers, reportTransfers, liveGrant_none hp]
  exact (List.perm_cons_erase hx).symm.filter _

/-- A transfer that is no report write has got the port. -/
theorem SameReports.grantTo {x : Transfer} (hp : s.path.port = none) (hx : isReportTransfer x = false) :
    s.SameReports (s.grantTo x) := by
  refine ⟨?_, rfl, rfl, rfl, rfl⟩
  rw [reportTransfers_eq, reportTransfers_eq, liveGrant_none hp]
  simp [State.grantTo, liveGrant, hx]

theorem bestClaim_mem {x : Transfer} (h : s.bestClaim = some x) : x ∈ s.path.claims := by
  have hmem : ∀ c, s.oldestOf c = some x → x ∈ s.path.claims := fun c hc => List.mem_of_find?_eq_some hc
  unfold bestClaim at h
  simp only [Option.orElse_eq_or, Option.or_eq_some_iff] at h
  rcases h with h | ⟨-, h | ⟨-, h⟩⟩ <;> exact hmem _ h

theorem SameReports.arbitrate (s : State) : s.SameReports s.arbitrate := by
  unfold State.arbitrate
  split
  · exact .refl s
  · next hp =>
    have hnone : s.path.port = none := by simpa using hp
    split
    · exact .grantTo hnone rfl
    · split
      · next x hx => exact .grant hnone (bestClaim_mem hx)
      · split
        · exact .refl s
        · split
          · exact .refl s
          · next r rest hr =>
            unfold grantBurst
            exact SameReports.trans (t := { s with
                path := { s.path with changeCounts := put s.path.changeCounts (recordIndex r) (s.changeCount r + 1) }
                store := { s.store with writeBack := rest } })
              (.of_eq rfl rfl rfl rfl) (.grantTo hnone rfl)

theorem SameReports.intakeTake (s : State) : s.SameReports s.intakeTake := by
  unfold State.intakeTake
  split
  · exact SameReports.trans
      (t := { s with intake := { s.intake with state := .reading (entryOfIndex s.intake.index) } })
      (.of_eq rfl rfl rfl rfl) (.claim _ rfl)
  · exact .refl s

/-! ## A report write begins -/

/-- A report write has begun with nothing in flight and room in the ring. -/
theorem RingSound.begin (r : s.RingSound) {u : State} {ws : List Word} {c : ReportContent}
    (hw : s.report.writing = none) (hroom : s.hasRoom = true) (hs : s.working = true)
    (hport : u.path.port = s.path.port) (hclaims : u.path.claims = s.path.claims)
    (hcond : u.path.condition = s.path.condition) (hproduce : u.report.produce = s.report.produce)
    (hconsume : u.report.consume = s.report.consume) (hwriting : u.report.writing = some c) :
    (u.claim (.reportEntry s.reportEntryIndex ws)).RingSound := by
  have hunread : s.unread < Config.reportEntries := by simpa [hasRoom] using hroom
  have hu : (u.claim (.reportEntry s.reportEntryIndex ws)).unread = s.unread := by
    simp only [State.unread, State.claim, hproduce, hconsume]
  have htransfers : (u.claim (.reportEntry s.reportEntryIndex ws)).reportTransfers =
      [.reportEntry s.reportEntryIndex ws] := by
    have hidle := r.idle hw
    rw [reportTransfers_eq] at hidle ⊢
    simp only [List.append_eq_nil_iff, liveGrant] at hidle
    simp [State.claim, liveGrant, hport, hclaims, hidle, isReportTransfer]
  refine ⟨hu ▸ r.unread, fun h => ?_, fun _ => ⟨by rw [htransfers]; rfl, hu ▸ hunread⟩, fun x hx => ?_, fun h => ?_⟩
  · exact absurd (hwriting.symm.trans h) (by simp)
  · rw [htransfers, List.mem_singleton] at hx
    subst hx
    simp [reportPlaceSound, reportEntryIndex, State.claim, hproduce]
  · rw [show (u.claim (.reportEntry s.reportEntryIndex ws)).working = s.working by
      simp [State.working, State.claim, hcond], hs] at h
    exact absurd h (by decide)

theorem RingSound.reportBegin (r : s.RingSound) (hs : s.working = true) : s.reportBegin.RingSound := by
  unfold State.reportBegin
  split
  · next h =>
    obtain ⟨hw, hroom⟩ := h
    split
    · exact r.begin hw hroom hs rfl rfl rfl rfl rfl rfl
    · split
      · exact r
      · split
        · exact r
        · exact r.begin hw hroom hs rfl rfl rfl rfl rfl rfl
  · exact r

theorem RingSound.arbitrate (r : s.RingSound) : s.arbitrate.RingSound := r.of_same (.arbitrate s)

theorem RingSound.finish (r : s.RingSound) : s.finish.RingSound := by
  unfold State.finish
  split
  · next h =>
    have hs : s.intakeTake.working = true := by
      rw [← h, State.working, State.working, (Settles.intakeTake s).condition]
    exact ((r.of_same (.intakeTake s)).reportBegin hs).arbitrate
  · exact r.arbitrate

theorem RingSound.jobEvent (r : s.RingSound) (f : Store → Store) : (s.jobEvent f).RingSound :=
  RingSound.finish (s := s.onStore f) (r.of_same (.of_eq rfl rfl rfl rfl))

/-! ## A report write goes on and ends -/

/-- The port is free of a transfer that is dropped or no report write. -/
theorem SameReports.freePort {g : Grant} (hp : s.path.port = some g)
    (hg : g.dropped = true ∨ isReportTransfer g.transfer = false) : s.SameReports s.freePort := by
  refine ⟨?_, rfl, rfl, rfl, rfl⟩
  rw [reportTransfers_eq, reportTransfers_eq, liveGrant_none rfl]
  obtain ⟨x, dropped⟩ := g
  have hlive : s.liveGrant.filter isReportTransfer = [] := by
    unfold liveGrant
    rw [hp]
    cases dropped
    case true => rfl
    case false =>
      have hx : isReportTransfer x = false := by simpa using hg
      simp [hx]
  rw [hlive]
  exact .refl _

/-- A report write in flight has the port: it is busy, and nothing else of a report write waits. -/
theorem RingSound.of_port (r : s.RingSound) {x : Transfer} (hp : s.path.port = some ⟨x, false⟩)
    (hx : isReportTransfer x = true) :
    s.report.writing ≠ none ∧ s.path.claims.filter isReportTransfer = [] ∧ s.reportPlaceSound x := by
  have hlive : s.reportTransfers = x :: s.path.claims.filter isReportTransfer := by
    rw [reportTransfers_eq]
    simp [liveGrant, hp, hx]
  have hbusy : s.report.writing ≠ none := fun hw => by simpa [hlive] using r.idle hw
  refine ⟨hbusy, ?_, r.place x (by rw [hlive]; exact List.mem_cons_self)⟩
  have hlen := (r.busy hbusy).1
  rw [hlive, List.length_cons] at hlen
  exact List.length_eq_zero_iff.1 (by omega)

theorem RingSound.working_of_busy (r : s.RingSound) (h : s.report.writing ≠ none) : s.working = true := by
  refine Classical.byContradiction fun hn => ?_
  exact h (r.waits (by simpa using hn))

/-- The entry is written, and the produce index write is claimed (R176). -/
theorem RingSound.entryWritten (r : s.RingSound) {e : Nat} {ws : List Word}
    (hp : s.path.port = some ⟨.reportEntry e ws, false⟩) (a : Nat) :
    ((s.carried a ws).claim (.produceIndex (s.report.produce + 1) true)).RingSound := by
  obtain ⟨hbusy, hclaims, -⟩ := r.of_port hp rfl
  have htransfers : ((s.carried a ws).claim (.produceIndex (s.report.produce + 1) true)).reportTransfers =
      [.produceIndex (s.report.produce + 1) true] := by
    rw [reportTransfers_eq]
    simp [State.claim, carried, writeMem, State.freePort, liveGrant, hclaims, isReportTransfer]
  refine ⟨r.unread, fun h => absurd h hbusy, fun _ => ⟨by rw [htransfers]; rfl, (r.busy hbusy).2⟩,
    fun x hx => ?_, fun h => r.waits h⟩
  rw [htransfers, List.mem_singleton] at hx
  subst hx
  rfl

theorem unread_succ {p c : Half} (h : (p - c).toNat < 64) : (p + 1 - c).toNat ≤ 64 := by
  bv_omega

/-- The produce index rises, and no report write is in flight any more (R176). -/
theorem RingSound.reportWritten (r : s.RingSound) {v : Half} (hp : s.path.port = some ⟨.produceIndex v true, false⟩)
    (a : Nat) (ws : List Word) : ((s.carried a ws).reportWritten v).RingSound := by
  obtain ⟨hbusy, hclaims, hplace⟩ := r.of_port hp rfl
  obtain ⟨st, hst⟩ := reportWritten_only (s.carried a ws) v
  have hv : v = s.report.produce + 1 := hplace
  have htransfers : ((s.carried a ws).reportWritten v).reportTransfers = [] := by
    rw [hst, reportTransfers_eq]
    simp [carried, writeMem, State.freePort, liveGrant, hclaims]
  refine ⟨?_, fun _ => htransfers, fun h => ?_, fun x hx => ?_, fun _ => ?_⟩
  · rw [hst, hv]
    exact unread_succ (r.busy hbusy).2
  · exact absurd (by rw [hst]) h
  · rw [htransfers] at hx
    exact absurd hx List.not_mem_nil
  · rw [hst]

/-! ## The rows -/

theorem unread_consumed {p c v : Half} (h : (v - c).toNat ≤ (p - c).toNat) : (p - v).toNat ≤ (p - c).toNat := by
  bv_omega

theorem Accesses.ringSound (h : s.Accesses t) (r : s.RingSound) : t.RingSound := by
  cases h with
  | untaken => exact r
  | retry => exact r.of_same (.of_eq rfl rfl rfl rfl)
  | passed a =>
    unfold passRead
    dsimp only
    split
    · exact (r.of_same (SameReports.trans (t := { s with path := { s.path with inFlight := some a, ending := none } })
        (.of_eq rfl rfl rfl rfl) (.claim _ rfl))).finish
    · exact RingSound.finish (r.of_same (.of_eq rfl rfl rfl rfl))
  | answered => exact RingSound.finish (r.of_same (.of_eq rfl rfl rfl rfl))
  | written => exact RingSound.finish (r.of_same (.of_eq rfl rfl rfl rfl))
  | consumed a en d v hroom hv =>
    have hle : (s.report.produce - v).toNat ≤ (s.report.produce - s.report.consume).toNat := unread_consumed hv
    exact RingSound.finish ⟨Nat.le_trans hle r.unread, r.idle,
      fun hw => ⟨(r.busy hw).1, Nat.lt_of_le_of_lt hle (r.busy hw).2⟩, r.place, r.waits⟩
  | refused => exact RingSound.finish (r.of_same (.of_eq rfl rfl rfl rfl))

theorem RingSound.driveByte (r : s.RingSound) (n : Nat) (b : Byte) : (driveByte n s b).RingSound := by
  rcases driveByte_cases n s b with h | h
  · rw [h]
    exact r.jobEvent _
  · rw [h]
    exact r.of_same (.of_eq rfl rfl rfl rfl)

/-- A link with no report write in flight and no report transfer. -/
theorem RingSound.of_quiet (hu : s.unread ≤ Config.reportEntries) (hw : s.report.writing = none)
    (ht : s.reportTransfers = []) : s.RingSound where
  unread := hu
  idle _ := ht
  busy h := absurd hw h
  place _ hx := absurd (ht ▸ hx) List.not_mem_nil
  waits _ := hw

/-- A part that does not work yet has no report write. -/
theorem RingSound.quiet_of_notWorking (r : s.RingSound) (h : s.path.condition ≠ .working) :
    s.report.writing = none ∧ s.reportTransfers = [] := by
  have hw := r.waits (by simpa [State.working] using h)
  exact ⟨hw, r.idle hw⟩

theorem claims_quiet (h : s.reportTransfers = []) : s.path.claims.filter isReportTransfer = [] := by
  rw [reportTransfers_eq] at h
  exact (List.append_eq_nil_iff.1 h).2

theorem not_working_of_loadingStage {st : LoadStage} (h : s.loadingStage st = true) :
    s.path.condition = .loading st ∧ s.path.port = some ⟨.load st, false⟩ := by
  simpa [loadingStage] using h

/-- A stage of the load has ended with a claim that is no report write. -/
theorem RingSound.ofLoad (r : s.RingSound) {u : State} (h : s.path.condition ≠ .working) (hr : u.report = s.report)
    (hp : u.path.port = none) (hc : u.path.claims.filter isReportTransfer = []) : u.RingSound := by
  obtain ⟨hw, -⟩ := r.quiet_of_notWorking h
  refine .of_quiet ?_ (by rw [hr]; exact hw) ?_
  · rw [State.unread, hr]
    exact r.unread
  · rw [reportTransfers_eq, liveGrant_none hp, hc]
    rfl

theorem filter_reports_append {xs ys : List Transfer} (hx : xs.filter isReportTransfer = [])
    (hy : ys.filter isReportTransfer = []) : (xs ++ ys).filter isReportTransfer = [] := by
  rw [List.filter_append, hx, hy]
  rfl

theorem startWords_reports (s : State) : s.startWords.filter isReportTransfer = [] := by
  unfold startWords resetWords
  split <;> split <;> rfl

theorem RingSound.loads (r : s.RingSound) {st : LoadStage} (h : s.loadingStage st = true) :
    s.path.condition ≠ .working ∧ s.path.claims.filter isReportTransfer = [] := by
  have hc : s.path.condition ≠ .working := by simp [(not_working_of_loadingStage h).1]
  exact ⟨hc, claims_quiet (r.quiet_of_notWorking hc).2⟩

/-- After a link reset no report write is in flight, and every transfer of one is withdrawn or only completes. -/
theorem resetLink_ringSound (s : State) : s.resetLink.RingSound := by
  have htransfers : s.linkCleared.reportTransfers = [] := by
    rw [reportTransfers_eq, List.append_eq_nil_iff]
    refine ⟨?_, ?_⟩
    · unfold liveGrant linkCleared dropTransfers
      dsimp only
      cases s.returnNotice.path.port with
      | none => rfl
      | some g =>
        obtain ⟨x, dropped⟩ := g
        cases dropped <;> cases x <;> simp [resetDrops, isReportTransfer] <;> rename_i c <;> cases c <;> simp
    · refine List.filter_eq_nil_iff.2 fun x hx => ?_
      have hkept : (!resetDrops x) = true := (List.mem_filter.1 hx).2
      cases x <;> simp_all [resetDrops, isReportTransfer]
  rw [resetLink_eq]
  have hunread : s.linkCleared.unread = 0 := show ((0 : Half) - 0).toNat = 0 by decide
  have hsound : s.linkCleared.RingSound := .of_quiet (hunread ▸ Nat.zero_le _) rfl htransfers
  exact (hsound.of_same (.claimsMore (claimResetWords_claims _) (by simp [resetWords, isReportTransfer]))).of_same
    (.of_eq rfl rfl rfl rfl)

theorem dropRead_reports (s : State) : s.SameReports s.dropRead := by
  refine ⟨?_, rfl, rfl, rfl, rfl⟩
  have hclaims : (s.path.claims.filter fun x => !isPassedRead x).filter isReportTransfer =
      s.path.claims.filter isReportTransfer := by
    rw [List.filter_filter]
    refine List.filter_congr fun x _ => ?_
    cases x <;> simp [isPassedRead, isReportTransfer]
  have hlive : s.dropRead.liveGrant.filter isReportTransfer = s.liveGrant.filter isReportTransfer := by
    unfold liveGrant dropRead dropTransfers
    dsimp only
    cases s.path.port with
    | none => rfl
    | some g =>
      obtain ⟨x, dropped⟩ := g
      cases dropped <;> cases x <;> simp [isPassedRead, isReportTransfer]
  rw [reportTransfers_eq, reportTransfers_eq, hlive]
  exact .append_left _ (.of_eq hclaims)

theorem Leads.ringSound (h : s.Leads t) (r : s.RingSound) : t.RingSound := by
  cases h with
  | still => exact r
  | powerUp => exact .of_quiet (show State.reset.unread ≤ _ by decide) rfl rfl
  | configuration h =>
    obtain ⟨hload, hclaims⟩ := r.loads h
    obtain ⟨u, hu, c, a, x, rfl, hcases⟩ := checkConfiguration_only s
    rw [hu]
    refine RingSound.finish (r.ofLoad hload rfl rfl ?_)
    rcases hcases with ⟨-, rfl, -⟩ | ⟨-, rfl, -⟩
    · exact filter_reports_append hclaims rfl
    · rfl
  | articles h =>
    obtain ⟨hload, hclaims⟩ := r.loads h
    rw [loadArticles_eq]
    exact RingSound.finish (r.ofLoad hload rfl rfl (filter_reports_append hclaims rfl))
  | carriers h =>
    obtain ⟨hload, hclaims⟩ := r.loads h
    rw [loadCarriers_eq, claimStartWords_claims]
    exact RingSound.finish (r.ofLoad hload rfl rfl (filter_reports_append hclaims (startWords_reports _)))
  | work h =>
    have hload : s.path.condition ≠ .working := by
      intro hw
      simp [loadDone, hw] at h
    obtain ⟨hw, ht⟩ := r.quiet_of_notWorking hload
    exact RingSound.finish (.of_quiet r.unread hw ht)
  | linkReset => exact (resetLink_ringSound s).finish
  | passOnlyReset => exact (r.of_same (dropRead_reports s)).finish
  | access h => exact h.ringSound r
  | readReturned a hp =>
    exact RingSound.finish (r.of_same ((SameReports.freePort hp (.inr rfl)).trans (.of_eq rfl rfl rfl rfl)))
  | freed g hp hg =>
    refine (r.of_same (.freePort hp ?_)).finish
    exact hg.imp_right fun h => by rw [h]; rfl
  | grant => exact r.arbitrate
  | postedWritten w ws b hp hw =>
    unfold State.postedWritten
    have hfree : s.SameReports { s with
        mem := Memory.writeMasked s.mem w.address w.enables w.data
        path := { s.path with port := none, posted := ws } } :=
      (SameReports.freePort hp (.inr rfl)).trans (.of_eq rfl rfl rfl rfl)
    unfold claimRead
    split
    · split
      · exact (r.of_same (hfree.trans (.claim _ rfl))).finish
      · exact (r.of_same hfree).finish
    · exact (r.of_same hfree).finish
  | carried g a ws hp hg =>
    have hsame : s.SameReports (s.carried a ws) := (SameReports.freePort hp hg).trans (.of_eq rfl rfl rfl rfl)
    exact (r.of_same hsame).finish
  | entryTaken => exact (r.of_same (.intakeTake s)).arbitrate
  | begun h => exact (r.reportBegin (working_iff.2 h)).arbitrate
  | givenBack e w hp =>
    have hfree : s.SameReports { s.carried (s.entryAddress e) [w] with
        intake := { s.intake with index := s.intake.index + 1 } } :=
      (SameReports.freePort hp (.inr rfl)).trans (.of_eq rfl rfl rfl rfl)
    exact (r.of_same (hfree.trans (.claim _ rfl))).finish
  | handedOver v e ws hp =>
    have hfree := (SameReports.freePort hp (.inr rfl) : s.SameReports s.freePort)
    exact RingSound.finish (r.of_same ⟨hfree.transfers, rfl, rfl, rfl, rfl⟩)
  | entryWritten e ws hp => exact (r.entryWritten hp _).finish
  | reportWritten v hp => exact (r.reportWritten hp _ _).finish
  | request isKind f hf e hp =>
    have hfree := (SameReports.freePort hp (.inr rfl) : s.SameReports s.freePort)
    refine RingSound.finish (r.of_same (hfree.trans ?_))
    exact SameReports.trans (t := { s.freePort.setMark e false with
        store := (answerOf f (s.entryWords e) s.store).store
        intake := { s.intake with state := .returning e (completionWords (Req.kind (s.entryWords e))
          (answerOf f (s.entryWords e) s.store).status (Req.tag (s.entryWords e)) s.intake.index
          (answerOf f (s.entryWords e) s.store).data) } })
      (.of_eq rfl rfl rfl rfl) (.claim _ rfl)
  | floor => exact r.jobEvent _
  | drive n bs => exact driveBytes_induction (P := RingSound) (fun u b hu => hu.driveByte n b) bs r
  | gateLine => exact r.of_same (.of_eq rfl rfl rfl rfl)
  | gate n high =>
    have hsame : s.SameReports { s with gateLines := put s.gateLines n high } := .of_eq rfl rfl rfl rfl
    exact (r.of_same hsame).jobEvent _

/-! ## No report write is left to be begun (R178) -/

theorem ReportsBegun.of_notWorking (h : s.path.condition ≠ .working) : s.ReportsBegun := fun hw => absurd hw h

theorem intakeTake_returning (s : State) : s.intakeTake.returning = s.returning := by
  unfold State.intakeTake
  split
  · next h =>
    have hwaiting : s.intake.state = .waiting := by
      simp only [mayTakeEntry, Bool.and_eq_true, beq_iff_eq] at h
      exact h.1.1.1.1.1
    simp [returning, claim, hwaiting]
  · rfl

theorem ReportsBegun.intakeTake (h : s.ReportsBegun) : s.intakeTake.ReportsBegun := by
  intro hc hw hu
  rw [State.unread, intakeTake_report] at hu
  rw [intakeTake_report] at hw ⊢
  rw [intakeTake_returning, intakeTake_store]
  exact h ((Settles.intakeTake s).condition ▸ hc) hw hu

theorem Accesses.reportsBegun (h : s.Accesses t) (hb : s.ReportsBegun) : t.ReportsBegun := by
  cases h with
  | untaken => exact hb
  | retry => exact hb
  | passed => exact finish_begun _
  | answered => exact finish_begun _
  | written => exact finish_begun _
  | consumed => exact finish_begun _
  | refused => exact finish_begun _

theorem ReportsBegun.driveByte (h : s.ReportsBegun) (n : Nat) (b : Byte) : (driveByte n s b).ReportsBegun := by
  rcases driveByte_cases n s b with hd | hd
  · rw [hd]
    exact finish_begun (s.onStore _)
  · rw [hd]
    exact h

theorem Leads.reportsBegun (h : s.Leads t) (hb : s.ReportsBegun) : t.ReportsBegun := by
  cases h with
  | still => exact hb
  | powerUp => exact .of_notWorking (by simp [State.reset, PathUnit.powerUp])
  | configuration =>
    obtain ⟨u, hu, -⟩ := checkConfiguration_only s
    exact hu ▸ finish_begun u
  | articles => exact loadArticles_eq s ▸ finish_begun _
  | carriers => exact loadCarriers_eq s ▸ finish_begun _
  | work => exact finish_begun _
  | linkReset => exact finish_begun _
  | passOnlyReset => exact finish_begun _
  | access h => exact h.reportsBegun hb
  | readReturned => exact finish_begun _
  | freed => exact finish_begun _
  | grant => exact hb.arbitrate
  | postedWritten => exact finish_begun _
  | carried => exact finish_begun _
  | entryTaken => exact hb.intakeTake.arbitrate
  | begun => exact (reportBegin_begun s).arbitrate
  | givenBack => exact finish_begun _
  | handedOver => exact finish_begun _
  | entryWritten => exact finish_begun _
  | reportWritten => exact finish_begun _
  | request => exact finish_begun _
  | floor f => exact finish_begun (s.onStore f)
  | drive n bs => exact driveBytes_induction (P := ReportsBegun) (fun u b hu => hu.driveByte n b) bs hb
  | gateLine => exact hb
  | gate => exact finish_begun (State.onStore _ _)

end State

end Sys2Proof.Machine

end

section

open Sys2Proof Sys2Proof.Machine

/-- Settles O4: a report write has one transfer at a time, from its entry to the produce index, and what follows an
event begins the write that waits (R176, R178). -/
theorem reportRingKept : Obligations.ReportRingKept := by
  unfold Obligations.ReportRingKept
  intro s t hstep
  rcases step_leads hstep with rfl | ⟨cs, hleads⟩
  · exact ⟨id, id⟩
  · refine ⟨fun r => hleads.ringSound (r.of_same (.of_eq rfl rfl rfl rfl)), fun h => hleads.reportsBegun h⟩

end

/-! # The bounds of the lists, and the faces (R14, R30, R53, R179, R187, R189) -/

section

namespace Sys2Proof.Machine

open Sys2Proof

/-! ## Rows as chains of primitive updates -/

theorem FloorRow.evolves {f : Store → Store} (h : FloorRow f) (st : Store) : Evolves st (f st) := by
  cases h with
  | deadline n =>
    dsimp only
    split
    · exact (Store.expireDeadline_evolves _ _).trans (Store.eventEnd_evolves _)
    · exact .refl _
  | message p bs => exact Store.panelMessage_evolves _ _ _
  | badByte p a b => exact Store.badByte_evolves _ _ _ _
  | answer p =>
    dsimp only
    split
    · exact ((Store.expireAnswer_evolves _ _).trans (Store.eventEnd_evolves _)).trans (Store.takeKeyIf_evolves _ _ _)
    · exact .refl _
  | agreement p => exact Store.agreePanel_evolves _ _
  | key p kind => exact Store.takeKeyIf_evolves _ _ _
  | sample l raw valid =>
    dsimp only
    split
    · exact (Store.scan_evolves _ _ _ _).trans (Store.eventEnd_evolves _)
    · exact .refl _
  | arrival l => exact Store.expireArrival_evolves _ _

theorem GateRow.evolves {f : Store → Nat → Store} (h : GateRow f) (st : Store) (n : Nat) : Evolves st (f st n) := by
  cases h with
  | opens => exact Store.gateOpened_evolves _ _
  | closes => exact Store.gateClosed_evolves _ _

theorem RequestRow.good {isKind : Nat → Bool} {f : List Word → Store → Answer} (h : RequestRow isKind f)
    (ws : List Word) (st : Store) : Answer.Good st (f ws st) := by
  cases h with
  | articleDefine => exact Owner.articleDefine_good _ _
  | articleRemove => exact Owner.articleRemove_good _ _
  | receive => exact Owner.receive_good _ _
  | orderOpen => exact Owner.orderOpen_good _ _
  | orderCancel => exact Owner.orderCancel_good _ _
  | audit => exact Owner.audit_good _ _
  | slotBlock => exact Owner.slotBlock_good _ _
  | slotUnblock => exact Owner.slotUnblock_good _ _
  | home => exact Owner.home_good _ _
  | laneAccept => exact Owner.laneAccept_good _ _
  | laneRelease => exact Owner.laneRelease_good _ _
  | panelRestart => exact Owner.panelRestart_good _ _
  | unknown => exact Owner.unknown_good _ _

theorem RequestRow.evolves {isKind : Nat → Bool} {f : List Word → Store → Answer} (h : RequestRow isKind f)
    (ws : List Word) (st : Store) : Evolves st (answerOf f ws st).store :=
  (answerOf_good f h.good ws st).evolves

namespace Store

theorem raiseGate_evolves (s : Store) (n : Nat) : Evolves s (s.raiseGate n) := by
  unfold raiseGate
  split
  · exact raise_evolves _ _ _
  · exact .refl s

theorem raiseCreated_evolves (s : Store) (a : Nat) : Evolves s (s.raiseCreated a) := by
  unfold raiseCreated
  split
  · exact raise_evolves _ _ _
  · exact .refl s

theorem gateSettled_evolves (lines : Vector Bool 4) (s : Store) (n : Nat) : Evolves s (s.gateSettled lines n) := by
  unfold gateSettled
  split
  · split
    · exact gateClosed_evolves _ _
    · exact gateOpened_evolves _ _
    · exact .refl s
    · exact .refl s
  · exact .refl s

theorem startPanel_evolves (s : Store) (p : Nat) : Evolves s (s.startPanel p) := by
  unfold startPanel
  split
  · exact beginIdentification_evolves _ _
  · exact .refl s

theorem startScan_evolves (s : Store) (l : Nat) : Evolves s (s.startScan l) := by
  unfold startScan
  split
  · exact setLane_evolves _ _ _
  · exact .refl s

theorem startWork_evolves (s : Store) (discarded : Bool) (lines : Vector Bool 4) :
    Evolves s (s.startWork discarded lines) :=
  (((((raise_evolves s _ _).trans (Evolves.foldl _ raiseGate_evolves _ _)).trans
    (Evolves.foldl _ raiseCreated_evolves _ _)).trans (Evolves.foldl _ (gateSettled_evolves lines) _ _)).trans
    (Evolves.foldl _ startPanel_evolves _ _)).trans
    ((Evolves.foldl _ startScan_evolves _ _).trans (eventEnd_evolves _))

theorem loadSuspect_evolves (s : Store) (r : Nat) : Evolves s (s.loadSuspect r) := by
  unfold loadSuspect
  split
  · exact .refl s
  · have hask := (updCarrier_evolves s r fun c => { c with suspect := true }).trans
      (askAudit_evolves _ r .suspect false)
    split
    · next h => rw [h] at hask; exact hask.trans (markWanted_evolves _ _)
    · next h => rw [h] at hask; exact hask
    · next h => rw [h] at hask; exact hask

/-! ## Bounds under changes that no operation makes -/

/-- The bounds hold of a store whose lists are those of another, its notices and its records a part of them. -/
theorem Bounded.of_parts {s t : Store} (b : s.Bounded) (hr : t.reservations = s.reservations)
    (hq : ∀ n, (t.channel n).queue.length ≤ (s.channel n).queue.length)
    (hn : (t.notices.map fun n => n.source).Nodup) (hw : t.writeBack.Nodup) : t.Bounded where
  reservations := hr ▸ b.reservations
  numbers := hr ▸ b.numbers
  queues n := Nat.le_trans (hq n) (b.queues n)
  sources := hn
  listed := hw

end Store

/-- A notice put back at the head stands alone for its source. -/
theorem putBack_sources {n : Notice} {ns : List Notice} (h : (ns.map fun m => m.source).Nodup) :
    ((putBack n ns).map fun m => m.source).Nodup := by
  unfold putBack
  split
  · rw [List.map_cons, List.nodup_cons]
    refine ⟨fun hmem => ?_, h.sublist (List.filter_sublist.map _)⟩
    obtain ⟨m, hm, hsource⟩ := List.mem_map.1 hmem
    simpa [hsource] using (List.mem_filter.1 hm).2
  · next hnone =>
    rw [List.map_cons, List.nodup_cons]
    refine ⟨fun hmem => ?_, h⟩
    obtain ⟨m, hm, hsource⟩ := List.mem_map.1 hmem
    simpa [hsource] using List.find?_eq_none.1 hnone m hm

namespace State

variable {s t : State}

/-! ## What follows an event drops at most the heads of the two lists -/

/-- The notices and the records listed are parts of those before, in their order; nothing else of the store differs. -/
structure ListsLess (s t : State) : Prop where
  notices : t.store.notices.Sublist s.store.notices
  listed : t.store.writeBack.Sublist s.store.writeBack
  rest : s.SameJobs t

theorem ListsLess.refl (s : State) : s.ListsLess s := ⟨.refl _, .refl _, rfl⟩

theorem ListsLess.of_store (h : t.store = s.store) : s.ListsLess t := by
  refine ⟨h ▸ .refl _, h ▸ .refl _, ?_⟩
  unfold SameJobs
  rw [h]

theorem ListsLess.trans {u : State} (h : s.ListsLess t) (k : t.ListsLess u) : s.ListsLess u where
  notices := k.notices.trans h.notices
  listed := k.listed.trans h.listed
  rest := by
    have hu : u.store = _ := k.rest
    have ht : t.store = _ := h.rest
    unfold SameJobs
    rw [hu, ht]

theorem intakeTake_listsLess (s : State) : s.ListsLess s.intakeTake := .of_store (intakeTake_store s)

theorem reportBegin_listsLess (s : State) : s.ListsLess s.reportBegin := by
  unfold reportBegin
  split
  · split
    · exact .of_store rfl
    · split
      · exact .refl s
      · split
        · exact .refl s
        · next n rest h => exact ⟨h ▸ List.sublist_cons_self _ _, .refl _, rfl⟩
  · exact .refl s

theorem arbitrate_listsLess (s : State) : s.ListsLess s.arbitrate := by
  unfold arbitrate
  split
  · exact .refl s
  · split
    · exact .of_store rfl
    · split
      · exact .of_store rfl
      · split
        · exact .refl s
        · split
          · exact .refl s
          · next r rest h => exact ⟨.refl _, h ▸ List.sublist_cons_self _ _, rfl⟩

theorem finish_listsLess (s : State) : s.ListsLess s.finish := by
  unfold finish
  split
  · exact ((intakeTake_listsLess s).trans (reportBegin_listsLess _)).trans (arbitrate_listsLess _)
  · exact arbitrate_listsLess s

theorem ListsLess.bounded (h : s.ListsLess t) (b : s.store.Bounded) : t.store.Bounded := by
  have hstore : t.store = _ := h.rest
  refine b.of_parts (by rw [hstore]) (fun n => ?_) (b.sources.sublist (h.notices.map _)) (b.listed.sublist h.listed)
  rw [hstore]
  exact Nat.le_refl _

theorem ListsLess.facesSound (h : s.ListsLess t) (b : s.store.FacesSound) : t.store.FacesSound := by
  have hstore : t.store = _ := h.rest
  rw [hstore]
  exact ⟨b.faces, b.presented⟩

/-! ## The posted write buffer (R187) -/

theorem BufferSound.finish (h : s.BufferSound) : s.finish.BufferSound := by
  unfold BufferSound
  rw [(finish_settles s).posted]
  exact h

theorem Accesses.bufferSound (h : s.Accesses t) (b : s.BufferSound) : t.BufferSound := by
  cases h with
  | untaken => exact b
  | retry => exact b
  | passed a =>
    obtain ⟨c, hc⟩ := passRead_only s a
    rw [hc]
    exact BufferSound.finish b
  | answered => exact BufferSound.finish b
  | written hroom =>
    refine BufferSound.finish ?_
    simpa [BufferSound, Nat.succ_le_iff] using hroom
  | consumed a en d v hroom =>
    refine BufferSound.finish ?_
    simpa [BufferSound, post, endAccess, Nat.succ_le_iff] using hroom
  | refused => exact BufferSound.finish b

theorem BufferSound.jobEvent (h : s.BufferSound) (f : Store → Store) : (s.jobEvent f).BufferSound :=
  BufferSound.finish (s := s.onStore f) h

theorem BufferSound.driveByte (h : s.BufferSound) (n : Nat) (b : Byte) : (driveByte n s b).BufferSound := by
  rcases driveByte_cases n s b with hd | hd
  · rw [hd]
    exact h.jobEvent _
  · rw [hd]
    exact h

theorem Leads.bufferSound (h : s.Leads t) (b : s.BufferSound) : t.BufferSound := by
  cases h with
  | still => exact b
  | powerUp => exact Nat.zero_le _
  | configuration =>
    obtain ⟨u, hu, c, a, x, rfl, -⟩ := checkConfiguration_only s
    rw [hu]
    exact BufferSound.finish b
  | articles =>
    rw [loadArticles_eq]
    exact BufferSound.finish b
  | carriers =>
    rw [loadCarriers_eq, claimStartWords_claims]
    exact BufferSound.finish b
  | work => exact BufferSound.finish b
  | linkReset =>
    obtain ⟨ns, r, hr⟩ := returnNotice_only s
    rw [resetLink_eq, claimResetWords_claims]
    exact BufferSound.finish (show s.returnNotice.path.posted.length ≤ _ by rw [hr]; exact b)
  | passOnlyReset => exact BufferSound.finish b
  | access h => exact h.bufferSound b
  | readReturned => exact BufferSound.finish b
  | freed => exact BufferSound.finish b
  | grant => exact Nat.le_trans (Nat.le_of_eq (congrArg List.length (Settles.arbitrate s).posted)) b
  | postedWritten w ws c hp hw =>
    unfold State.postedWritten
    obtain ⟨c, hc⟩ := claimRead_only _
    rw [hc]
    refine BufferSound.finish ?_
    have hlen : (w :: ws).length ≤ Config.postedCapacity := hw ▸ b
    exact Nat.le_trans (Nat.le_succ _) hlen
  | carried => exact BufferSound.finish b
  | entryTaken =>
    exact Nat.le_trans
      (Nat.le_of_eq (congrArg List.length ((Settles.intakeTake s).trans (Settles.arbitrate _)).posted)) b
  | begun =>
    exact Nat.le_trans
      (Nat.le_of_eq (congrArg List.length ((Settles.reportBegin s).trans (Settles.arbitrate _)).posted)) b
  | givenBack => exact BufferSound.finish b
  | handedOver => exact BufferSound.finish b
  | entryWritten => exact BufferSound.finish b
  | reportWritten v =>
    obtain ⟨st, hst⟩ := reportWritten_only (s.carried (s.controlAddress Config.offProduce) [wordOfHalves v.toNat 0]) v
    rw [hst]
    exact BufferSound.finish b
  | request => exact BufferSound.finish b
  | floor => exact b.jobEvent _
  | drive n bs => exact driveBytes_induction (P := BufferSound) (fun u x hu => hu.driveByte n x) bs b
  | gateLine => exact b
  | gate n high => exact BufferSound.jobEvent (s := { s with gateLines := put s.gateLines n high }) b _

/-! ## The store -/

/-- What holds of the store along every primitive update, and whatever the two lists drop, holds along what follows. -/
structure Carries (P : Store → Prop) : Prop where
  evolves : ∀ {x y : Store}, Evolves x y → P x → P y
  less : ∀ {u v : State}, u.ListsLess v → P u.store → P v.store
  reset : P Store.powerUp
  configured : ∀ {x : Store} (c : Configuration), P x → P { x with cfg := c }
  articles : ∀ {x : Store} (a : Vector (Option Article) 512), P x → P { x with articles := a }
  carriers : ∀ {x : Store} (c : Vector Carrier 96), P x → P { x with carriers := c }
  values : ∀ {x : Store} (lines : Vector Bool 4), P x → P (x.powerUpValues lines)
  putBack : ∀ {x : Store} (n : Notice), P x → P { x with notices := putBack n x.notices }

theorem carries_bounded : Carries Store.Bounded where
  evolves h b := h.bounded b
  less h b := h.bounded b
  reset := by
    refine ⟨by decide, List.nodup_nil, fun n => ?_, List.nodup_nil, List.nodup_nil⟩
    rw [show Store.powerUp.channel n = Channel.powerUp by
      simp [Store.channel, Store.powerUp, look, Vector.getElem?_replicate]; split <;> rfl]
    exact Nat.zero_le _
  configured _ b := ⟨b.reservations, b.numbers, b.queues, b.sources, b.listed⟩
  articles _ b := ⟨b.reservations, b.numbers, b.queues, b.sources, b.listed⟩
  carriers _ b := ⟨b.reservations, b.numbers, b.queues, b.sources, b.listed⟩
  values lines b := by
    refine b.of_parts rfl (fun n => ?_) b.sources b.listed
    simp only [Store.channel, Store.powerUpValues, look, Vector.getElem?_ofFn]
    split <;> exact Nat.zero_le _
  putBack n b := b.of_parts rfl (fun _ => Nat.le_refl _) (putBack_sources b.sources) b.listed

theorem carries_facesSound : Carries Store.FacesSound where
  evolves h b := h.facesSound b
  less h b := h.facesSound b
  reset := by
    refine ⟨fun i _ => ?_, fun r hr => absurd hr List.not_mem_nil⟩
    rw [show Store.powerUp.face i = Face.powerUp by
      simp [Store.face, Store.powerUp, look, Vector.getElem?_replicate]; split <;> rfl]
    exact face_powerUp_sound
  configured _ b := ⟨b.faces, b.presented⟩
  articles _ b := ⟨b.faces, b.presented⟩
  carriers _ b := ⟨b.faces, b.presented⟩
  values _ b := ⟨b.faces, b.presented⟩
  putBack _ b := ⟨b.faces, b.presented⟩

section

variable {P : Store → Prop} (c : Carries P)

include c

theorem Carries.finish (h : P s.store) : P s.finish.store := c.less (finish_listsLess s) h

theorem Carries.jobEvent {f : Store → Store} (h : P s.store) (hf : Evolves s.store (f s.store)) :
    P (s.jobEvent f).store :=
  c.finish (s := s.onStore f) (c.evolves hf h)

theorem Carries.driveByte (n : Nat) (b : Byte) (h : P s.store) : P (driveByte n s b).store := by
  rcases driveByte_cases n s b with hd | hd
  · rw [hd]
    exact c.jobEvent h ((Store.driveByte_evolves n _ b).trans (Store.eventEnd_evolves _))
  · rw [hd]
    exact c.evolves (Store.putChannel_evolves _ n _ id) h

theorem Carries.listAll {x : Store} (h : P x) (rs : List ImageRecord) : P (x.listAll rs) :=
  c.evolves (Store.listAll_evolves x rs) h

theorem Carries.loadedStore (good : Bool) (h : P s.store) : P (s.loadedStore good) := by
  refine c.listAll (c.evolves ?_ (c.carriers (Vector.ofFn fun r : Fin 96 => s.loadedCarrier good r.val) h)) _
  exact ((Evolves.foldl _ Store.loadSuspect_evolves _ _).trans
    (Evolves.foldl _ Store.markWanted_evolves _ _)).trans (Store.promote_evolves _ _)

theorem Carries.returnNotice (h : P s.store) : P s.returnNotice.store := by
  unfold State.returnNotice
  split
  · exact c.putBack _ h
  · exact h
  · exact h

omit c in
theorem carriersLoaded_store (s : State) : s.carriersLoaded.store = s.carriersStore := by
  simp only [carriersLoaded]

theorem Carries.carriersStore (h : P s.store) : P s.carriersStore :=
  c.listAll (c.values _ (c.loadedStore _ h)) _

theorem Carries.begunWork (h : P s.store) : P s.begunWork.store := by
  unfold State.begunWork onStore setCondition
  dsimp only
  exact c.evolves (Store.startWork_evolves _ _ _) h

theorem Carries.reportWritten (v : Half) (h : P s.store) : P (s.reportWritten v).store := by
  unfold State.reportWritten
  dsimp only
  split
  · exact c.evolves (Store.noticeWritten_evolves _ _) h
  · exact h
  · exact h

theorem Carries.access (h : s.Accesses t) (hP : P s.store) : P t.store := by
  cases h with
  | untaken => exact hP
  | retry => exact hP
  | passed a =>
    obtain ⟨cs, hc⟩ := passRead_only s a
    exact c.finish (by rw [hc]; exact hP)
  | answered => exact c.finish hP
  | written => exact c.finish hP
  | consumed => exact c.finish hP
  | refused => exact c.finish (c.evolves (Store.raise_evolves _ _ _) hP)

/-- What is carried along holds of the store after every command. -/
theorem Carries.leads (h : s.Leads t) (hP : P s.store) : P t.store := by
  cases h with
  | still => exact hP
  | powerUp => exact c.reset
  | configuration =>
    obtain ⟨u, hu, cs, a, x, rfl, -⟩ := checkConfiguration_only s
    rw [hu]
    exact c.finish (c.configured _ hP)
  | articles =>
    rw [loadArticles_eq]
    refine c.finish ?_
    dsimp only
    apply c.listAll
    exact c.articles _ hP
  | carriers =>
    rw [loadCarriers_eq, claimStartWords_claims]
    refine c.finish ?_
    dsimp only
    rw [carriersLoaded_store]
    exact c.carriersStore hP
  | work => exact c.finish (c.begunWork hP)
  | linkReset =>
    rw [resetLink_eq, claimResetWords_claims]
    exact c.finish (c.evolves (Store.raise_evolves _ _ _) (c.returnNotice hP))
  | passOnlyReset => exact c.finish hP
  | access h => exact c.access h hP
  | readReturned => exact c.finish hP
  | freed => exact c.finish hP
  | grant => exact c.less (arbitrate_listsLess s) hP
  | postedWritten w ws b hp hw =>
    unfold State.postedWritten
    obtain ⟨cs, hc⟩ := claimRead_only _
    rw [hc]
    exact c.finish hP
  | carried => exact c.finish hP
  | entryTaken => exact c.less ((intakeTake_listsLess s).trans (arbitrate_listsLess _)) hP
  | begun => exact c.less ((reportBegin_listsLess s).trans (arbitrate_listsLess _)) hP
  | givenBack => exact c.finish hP
  | handedOver => exact c.finish hP
  | entryWritten => exact c.finish hP
  | reportWritten v => exact c.finish (c.reportWritten v hP)
  | request isKind f hf => exact c.finish (c.evolves (hf.evolves _ _) hP)
  | floor f hf => exact c.jobEvent hP (hf.evolves _)
  | drive n bs => exact driveBytes_induction (P := fun u => P u.store) (fun u b hu => c.driveByte n b hu) bs hP
  | gateLine => exact hP
  | gate n high f hf =>
    refine c.jobEvent hP ?_
    dsimp only
    split
    · exact (hf.evolves _ n).trans (Store.eventEnd_evolves _)
    · exact .refl _

end

end State

end Sys2Proof.Machine

end

section

open Sys2Proof Sys2Proof.Machine

/-- Settles O5: every row is a chain of primitive updates of the store, which keep the bounds and the faces, and posts a
write only where the buffer has room (R14, R30, R53, R54, R179, R187, R189). -/
theorem listBoundsKept : Obligations.ListBoundsKept := by
  unfold Obligations.ListBoundsKept
  intro s t hstep
  rcases step_leads hstep with rfl | ⟨cs, hleads⟩
  · exact ⟨id, id, id⟩
  · exact ⟨fun h => hleads.bufferSound h, fun h => State.carries_bounded.leads hleads h,
      fun h => State.carries_facesSound.leads hleads h⟩

end

/-! # The windows and the start-up load (R185, R193, R194) -/

section

namespace Sys2Proof.Machine

open Sys2Proof

namespace Store

/-- The job blocks as reset leaves them, but for what the load takes and the two lists (log 12). -/
def Untouched (x : Store) : Prop :=
  x = { State.reset.store with cfg := x.cfg, articles := x.articles, notices := x.notices, writeBack := x.writeBack }

section

variable {x y : Store}

/-- Two stores that differ in what the load takes and in the two lists alone. -/
def SameBlocks (x y : Store) : Prop :=
  y = { x with cfg := y.cfg, articles := y.articles, notices := y.notices, writeBack := y.writeBack }

theorem Untouched.of_same (h : x.Untouched) (k : x.SameBlocks y) : y.Untouched := by
  have hx : x = _ := h
  have hy : y = _ := k
  unfold Untouched
  rw [hy, hx]

theorem powerUp_panel (p : Nat) : powerUp.panel p = Panel.unfitted := by
  simp only [panel, powerUp, look, Vector.getElem?_replicate]
  split <;> rfl

theorem powerUp_batch (b : Nat) : powerUp.batch b = .free := by
  simp only [batch, powerUp, look, Vector.getElem?_replicate]
  split <;> rfl

theorem powerUp_audit (a : Nat) : powerUp.audit a = .free := by
  simp only [audit, powerUp, look, Vector.getElem?_replicate]
  split <;> rfl

theorem powerUp_face (i : Nat) : powerUp.face i = Face.powerUp := by
  simp only [face, powerUp, look, Vector.getElem?_replicate]
  split <;> rfl

theorem powerUp_channel (n : Nat) : powerUp.channel n = Channel.powerUp := by
  simp only [channel, powerUp, look, Vector.getElem?_replicate]
  split <;> rfl

theorem powerUp_order (k : Nat) : powerUp.order k = none := by
  simp only [order, powerUp, look, Vector.getElem?_replicate]
  split <;> rfl

theorem powerUp_lane (l : Nat) : powerUp.lane l = Lane.powerUp 0 := by
  simp only [lane, powerUp, look, Vector.getElem?_replicate]
  split <;> rfl

theorem Untouched.panel (h : x.Untouched) (p : Nat) : x.panel p = Panel.unfitted := by
  have hx : x = _ := h
  rw [hx]
  exact powerUp_panel p

theorem Untouched.batch (h : x.Untouched) (b : Nat) : x.batch b = .free := by
  have hx : x = _ := h
  rw [hx]
  exact powerUp_batch b

theorem Untouched.audit (h : x.Untouched) (a : Nat) : x.audit a = .free := by
  have hx : x = _ := h
  rw [hx]
  exact powerUp_audit a

theorem Untouched.attended (h : x.Untouched) : x.Attended where
  pass := by
    have hx : x = _ := h
    rw [hx]
    rfl
  displays p _ hl := absurd hl (by rw [h.panel]; decide)

/-- Before the carrier image has been loaded a written notice tells no source of anything. -/
theorem Untouched.noticeWritten (h : x.Untouched) (n : Notice) : x.noticeWritten n = x := by
  unfold Store.noticeWritten batchNoticeWritten auditNoticeWritten
  split
  · split
    · rw [h.batch]
    · rfl
  · split
    · rw [h.audit]
      exact eventEnd_still h.attended
    · rfl
  all_goals rfl

end

end Store

namespace State

variable {s t : State}

/-! ## The windows (R185) -/

/-- Whether a condition is one in which the part's windows have been checked (R193). -/
def Condition.checked : Condition → Bool
  | .loading .configuration => false
  | .loading .articles => true
  | .loading .carriers => true
  | .loading .writeBack => true
  | .passOnly => false
  | .working => true

theorem windowsSound_iff (s : State) :
    s.WindowsSound ↔ (Condition.checked s.path.condition = true → windowsSound s.store.cfg = true) := by
  unfold WindowsSound
  split <;> simp_all [Condition.checked]

theorem WindowsSound.of_eq (w : s.WindowsSound) (hc : t.path.condition = s.path.condition)
    (hs : t.store.cfg = s.store.cfg) : t.WindowsSound := by
  rw [windowsSound_iff] at w ⊢
  rw [hc, hs]
  exact w

theorem WindowsSound.settles (w : s.WindowsSound) (h : s.Settles t) : t.WindowsSound :=
  w.of_eq h.condition (congrArg Store.cfg h.store :)

theorem WindowsSound.finish (w : s.WindowsSound) : s.finish.WindowsSound := w.settles (finish_settles s)

theorem WindowsSound.jobEvent (w : s.WindowsSound) {f : Store → Store} (hf : Evolves s.store (f s.store)) :
    (s.jobEvent f).WindowsSound :=
  WindowsSound.finish (s := s.onStore f) (w.of_eq rfl hf.cfg)

theorem WindowsSound.driveByte (w : s.WindowsSound) (n : Nat) (b : Byte) : (driveByte n s b).WindowsSound := by
  rcases driveByte_cases n s b with h | h
  · rw [h]
    exact w.jobEvent ((Store.driveByte_evolves n _ b).trans (Store.eventEnd_evolves _))
  · rw [h]
    exact w.of_eq rfl rfl

theorem Accesses.windowsSound (h : s.Accesses t) (w : s.WindowsSound) : t.WindowsSound := by
  cases h with
  | untaken => exact w
  | retry => exact w
  | passed a =>
    obtain ⟨c, hc⟩ := passRead_only s a
    rw [hc]
    exact WindowsSound.finish (w.of_eq rfl rfl)
  | answered => exact WindowsSound.finish (w.of_eq rfl rfl)
  | written => exact WindowsSound.finish (w.of_eq rfl rfl)
  | consumed => exact WindowsSound.finish (w.of_eq rfl rfl)
  | refused => exact WindowsSound.finish (w.of_eq rfl rfl)

/-- A stage of the load after the first goes on with the windows that it has checked. -/
theorem WindowsSound.of_checked (w : s.WindowsSound) (h : Condition.checked s.path.condition = true)
    (hs : t.store.cfg = s.store.cfg) : t.WindowsSound := by
  rw [windowsSound_iff] at w ⊢
  exact fun _ => hs ▸ w h

theorem windowsSound_of_configurationSound {ws : List Word} (h : configurationSound ws = true) :
    windowsSound (configurationOf ws) = true := by
  unfold configurationSound at h
  simp only [Bool.and_eq_true] at h
  obtain ⟨⟨⟨⟨⟨⟨⟨⟨⟨⟨⟨⟨⟨⟨-, hw⟩, -⟩, -⟩, -⟩, -⟩, -⟩, -⟩, -⟩, -⟩, -⟩, -⟩, -⟩, -⟩, -⟩ := h
  exact hw

theorem loadedStore_cfg (s : State) (good : Bool) : (s.loadedStore good).cfg = s.store.cfg := by
  unfold loadedStore
  rw [(Store.listAll_evolves _ _).cfg, (Store.promote_evolves _ _).cfg,
    (Evolves.foldl Store.giveWanted Store.markWanted_evolves _ _).cfg, (Evolves.foldl _ Store.loadSuspect_evolves _ _).cfg]

theorem powerUpValues_cfg (x : Store) (lines : Vector Bool 4) : (x.powerUpValues lines).cfg = x.cfg := rfl

theorem carriersStore_cfg (s : State) : s.carriersStore.cfg = s.store.cfg := by
  unfold carriersStore
  rw [(Store.listAll_evolves _ _).cfg, powerUpValues_cfg, loadedStore_cfg]

theorem begunWork_cfg (s : State) : s.begunWork.store.cfg = s.store.cfg := by
  unfold State.begunWork onStore setCondition
  dsimp only
  exact (Store.startWork_evolves _ _ _).cfg

theorem returnNotice_cfg (s : State) : s.returnNotice.store.cfg = s.store.cfg := by
  obtain ⟨ns, r, hr⟩ := returnNotice_only s
  rw [hr]

theorem returnNotice_condition (s : State) : s.returnNotice.path.condition = s.path.condition := by
  obtain ⟨ns, r, hr⟩ := returnNotice_only s
  rw [hr]

theorem Leads.windowsSound (h : s.Leads t) (w : s.WindowsSound) : t.WindowsSound := by
  cases h with
  | still => exact w
  | powerUp => trivial
  | configuration =>
    obtain ⟨u, hu, c, a, x, rfl, hcases⟩ := checkConfiguration_only s
    rw [hu]
    refine WindowsSound.finish ?_
    rcases hcases with ⟨rfl, -, hsound, -⟩ | ⟨rfl, -⟩
    · exact windowsSound_of_configurationSound hsound
    · trivial
  | articles h =>
    rw [loadArticles_eq]
    refine WindowsSound.finish (w.of_checked (by rw [(not_working_of_loadingStage h).1]; rfl) ?_)
    dsimp only
    exact (Store.listAll_evolves _ _).cfg
  | carriers h =>
    rw [loadCarriers_eq, claimStartWords_claims]
    refine WindowsSound.finish (w.of_checked (by rw [(not_working_of_loadingStage h).1]; rfl) ?_)
    dsimp only
    rw [carriersLoaded_store, carriersStore_cfg]
  | work h =>
    have hcond : s.path.condition = .loading .writeBack := by
      simp only [loadDone, Bool.and_eq_true, beq_iff_eq] at h
      exact h.1.1.1
    exact WindowsSound.finish (w.of_checked (by rw [hcond]; rfl) (begunWork_cfg s))
  | linkReset =>
    rw [resetLink_eq, claimResetWords_claims]
    exact WindowsSound.finish (w.of_eq (returnNotice_condition s) (returnNotice_cfg s))
  | passOnlyReset => exact WindowsSound.finish (w.of_eq rfl rfl)
  | access h => exact h.windowsSound w
  | readReturned => exact WindowsSound.finish (w.of_eq rfl rfl)
  | freed => exact WindowsSound.finish (w.of_eq rfl rfl)
  | grant => exact w.settles (Settles.arbitrate s)
  | postedWritten =>
    unfold State.postedWritten
    obtain ⟨c, hc⟩ := claimRead_only _
    rw [hc]
    exact WindowsSound.finish (w.of_eq rfl rfl)
  | carried => exact WindowsSound.finish (w.of_eq rfl rfl)
  | entryTaken => exact w.settles ((Settles.intakeTake s).trans (Settles.arbitrate _))
  | begun => exact w.settles ((Settles.reportBegin s).trans (Settles.arbitrate _))
  | givenBack => exact WindowsSound.finish (w.of_eq rfl rfl)
  | handedOver => exact WindowsSound.finish (w.of_eq rfl rfl)
  | entryWritten => exact WindowsSound.finish (w.of_eq rfl rfl)
  | reportWritten v =>
    unfold State.reportWritten
    dsimp only
    split
    · exact WindowsSound.finish (w.of_eq rfl (Store.noticeWritten_evolves _ _).cfg)
    · exact WindowsSound.finish (w.of_eq rfl rfl)
    · exact WindowsSound.finish (w.of_eq rfl rfl)
  | request isKind f hf => exact WindowsSound.finish (w.of_eq rfl (hf.evolves _ _).cfg)
  | floor f hf => exact w.jobEvent (hf.evolves _)
  | drive n bs => exact driveBytes_induction (P := WindowsSound) (fun u b hu => hu.driveByte n b) bs w
  | gateLine => exact w.of_eq rfl rfl
  | gate n high f hf =>
    refine WindowsSound.jobEvent (s := { s with gateLines := put s.gateLines n high }) (w.of_eq rfl rfl) ?_
    dsimp only
    split
    · exact (hf.evolves _ n).trans (Store.eventEnd_evolves _)
    · exact .refl _

/-! ## The start-up load (log 12) -/

theorem LoadSound.of_notLoading (h : ∀ st, s.path.condition ≠ .loading st) : s.LoadSound where
  intake st hc := absurd hc (h st)
  blank st hc := absurd hc (h st)

theorem LoadSound.of_working (h : s.path.condition = .working) : s.LoadSound :=
  .of_notLoading fun st => by simp [h]

/-- The load goes on: no entry is newly owed, and the blocks stand until the last stage. -/
theorem LoadSound.goesOn (l : s.LoadSound)
    (hc : ∀ st, t.path.condition = .loading st → ∃ st', s.path.condition = .loading st' ∧
      (st ≠ .writeBack → st' ≠ .writeBack ∧ s.store.SameBlocks t.store))
    (ho : ∀ e, t.owed (.entryRead e) → s.owed (.entryRead e)) : t.LoadSound where
  intake st h e he := by
    obtain ⟨st', hst, -⟩ := hc st h
    exact l.intake st' hst e (ho e he)
  blank st h hne := by
    obtain ⟨st', hst, hrest⟩ := hc st h
    obtain ⟨hne', hsame⟩ := hrest hne
    exact Store.Untouched.of_same (l.blank st' hst hne') hsame

/-- The condition stays, and so do the blocks. -/
theorem LoadSound.of_parts (l : s.LoadSound) (hc : t.path.condition = s.path.condition)
    (hs : s.store.SameBlocks t.store) (ho : ∀ e, t.owed (.entryRead e) → s.owed (.entryRead e)) : t.LoadSound :=
  l.goesOn (fun st h => ⟨st, hc ▸ h, fun hne => ⟨hne, hs⟩⟩) ho

/-- The condition and the store stay, and the claims and the port owe no new entry. -/
theorem LoadSound.of_eq (l : s.LoadSound) (hc : t.path.condition = s.path.condition) (hs : t.store = s.store)
    (ho : ∀ e, t.owed (.entryRead e) → s.owed (.entryRead e)) : t.LoadSound :=
  l.of_parts hc (by unfold Store.SameBlocks; rw [hs]) ho

theorem owed_of_eq {x : Transfer} (hc : t.path.claims = s.path.claims) (hp : t.path.port = s.path.port)
    (h : t.owed x) : s.owed x := by
  unfold owed at h ⊢
  rwa [hc, hp] at h

theorem owed_of_claim {x y : Transfer} (hne : x ≠ y) (h : (s.claim y).owed x) : s.owed x := by
  unfold State.claim at h
  unfold owed at h ⊢
  simpa [hne] using h

/-- With the port free only the claims owe. -/
theorem owed_of_port_none {x : Transfer} (hc : ∀ y ∈ t.path.claims, y = x → x ∈ s.path.claims)
    (hp : t.path.port = none) (h : t.owed x) : s.owed x := by
  rcases h with h | h
  · exact .inl (hc x h rfl)
  · rw [hp] at h
    cases h

theorem arbitrate_owed {x : Transfer} (hne : x ≠ .postedWrite ∧ ∀ r ws, x ≠ .burst r ws) (h : s.arbitrate.owed x) :
    s.owed x := by
  unfold State.arbitrate at h
  split at h
  · exact h
  · split at h
    · rcases h with h | h
      · exact .inl h
      · simp only [grantTo, Option.some.injEq, Grant.mk.injEq] at h
        exact absurd h.1.symm hne.1
    · split at h
      · next y hy =>
        rcases h with h | h
        · exact .inl (List.mem_of_mem_erase h)
        · simp only [grantTo, Option.some.injEq, Grant.mk.injEq] at h
          exact .inl (h.1 ▸ bestClaim_mem hy)
      · split at h
        · exact h
        · split at h
          · exact h
          · rcases h with h | h
            · exact .inl h
            · simp only [grantBurst, grantTo, Option.some.injEq, Grant.mk.injEq] at h
              exact absurd h.1.symm (hne.2 _ _)

theorem LoadSound.arbitrate (l : s.LoadSound) : s.arbitrate.LoadSound := by
  refine l.of_parts (Settles.arbitrate s).condition ?_ fun e => arbitrate_owed ⟨nofun, nofun⟩
  have h := (Settles.arbitrate s).store
  unfold Store.SameBlocks
  rw [h]

theorem LoadSound.finish (l : s.LoadSound) : s.finish.LoadSound := by
  unfold State.finish
  split
  · next h =>
    refine .of_working ?_
    rw [(((Settles.intakeTake s).trans (Settles.reportBegin _)).trans (Settles.arbitrate _)).condition]
    exact working_iff.1 h
  · exact l.arbitrate

theorem LoadSound.jobEvent_of_working (h : s.path.condition = .working) (f : Store → Store) :
    (s.jobEvent f).LoadSound :=
  LoadSound.finish (s := s.onStore f) (.of_working h)

theorem driveByte_condition (n : Nat) (s : State) (b : Byte) :
    (driveByte n s b).path.condition = s.path.condition := by
  rcases driveByte_cases n s b with h | h
  · rw [h]
    exact (finish_settles (s.onStore _)).condition
  · rw [h]

theorem Accesses.loadSound (h : s.Accesses t) (l : s.LoadSound) : t.LoadSound := by
  cases h with
  | untaken => exact l
  | retry => exact l.of_eq rfl rfl fun e h => owed_of_eq rfl rfl h
  | passed a =>
    unfold passRead
    dsimp only
    split
    · exact LoadSound.finish (l.of_eq rfl rfl fun e h => owed_of_eq rfl rfl (owed_of_claim (by simp) h))
    · exact LoadSound.finish (l.of_eq rfl rfl fun e h => owed_of_eq rfl rfl h)
  | answered => exact LoadSound.finish (l.of_eq rfl rfl fun e h => owed_of_eq rfl rfl h)
  | written => exact LoadSound.finish (l.of_eq rfl rfl fun e h => owed_of_eq rfl rfl h)
  | consumed => exact LoadSound.finish (l.of_eq rfl rfl fun e h => owed_of_eq rfl rfl h)
  | refused a h => exact LoadSound.finish (.of_working h)

/-- A transfer has left the port, and no entry is newly claimed. -/
theorem LoadSound.freed (l : s.LoadSound) (hc : t.path.condition = s.path.condition)
    (hs : s.store.SameBlocks t.store) (hp : t.path.port = none)
    (hclaims : ∀ e, .entryRead e ∈ t.path.claims → .entryRead e ∈ s.path.claims) : t.LoadSound :=
  l.of_parts hc hs fun e h => owed_of_port_none (fun _ hy h => hclaims e (h ▸ hy)) hp h

theorem sameBlocks_refl (x : Store) : x.SameBlocks x := rfl

theorem mem_resetWords {c : Configuration} {e : Nat} : .entryRead e ∉ resetWords c := by simp [resetWords]

theorem mem_startWords {e : Nat} : .entryRead e ∉ s.startWords := by
  unfold startWords resetWords
  split <;> split <;> simp

/-- A link reset leaves no entry owed. -/
theorem resetLink_owes_no_entry (e : Nat) : ¬ s.resetLink.owed (.entryRead e) := by
  rw [resetLink_eq, claimResetWords_claims]
  rintro (h | h)
  · rcases List.mem_append.1 h with h | h
    · exact absurd (List.mem_filter.1 h).2 (by simp [resetDrops])
    · exact mem_resetWords h
  · simp only [linkCleared, dropTransfers, onStore, Option.map_eq_some_iff] at h
    obtain ⟨g, -, hg⟩ := h
    split at hg
    · exact absurd hg (by simp [Grant.mk.injEq])
    · next hd => exact hd (by rw [hg]; rfl)

theorem resetLink_sameBlocks (s : State) : s.store.SameBlocks s.resetLink.store := by
  obtain ⟨ns, r, hr⟩ := returnNotice_only s
  rw [resetLink_eq, claimResetWords_claims]
  show s.store.SameBlocks (s.returnNotice.store.raise .device Flag.deviceLinkReset)
  rw [hr]
  rfl

theorem resetLink_condition (s : State) : s.resetLink.path.condition = s.path.condition := by
  rw [resetLink_eq, claimResetWords_claims]
  exact returnNotice_condition s

theorem reset_loadSound (ls : Vector Bool 4) (m : List Host.Cell) (q : List Instr) :
    ({ State.reset with pending := q, mem := m, gateLines := ls } : State).LoadSound where
  intake st _ e h := by
    rcases h with h | h
    · exact List.not_mem_nil h
    · simp [reset, PathUnit.powerUp] at h
  blank _ _ _ := rfl

theorem listAll_writeBack_only (x : Store) (rs : List ImageRecord) :
    ∃ ws, x.listAll rs = { x with writeBack := ws } := by
  induction rs generalizing x with
  | nil => exact ⟨_, rfl⟩
  | cons r rs ih =>
    obtain ⟨ws, hws⟩ := Store.list_writeBack_only x r
    obtain ⟨vs, hvs⟩ := ih (x.list r)
    exact ⟨vs, hvs.trans (by rw [hws])⟩

theorem Leads.loadSound (h : s.Leads t) (l : s.LoadSound) : t.LoadSound := by
  cases h with
  | still => exact l
  | powerUp => exact reset_loadSound _ _ _
  | configuration h =>
    obtain ⟨hcond, -⟩ := not_working_of_loadingStage h
    obtain ⟨u, hu, c, a, x, rfl, hcases⟩ := checkConfiguration_only s
    rw [hu]
    refine LoadSound.finish ?_
    rcases hcases with ⟨rfl, rfl, -⟩ | ⟨rfl, rfl, -⟩
    · refine l.goesOn (fun st _ => ⟨_, hcond, fun _ => ⟨nofun, rfl⟩⟩) fun e => owed_of_port_none ?_ rfl
      rintro y hy rfl
      simpa using hy
    · exact .of_notLoading nofun
  | articles h =>
    obtain ⟨hcond, -⟩ := not_working_of_loadingStage h
    rw [loadArticles_eq]
    refine LoadSound.finish (l.goesOn (fun st _ => ⟨_, hcond, fun _ => ⟨nofun, ?_⟩⟩) fun e => owed_of_port_none ?_ rfl)
    · dsimp only
      rw [(listAll_writeBack_only _ _).choose_spec]
      rfl
    · rintro y hy rfl
      simpa using hy
  | carriers h =>
    obtain ⟨hcond, -⟩ := not_working_of_loadingStage h
    rw [loadCarriers_eq, claimStartWords_claims]
    refine LoadSound.finish (l.goesOn (fun st hst => ⟨_, hcond, fun hne => absurd ?_ hne⟩)
      fun e => owed_of_port_none ?_ rfl)
    · exact (Condition.loading.inj hst).symm
    · rintro y hy rfl
      rcases List.mem_append.1 hy with hy | hy
      · exact hy
      · exact absurd hy mem_startWords
  | work h => exact LoadSound.finish (.of_working rfl)
  | linkReset =>
    exact LoadSound.finish (l.of_parts (resetLink_condition s) (resetLink_sameBlocks s)
      fun e h => absurd h (resetLink_owes_no_entry e))
  | passOnlyReset h => exact LoadSound.finish (.of_notLoading fun st hst => nomatch h.symm.trans hst)
  | access h => exact h.loadSound l
  | readReturned => exact LoadSound.finish (l.freed rfl (sameBlocks_refl _) rfl fun _ h => h)
  | freed => exact LoadSound.finish (l.freed rfl (sameBlocks_refl _) rfl fun _ h => h)
  | grant => exact l.arbitrate
  | postedWritten w ws b hp hw =>
    unfold State.postedWritten claimRead
    split
    · split
      · refine LoadSound.finish (l.freed rfl (sameBlocks_refl _) rfl fun e h => ?_)
        simpa [claim] using h
      · exact LoadSound.finish (l.freed rfl (sameBlocks_refl _) rfl fun _ h => h)
    · exact LoadSound.finish (l.freed rfl (sameBlocks_refl _) rfl fun _ h => h)
  | carried => exact LoadSound.finish (l.freed rfl (sameBlocks_refl _) rfl fun _ h => h)
  | entryTaken h => exact .of_working (((Settles.intakeTake s).trans (Settles.arbitrate _)).condition.trans h)
  | begun h => exact .of_working (((Settles.reportBegin s).trans (Settles.arbitrate _)).condition.trans h)
  | givenBack =>
    refine LoadSound.finish (l.freed rfl (sameBlocks_refl _) rfl fun e h => ?_)
    simpa [indexRaised, claim, State.carried, writeMem, freePort] using h
  | handedOver => exact LoadSound.finish (l.freed rfl (sameBlocks_refl _) rfl fun _ h => h)
  | entryWritten =>
    refine LoadSound.finish (l.freed rfl (sameBlocks_refl _) rfl fun e h => ?_)
    simpa [claim, State.carried, writeMem, freePort] using h
  | reportWritten v hp =>
    obtain ⟨st, hst⟩ := reportWritten_only (s.carried (s.controlAddress Config.offProduce) [wordOfHalves v.toNat 0]) v
    refine LoadSound.finish (l.goesOn (fun stage hstage => ?_) fun e => ?_)
    · rw [hst] at hstage
      refine ⟨stage, hstage, fun hne => ⟨hne, ?_⟩⟩
      have huntouched : s.store.Untouched := l.blank stage hstage hne
      unfold State.reportWritten
      dsimp only
      split
      · show s.store.SameBlocks (s.store.noticeWritten _)
        rw [huntouched.noticeWritten]
        rfl
      · rfl
      · rfl
    · rw [hst]
      exact owed_of_port_none (fun y hy h => h ▸ hy) rfl
  | request isKind f hf e hp =>
    refine LoadSound.finish (.of_notLoading fun st hst => ?_)
    exact l.intake st hst e (.inr hp)
  | floor f hf h => exact .jobEvent_of_working h f
  | drive n bs h =>
    refine .of_working ?_
    exact driveBytes_induction (P := fun u => u.path.condition = .working)
      (fun u b hu => (driveByte_condition n u b).trans hu) bs h
  | gateLine => exact l.of_eq rfl rfl fun e h => owed_of_eq rfl rfl h
  | gate n high f hf h =>
    exact LoadSound.jobEvent_of_working (s := { s with gateLines := put s.gateLines n high }) h _

end State

end Sys2Proof.Machine

end

section

open Sys2Proof Sys2Proof.Machine

/-- Settles O6: a block that passes its checks has sound windows, no later row changes the configuration, and while it
loads the part neither reads an entry nor changes a record before the carrier image is loaded (R185, R193, log 12). -/
theorem windowsKept : Obligations.WindowsKept := by
  unfold Obligations.WindowsKept
  intro s t hstep
  rcases step_leads hstep with rfl | ⟨cs, hleads⟩
  · exact ⟨id, id⟩
  · refine ⟨fun h => hleads.windowsSound h, fun h => hleads.loadSound ?_⟩
    exact h.of_eq rfl rfl fun e he => State.owed_of_eq rfl rfl he

/-- Settles O8: of the lists nothing is listed, and every record is at its power-up value. -/
theorem resetMeetsTheInvariants : Obligations.ResetMeetsTheInvariants := by
  unfold Obligations.ResetMeetsTheInvariants
  have huntouched : Store.powerUp.Untouched := rfl
  refine ⟨rfl, .of_quiet (by decide) rfl rfl, .of_notWorking nofun, Nat.zero_le _, State.carries_bounded.reset,
    State.carries_facesSound.reset, trivial, State.reset_loadSound _ _ _, huntouched.attended, fun p _ _ => ?_⟩
  exact congrArg Panel.holder (Store.powerUp_panel p)

/-- Settles O9: the values of the reset state, table by table (R187, R188, R189, R191, R193). -/
theorem resetValues : Obligations.ResetValues := by
  unfold Obligations.ResetValues
  refine ⟨rfl, rfl, rfl, rfl, fun e he => ?_, fun i hi => ?_, rfl, rfl, rfl, rfl, rfl, rfl, rfl,
    Store.powerUp_order, Store.powerUp_batch, Store.powerUp_audit, fun n _ => ?_, fun i _ => ?_, fun l _ => ?_⟩
  · simp [State.reset, PathUnit.powerUp, look, he]
  · simp [State.reset, PathUnit.powerUp, look, hi]
  · exact ⟨congrArg Channel.state (Store.powerUp_channel n), congrArg Channel.queue (Store.powerUp_channel n)⟩
  · exact congrArg Face.state (Store.powerUp_face i)
  · exact congrArg Lane.state (Store.powerUp_lane l)

end

/-! # Upstream accesses -/

section

namespace Sys2Proof.Machine

open Sys2Proof

theorem toNat_append_bytes (x y : BitVec 8) : (x ++ y).toNat = 256 * x.toNat + y.toNat := by
  rw [BitVec.toNat_append, Nat.shiftLeft_eq, show x.toNat * 2 ^ 8 = 2 ^ 8 * x.toNat from Nat.mul_comm _ _,
    ← Nat.two_pow_add_eq_or_of_lt y.isLt]

/-- The low half of a word made of bytes. -/
theorem lowHalf_wordOfBytes (b0 b1 b2 b3 : Nat) : lowHalf (wordOfBytes b0 b1 b2 b3) = b0 % 256 + 256 * (b1 % 256) := by
  simp only [lowHalf, wordOfBytes, BitVec.toNat_ofNat]
  omega

namespace State

/-- The consume index word takes the enabled bytes from the write and the rest from the index (R177). -/
theorem consumeValue_bytes (s : State) (en : Enables) (d : Word) :
    s.consumeValue en d =
      (if en.getLsbD 1 then d.extractLsb' 8 8 else s.report.consume.extractLsb' 8 8) ++
        (if en.getLsbD 0 then d.extractLsb' 0 8 else s.report.consume.extractLsb' 0 8) := by
  apply BitVec.eq_of_toNat_eq
  have hc := s.report.consume.isLt
  rw [toNat_append_bytes, consumeValue, mergeBytes, lowHalf_wordOfBytes, BitVec.toNat_ofNat]
  dsimp only
  split <;> split <;> simp only [byteNat, BitVec.toNat_setWidth, BitVec.extractLsb'_toNat, Nat.shiftRight_eq_div_pow] <;>
    omega

/-- A selected byte is an enabled byte. -/
theorem enables_ne_zero {en : Enables} {i : Nat} (h : en.getLsbD i = true) : en ≠ 0 := by
  rintro rfl
  simp at h

/-! ## Where an access goes -/

theorem retry_treated (s : State) : (s.endAccess .retry).treated = s.endAccess .retry := treated_retry rfl

theorem Decodes.readAt {s : State} (h : s.Decodes) (a : Nat) : s.upstreamReadAt a = (s.decodeRead a).treated :=
  readAt_working a h.free h.working

theorem Decodes.writeAt {s : State} (h : s.Decodes) (a : Nat) {en : Enables} (d : Word) (he : en ≠ 0) :
    s.upstreamWriteAt a en d = (s.decodeWrite a en d).treated :=
  writeAt_working a d h.free h.working he

/-- A word of the control window is decoded to its row (R190). -/
theorem Decodes.controlWord {s : State} (h : s.Decodes) {o : Nat} (ho : o < 256) {en : Enables} (d : Word)
    (he : en ≠ 0) : s.upstreamWriteAt (s.controlAddress o) en d = (s.writeControl (s.controlAddress o) en d).treated := by
  rw [h.writeAt _ _ he]
  exact congrArg treated (decodeWrite_control en d h.windows (covers_base s.store.cfg .control ho))

theorem writeControl_consume (s : State) (en : Enables) (d : Word) :
    s.writeControl (s.controlAddress Config.offConsume) en d =
      s.writeConsume (s.controlAddress Config.offConsume) en d := by
  simp [writeControl, controlAddress, Config.offConsume]

theorem writeControl_attention (s : State) (en : Enables) (d : Word) :
    s.writeControl (s.controlAddress Config.offAttention) en d =
      s.writeAttention (s.controlAddress Config.offAttention) en d := by
  simp [writeControl, controlAddress, Config.offConsume, Config.offAttention]

theorem writeControl_probeSelect (s : State) (en : Enables) (d : Word) :
    s.writeControl (s.controlAddress Config.offProbeSelect) en d =
      s.writeProbe (s.controlAddress Config.offProbeSelect) en d := by
  simp [writeControl, controlAddress, Config.offConsume, Config.offAttention, Config.offProbeSelect]

/-- The address of an entry of the ring lies in the REQUEST window. -/
theorem covers_entryAddress (s : State) (e : Fin 32) : s.store.cfg.covers .request (s.entryAddress e.val) = true :=
  covers_base _ _ (by have := e.isLt; show 64 * e.val < 2048; omega)

theorem writeRequest_entry (s : State) (e : Nat) (en : Enables) (d : Word) :
    s.writeRequest (s.entryAddress e) en d =
      if s.entryInHand = some e then s.endAccess .retry
      else s.postWith (s.entryAddress e) en d fun s' => if en.getLsbD 0 then s'.setMark e (d.getLsbD 0) else s' := by
  simp [writeRequest, entryAddress]

/-- With a full buffer a write to be passed has no effect, whatever its acceptance would have done. -/
theorem writeRequest_full {s : State} (a : Nat) (en : Enables) (d : Word)
    (h : Config.postedCapacity ≤ s.path.posted.length) : s.writeRequest a en d = s.endAccess .retry := by
  simp only [writeRequest, postWith_full _ _ _ _ h, ite_self]

/-- A write that ends RETRY has no effect. -/
theorem writeAt_retry {s : State} (h : s.Decodes) {a : Nat} {en : Enables} {d : Word} (he : en ≠ 0)
    (hr : s.decodeWrite a en d = s.endAccess .retry) : s.upstreamWriteAt a en d = s.endAccess .retry := by
  rw [h.writeAt _ _ he, hr, retry_treated]

theorem controlWord_retry {s : State} (h : s.Decodes) {o : Nat} (ho : o < 256) {en : Enables} {d : Word} (he : en ≠ 0)
    (hr : s.writeControl (s.controlAddress o) en d = s.endAccess .retry) :
    s.upstreamWriteAt (s.controlAddress o) en d = s.endAccess .retry := by
  rw [h.controlWord ho _ he, hr, retry_treated]

/-! ## What an accepted write leaves -/

/-- A command that changes the Path Unit, the Intake and the Report Writer alone, and what follows it. -/
theorem onlyPath_treated {s u : State} (hm : u.mem = s.mem) (hg : u.gateLines = s.gateLines) (hs : u.store = s.store) :
    s.OnlyPath u.finish :=
  onlyPath_finish hm hg (by rw [SameJobs, hs])

/-- What an accepted write shows after what follows. -/
theorem post_treated {s : State} {a : Nat} {en : Enables} {d : Word} {watch : State → State}
    (hr : s.path.posted.length < 8) (he : (watch (s.post a en d)).path.ending = some .done) :
    (s.postWith a en d watch).treated = (watch (s.post a en d)).finish := by
  rw [postWith_room _ _ _ _ hr, treated_done (by rw [he]; decide)]

/-- The attention line after what follows an event (R182). -/
theorem Settles.attentionLine_iff {s t : State} (h : s.Settles t) :
    t.attentionLine = true ↔ s.report.produce ≠ s.report.consume ∧ t.path.attention = true := by
  rw [attentionLine, h.produce, h.consume, Bool.and_eq_true, bne_iff_ne]

/-- A refused write is counted and told, and leaves the link and the records (R181, R186). -/
theorem refuseWrite_finish (s : State) (a : Nat) :
    let t := (s.refuseWrite a).finish
    t.path.ending = some .done ∧ t.path.posted = s.path.posted ∧ t.told .path Flag.pathWriteRefused ∧
      (t.path.refusals = countRefusal s.path.refusals a ∨
        (t.path.refusals = ⟨none, 0⟩ ∧ ∃ n, n.source = .path ∧
          t.report.writing = some (.notice n (countRefusal s.path.refusals a)))) ∧
      t.path.marks = s.path.marks ∧ t.report.consume = s.report.consume ∧ s.OnlyPath t := by
  have hset := finish_settles (s.refuseWrite a)
  exact ⟨hset.ending, hset.posted, told_finish rfl, finish_refusals _, hset.marks, hset.consume,
    onlyPath_finish rfl rfl rfl⟩

/-- A write to what the part alone writes is refused (R185, R186, R190). -/
theorem decodeWrite_refused {s : State} (h : s.Decodes) {a : Nat} (en : Enables) (d : Word)
    (hw : s.store.cfg.covers .report a = true ∨ (recordAt s.store.cfg a).isSome = true ∨
      (s.store.cfg.covers .control a = true ∧ 12 ≤ a - s.base .control)) :
    s.decodeWrite a en d = s.refuseWrite a := by
  rcases hw with hw | hw | ⟨hw, ho⟩
  · exact decodeWrite_report en d h.windows hw
  · exact decodeWrite_image en d h.windows hw
  · rw [decodeWrite_control en d h.windows hw, writeControl_refused en d ho]

/-- A write to a request entry that leaves out the OWNER byte is posted alone (R171). -/
theorem writeRequest_plain {s : State} {a : Nat} {en : Enables} {d : Word}
    (ho : (a - s.base .request) % 64 ≠ 0 ∨ en.getLsbD 0 = false)
    (hh : s.entryInHand ≠ some ((a - s.base .request) / 64)) : s.writeRequest a en d = s.postWith a en d id := by
  have hcond : ((a - s.base .request) % 64 = 0 && en.getLsbD 0) = false := by
    rcases ho with ho | ho
    · simp [ho]
    · rw [ho, Bool.and_false]
  simp only [writeRequest, hh, if_false, hcond, Bool.false_eq_true]
  rfl

/-- A write with no byte selected ends DONE in a working part and in PASS-ONLY (log 22). -/
theorem writeAt_none {s : State} (a : Nat) (d : Word) (hf : s.path.inFlight = none)
    (h : s.path.condition = .working ∨ s.path.condition = .passOnly) :
    s.upstreamWriteAt a 0 d = (s.endAccess .done).finish := by
  rcases h with h | h
  · exact writeAt_empty a d hf h
  · simp [upstreamWriteAt, portalFree, hf, h, treated, endAccess]

/-- The writes that are posted with no further effect, and the one access that ends so (R171, R185, R187). -/
theorem writeAt_posts {s : State} {a : Nat} {en : Enables} {d : Word} (hf : s.path.inFlight = none) (he : en ≠ 0)
    (h : s.path.condition = .passOnly ∨
      (s.path.condition = .working ∧ ∀ w, s.store.cfg.covers w a = false) ∨
      (s.path.condition = .working ∧ s.store.cfg.covers .request a = true ∧
        ((a - s.base .request) % 64 ≠ 0 ∨ en.getLsbD 0 = false) ∧
        s.entryInHand ≠ some ((a - s.base .request) / 64))) :
    s.upstreamWriteAt a en d = (s.postWith a en d id).treated := by
  rcases h with h | ⟨h, hw⟩ | ⟨h, hw, ho, hh⟩
  · exact writeAt_passOnly a d hf h he
  · rw [writeAt_working a d hf h he, decodeWrite_outside en d hw]
  · rw [writeAt_working a d hf h he, decodeWrite_request en d hw, writeRequest_plain ho hh]

end State

end Sys2Proof.Machine

end

section

open Sys2Proof Sys2Proof.Machine Sys2Proof.Machine.State

/-- Settles O10: each access is brought to its row, which ends RETRY before anything else is done. -/
theorem retryHasNoEffect : Obligations.RetryHasNoEffect := by
  intro s a en d hf
  refine ⟨?_, ?_, ?_, ?_, ?_⟩
  · rintro ⟨st, hc⟩
    exact ⟨read_loading hf hc, write_loading hf hc⟩
  · intro hc hp hb
    have hr : s.decodeRead a.toNat = s.endAccess .retry := by simp only [decodeRead, hp, hb, if_true]
    have h := readAt_working a.toNat hf hc
    rw [hr, retry_treated] at h
    exact congrArg Host.Outcome.next h
  · intro hc he hw hh
    have hr : s.decodeWrite a.toNat en d = s.endAccess .retry := by
      rw [decodeWrite_request en d hw, writeRequest]
      exact if_pos hh
    have h := writeAt_working a.toNat d hf hc he
    rw [hr, retry_treated] at h
    exact congrArg Host.Outcome.next h
  · intro hc he hl
    have h := writeAt_passOnly a.toNat d hf hc he
    rw [postWith_full _ _ _ _ (Nat.le_of_eq hl.symm), retry_treated] at h
    exact congrArg Host.Outcome.next h
  · intro hd he hl
    have hfull : Config.postedCapacity ≤ s.path.posted.length := Nat.le_of_eq hl.symm
    refine ⟨?_, ?_, ?_, ?_, ?_⟩
    · intro hw
      refine congrArg Host.Outcome.next (writeAt_retry hd he ?_)
      rcases hw with hw | hw
      · rw [decodeWrite_outside en d hw, postWith_full _ _ _ _ hfull]
      · rw [decodeWrite_request en d hw, writeRequest_full _ _ _ hfull]
    · intro e _
      refine congrArg Host.Outcome.next (writeAt_retry hd he ?_)
      rw [decodeWrite_request en d (covers_entryAddress s e), writeRequest_full _ _ _ hfull]
    · refine congrArg Host.Outcome.next (controlWord_retry hd (by decide) he ?_)
      rw [writeControl_attention, writeAttention, postWith_full _ _ _ _ hfull]
    · refine congrArg Host.Outcome.next (controlWord_retry hd (by decide) he ?_)
      rw [writeControl_probeSelect, writeProbe, postWith_full _ _ _ _ hfull]
    · intro hv
      refine congrArg Host.Outcome.next (controlWord_retry hd (by decide) he ?_)
      rw [writeControl_consume, writeConsume, consumeValue_bytes, postWith_full _ _ _ _ hfull]
      exact if_pos hv

/-- Settles O11: the read joins the claims when no posted write waits, and what follows keeps it. -/
theorem readIsPassed : Obligations.ReadIsPassed := by
  intro s a hf hc
  have hread : s.upstreamReadAt a.toNat = (s.passRead a.toNat).finish := by
    have htreat : (s.passRead a.toNat).treated = (s.passRead a.toNat).finish := by
      obtain ⟨c, hc⟩ := passRead_only s a.toNat
      rw [hc]
      exact treated_done (by simp)
    rcases hc with hc | ⟨hc, hp, hb⟩
    · rw [readAt_passOnly _ hf hc, htreat]
    · rw [readAt_working _ hf hc, ← htreat]
      simp [decodeRead, hp, hb]
  have howed : s.path.posted = [] → (s.passRead a.toNat).finish.owed (.passedRead a.toNat) := by
    intro hp
    refine (finish_settles _).owed _ (.inl ?_)
    simp [passRead, hp, claim]
  obtain ⟨c, hc⟩ := passRead_only s a.toNat
  rw [hc] at hread howed
  have hset := finish_settles { s with path := { s.path with inFlight := some a.toNat, ending := none, claims := c } }
  exact ⟨_, congrArg Host.Outcome.next hread, hset.inFlight, hset.ending, howed, hset.posted, hset.marks,
    onlyPath_treated rfl rfl rfl⟩

/-- Settles O12. -/
theorem passedReadEnds : Obligations.PassedReadEnds := by
  intro s a hp
  have hset := finish_settles (s.readReturned a)
  exact ⟨_, by simp only [exec, execPassedReadEnd, hp]; rfl, hset.inFlight, hset.ending, hset.posted, hset.marks,
    onlyPath_treated rfl rfl rfl⟩

/-- Settles O13. -/
theorem writeIsPosted : Obligations.WriteIsPosted := by
  intro s a en d hf
  refine ⟨?_, ?_⟩
  · intro he hr hw
    have h := writeAt_posts (d := d) hf he hw
    rw [post_treated hr rfl] at h
    have hset := finish_settles (id (s.post a.toNat en d))
    exact ⟨_, congrArg Host.Outcome.next h, hset.posted, hset.ending, hset.marks, hset.consume, hset.attention,
      hset.probeSelect, onlyPath_treated rfl rfl rfl⟩
  · intro hc
    have hset := finish_settles (s.endAccess .done)
    exact ⟨_, congrArg Host.Outcome.next (writeAt_none a.toNat d hf hc), hset.posted, hset.ending,
      fun hb => finish_keepsRefusals (s := s.endAccess .done) hb, hset.marks, hset.consume, hset.attention,
      hset.probeSelect, onlyPath_treated rfl rfl rfl⟩

/-- Settles O14. -/
theorem writeIsRefused : Obligations.WriteIsRefused := by
  intro s a en d h he hw
  refine ⟨_, congrArg Host.Outcome.next ?_, refuseWrite_finish s a.toNat⟩
  rw [h.writeAt _ _ he, decodeWrite_refused h en d hw, treated_done (by simp [refuseWrite, endAccess])]

/-- Settles O15: the entry lies in the REQUEST window, at the word that carries the mark. -/
theorem ownerWriteActsOnTheMark : Obligations.OwnerWriteActsOnTheMark := by
  intro s e en d h he hr hh
  have hw : s.upstreamWriteAt (s.entryAddress e.val) en d =
      ((s.post (s.entryAddress e.val) en d).setMark e.val (d.getLsbD 0)).finish := by
    rw [h.writeAt _ _ (enables_ne_zero he), decodeWrite_request en d (covers_entryAddress s e), writeRequest_entry,
      if_neg hh, post_treated hr (by simp [he, setMark, post, endAccess])]
    simp only [he, if_true]
  have hset := finish_settles ((s.post (s.entryAddress e.val) en d).setMark e.val (d.getLsbD 0))
  refine ⟨_, congrArg Host.Outcome.next hw, hset.ending, ?_, ?_, hset.posted, onlyPath_treated rfl rfl rfl⟩
  · rw [hset.marks]
    exact look_put_same _ _ _ _ e.isLt
  · intro e' hne
    rw [hset.marks]
    exact look_put_other _ _ _ _ _ (Ne.symm hne)

/-- Settles O16. -/
theorem consumeWriteMovesForward : Obligations.ConsumeWriteMovesForward := by
  intro s en d h he
  dsimp only
  rw [← consumeValue_bytes s en d]
  have hw := h.controlWord (o := Config.offConsume) (by decide) d he
  rw [writeControl_consume, writeConsume] at hw
  refine ⟨?_, ?_⟩
  · intro hv hr
    rw [if_pos (show _ ≤ s.unread from hv), post_treated hr rfl] at hw
    have hset := finish_settles ({ s.post (s.controlAddress 0) en d with
      report := { (s.post (s.controlAddress 0) en d).report with consume := s.consumeValue en d } })
    exact ⟨_, congrArg Host.Outcome.next hw, hset.consume, hset.produce, hset.posted, hset.ending,
      onlyPath_treated rfl rfl rfl⟩
  · intro hv
    rw [if_neg (Nat.not_le.mpr (show s.unread < _ from hv)), treated_done (by simp [refuseWrite, endAccess])] at hw
    obtain ⟨hend, hpost, htold, _, _, hcons, honly⟩ := refuseWrite_finish s (s.controlAddress Config.offConsume)
    exact ⟨_, congrArg Host.Outcome.next hw, hcons, hpost, hend, htold, honly⟩

/-- Settles O17. -/
theorem attentionWriteActsOnTheLine : Obligations.AttentionWriteActsOnTheLine := by
  intro s en d h he hr
  have hw := h.controlWord (o := Config.offAttention) (by decide) d he
  rw [writeControl_attention, writeAttention, post_treated hr rfl] at hw
  have hset := finish_settles ({ s.post (s.controlAddress 4) en d with
    path := { (s.post (s.controlAddress 4) en d).path with
      attention := if en.getLsbD 0 then d.getLsbD 0 else s.path.attention } })
  exact ⟨_, congrArg Host.Outcome.next hw, hset.attention, hset.attentionLine_iff, hset.posted, hset.ending,
    onlyPath_treated rfl rfl rfl⟩

end

/-! # Probe snapshots -/

section

namespace Sys2Proof.Machine

open Sys2Proof

/-- Byte 0 of a word. -/
theorem byteNat_zero (w : Word) : byteNat w 0 = w.toNat % 256 := by simp [byteNat]

/-- The words of a snapshot (R191). -/
theorem look_probeSnapshotOf (s : Store) (sel : Word) (i : Nat) :
    look (probeSnapshotOf s sel) 0 i =
      if i = 0 then probeHead (sel.toNat % 256) (probeEntry s sel).isSome
      else if i < 8 then wordAt ((probeEntry s sel).getD []) (i - 1) else 0 := by
  by_cases h : i < 8
  · by_cases h0 : i = 0 <;> simp [look, probeSnapshotOf, h, h0, byteNat_zero]
  · have h0 : i ≠ 0 := by omega
    simp [look, probeSnapshotOf, h, h0]

/-- A select of a reservation names its words (R191). -/
theorem probeEntry_reservation {s : Store} {sel : Word} (hc : sel.toNat % 256 = 2) (hi : sel.toNat / 256 < 256) :
    probeEntry s sel = (s.reservations[sel.toNat / 256]?).map reservationWords := by
  simp only [probeEntry, byteNat_zero, hc, hi, if_true]

/-- A position beyond the reservation list names no entry (R191). -/
theorem probeEntry_beyond {s : Store} {sel : Word} (hc : sel.toNat % 256 = 2)
    (hi : 256 ≤ sel.toNat / 256 ∨ s.reservations[sel.toNat / 256]? = none) : probeEntry s sel = none := by
  by_cases h : sel.toNat / 256 < 256
  · rcases hi with hi | hi
    · omega
    · rw [probeEntry_reservation hc h, hi, Option.map_none]
  · simp only [probeEntry, byteNat_zero, hc, h, if_false]

/-- A code that names no collection names no entry (R191). -/
theorem probeEntry_unnamed {s : Store} {sel : Word} (hc : sel.toNat % 256 = 0 ∨ 7 < sel.toNat % 256) :
    probeEntry s sel = none := by
  unfold probeEntry
  rw [byteNat_zero]
  dsimp only
  split
  iterate 7 · omega
  · rfl

/-- The words of an empty snapshot (R191). -/
theorem look_probeSnapshotOf_none {s : Store} {sel : Word} (h : probeEntry s sel = none) (i : Nat) :
    look (probeSnapshotOf s sel) 0 i = if i = 0 then wordOfBytes (sel.toNat % 256) 0 0 0 else 0 := by
  rw [look_probeSnapshotOf, h]
  by_cases h0 : i = 0
  · simp [h0, probeHead, Code.bit]
  · simp [h0, wordAt]

namespace State

/-- A probe data word is decoded to its number (R190). -/
theorem probeWordAt_data (s : State) {i : Nat} (h : i < 8) :
    s.probeWordAt (s.controlAddress (Config.offProbeData + 4 * i)) = some i := by
  have hc : s.store.cfg.covers .control (s.controlAddress (Config.offProbeData + 4 * i)) = true :=
    covers_base _ _ (by simp only [Config.offProbeData, Config.windowSize]; omega)
  have hoff : s.controlAddress (Config.offProbeData + 4 * i) - s.base .control = Config.offProbeData + 4 * i :=
    Nat.add_sub_cancel_left _ _
  have hle : Config.offProbeData + 4 * i < Config.offProbeData + 32 := by omega
  simp [probeWordAt, hc, hoff, hle]

theorem decodeRead_snapshot (s : State) :
    s.decodeRead (s.controlAddress Config.offProbeData) = s.probeTake := by
  have h := s.probeWordAt_data (i := 0) (by omega)
  rw [Nat.mul_zero, Nat.add_zero] at h
  simp only [decodeRead, h]

theorem decodeRead_data (s : State) {i : Nat} (h : i < 8) (h0 : i ≠ 0) :
    s.decodeRead (s.controlAddress (Config.offProbeData + 4 * i)) = s.probeRead i := by
  unfold decodeRead
  rw [s.probeWordAt_data h]
  split
  · rename_i e; exact absurd (Option.some.inj e) h0
  · rename_i e; rw [Option.some.inj e]
  · rename_i e; cases e

theorem snapshot_word (v : Option (Vector Word 8)) (i : Nat) :
    (match v with
      | some v => look v 0 i
      | none => 0) = (v.map fun v => look v 0 i).getD 0 := by
  cases v <;> rfl

end State

end Sys2Proof.Machine

end

section

open Sys2Proof Sys2Proof.Machine Sys2Proof.Machine.State

/-- Settles O18. -/
theorem probeShowsTheSelectedEntry : Obligations.ProbeShowsTheSelectedEntry := by
  intro s h
  refine ⟨?_, ?_, ?_, ?_, ?_⟩
  · intro en d he hr
    have hw := h.controlWord (o := Config.offProbeSelect) (by decide) d he
    rw [writeControl_probeSelect, writeProbe, post_treated hr rfl] at hw
    have hset := finish_settles ({ s.post (s.controlAddress 8) en d with
      path := { (s.post (s.controlAddress 8) en d).path with
        probeSelect := mergeBytes s.path.probeSelect d en, snapshot := none } })
    exact ⟨_, congrArg Host.Outcome.next hw, hset.probeSelect, hset.snapshot, hset.posted, hset.ending,
      onlyPath_treated rfl rfl rfl⟩
  · have hw := h.readAt (s.controlAddress Config.offProbeData)
    rw [decodeRead_snapshot, treated_done (by simp [probeTake, endAccess])] at hw
    have hset := finish_settles s.probeTake
    exact ⟨_, congrArg Host.Outcome.next hw, hset.snapshot, hset.ending, hset.probeSelect, hset.posted,
      onlyPath_treated rfl rfl rfl⟩
  · intro r hc hi hr
    have hentry : probeEntry s.store s.path.probeSelect = some (reservationWords r) := by
      rw [probeEntry_reservation hc hi, hr, Option.map_some]
    simp only [look_probeSnapshotOf, hentry]
    refine ⟨?_, ?_, ?_, ?_, ?_⟩
    · simp [hc, probeHead, Code.bit]
    · rfl
    · intro k l hcl
      refine ⟨?_, ?_⟩
      · cases hst : r.state <;> simp [wordAt, reservationWords, hcl, hst, Code.reservationKind, Code.reservationState,
          ReservationState.face, Code.byteOr, Code.absentByte]
      · simp [wordAt, reservationWords, hcl, Code.byteOr, Code.absentByte]
    · intro b hcl
      refine ⟨?_, ?_⟩
      · cases hst : r.state <;> simp [wordAt, reservationWords, hcl, hst, Code.reservationKind, Code.reservationState,
          ReservationState.face, Code.byteOr, Code.absentByte]
      · simp [wordAt, reservationWords, hcl, Code.byteOr, Code.absentByte]
    · intro i h4
      have h0 : i ≠ 0 := by omega
      obtain ⟨j, rfl⟩ : ∃ j, i = j + 4 := ⟨i - 4, by omega⟩
      simp [wordAt, reservationWords]
  · intro hc
    have hentry : probeEntry s.store s.path.probeSelect = none := by
      rcases hc with ⟨hc, hi⟩ | hc
      · exact probeEntry_beyond hc hi
      · exact probeEntry_unnamed hc
    refine ⟨?_, ?_⟩
    · exact (look_probeSnapshotOf_none hentry 0).trans (if_pos rfl)
    · intro i hi
      exact (look_probeSnapshotOf_none hentry i).trans (if_neg (by omega))
  · intro w hw0
    have hw := h.readAt (s.controlAddress (Config.offProbeData + 4 * w.val))
    rw [decodeRead_data s w.isLt hw0, treated_done (by simp [probeRead, endAccess])] at hw
    have hset := finish_settles (s.probeRead w.val)
    exact ⟨_, congrArg Host.Outcome.next hw, hset.ending.trans (by rw [← snapshot_word]; rfl), hset.snapshot,
      hset.posted, onlyPath_treated rfl rfl rfl⟩

end

/-! # The arbiter and the image records -/

section

namespace Sys2Proof.Machine

open Sys2Proof

/-! ## The words of the records -/

/-- A vector of three entries as a list. -/
theorem toList_three {α : Type} (v : Vector α 3) (d : α) : v.toList = [look v d 0, look v d 1, look v d 2] := by
  obtain ⟨⟨l⟩, h⟩ := v
  match l, h with
  | [a, b, c], _ => rfl

/-- Two bytes and a half as two halves. -/
theorem wordOfBytes_low {b0 b1 : Nat} (h : Nat) (h0 : b0 < 256) (h1 : b1 < 256) :
    wordOfBytes b0 b1 h (h / 256) = wordOfHalves (b0 + 256 * b1) h := by
  unfold wordOfBytes wordOfHalves
  exact congrArg _ (by omega)

/-- A half and two bytes as two halves. -/
theorem wordOfBytes_high (h b2 b3 : Nat) :
    wordOfBytes h (h / 256) b2 b3 = wordOfHalves h (b2 % 256 + 256 * b3) := by
  unfold wordOfBytes wordOfHalves
  exact congrArg _ (by omega)

theorem bit_lt (b : Bool) : Code.bit b < 256 := by cases b <;> decide

namespace Code

theorem blockReason_eq (r : Option BlockReason) :
    blockReason r = [none, some BlockReason.request, some .disputed, some .foreign, some .imageFault].idxOf r := by
  rcases r with _ | r
  · rfl
  · cases r <;> rfl

theorem blockReason_lt (r : Option BlockReason) : blockReason r < 256 := by
  rcases r with _ | r
  · decide
  · cases r <;> decide

theorem orderState_eq (x : OrderState) :
    orderState x = [OrderState.admitting, .active, .cancelling, .complete, .abandoned].idxOf x := by
  cases x <;> rfl

theorem laneState_eq (x : LaneState) :
    laneState x = [LaneState.unsettled, .free, .occupied, .assigned, .done, .abandoned].idxOf x := by
  cases x <;> rfl

theorem weightState_eq (x : Option WeightState) :
    weightState x = [none, some WeightState.matched, some .arriving, some .mismatch].idxOf x := by
  rcases x with _ | x
  · rfl
  · cases x <;> rfl

theorem channelState_eq (x : ChannelState) :
    channelState x = [ChannelState.unhomed, .homing, .idle, .moving, .held, .fenced].idxOf x := by
  cases x <;> rfl

theorem fenceCause_eq (x : Option FenceCause) :
    fenceCause x = [none, some FenceCause.driveFault, some .deadline, some .unsolicited, some .wrongPosition,
      some .homingStopped].idxOf x := by
  rcases x with _ | x
  · rfl
  · cases x <;> rfl

theorem faceState_eq (x : FaceState) : faceState x = [FaceState.idle, .presenting, .halted].idxOf x := by
  cases x <;> rfl

theorem displayNote_eq (x : DisplayNote) : displayNote x = [DisplayNote.blank, .wait, .fault, .count].idxOf x := by
  cases x <;> rfl

theorem displayMode_eq (x : DisplayMode) : displayMode x = [DisplayMode.off, .pick, .put, .count].idxOf x := by
  cases x <;> rfl

theorem lineState_eq (x : LineState) : lineState x = [LineState.offline, .identifying, .ready].idxOf x := by
  cases x <;> rfl

theorem gate_eq (x : Gate) : gate x = if x = .closed then 1 else 0 := by cases x <;> rfl

theorem byteOr_direction (t : Option (Nat × Direction)) :
    byteOr (t.map fun t => direction t.2) =
      match t with
      | none => 0xFF
      | some (_, d) => if d = .forward then 0 else 1 := by
  rcases t with _ | ⟨_, d⟩
  · rfl
  · cases d <;> rfl

theorem presentationKind_eq (k : Option PresentationKind) :
    presentationKind k = match k with
      | none => 0
      | some .work => 1
      | some .count => 3 := by
  rcases k with _ | k
  · rfl
  · cases k <;> rfl

end Code

/-- One bay of a carrier record: four words (spec/11). -/
theorem slotWords_eq (q : Slot) :
    slotWords q = [wordOfHalves (Code.bit q.stocked + 256 * Code.blockReason q.blockReason) (Code.halfOr q.article),
      wordOfHalves (q.lotWeek.getD 0) (Code.bit q.lotWeek.isSome), wordOfBytes q.count q.reserved q.incoming 0, 0] := by
  rw [slotWords, wordOfBytes_low _ (bit_lt _) (Code.blockReason_lt _)]

theorem bit_stocked (q : Slot) : Code.bit q.stocked = if 0 < q.count + q.incoming then 1 else 0 := by
  simp [Code.bit, Slot.stocked]

theorem articleWords_some (x : Article) (cc : Nat) :
    articleWords (some x) cc = [wordOfBytes cc 1 x.sizeClass 0, x.catalogue, wordOfHalves x.weight (x.tolerance % 256),
      wordOfBytes cc 0 0 0] := by
  simp [articleWords, wordOfBytes_high]

/-- The item at the head of a bay, in the words of the face record (spec/11). -/
theorem bayWord_eq (items : List Item) :
    bayWord items =
      let item := match items.head? with
        | none => (0, 0xFF, 0xFF)
        | some i => (match i.ref with
            | .pick _ => 1
            | .put _ => 2
            | .count _ => 3, i.expected.getD 0xFF, i.displayed)
      wordOfBytes items.length item.1 item.2.1 item.2.2 := by
  rcases items with _ | ⟨⟨r, _, _⟩, _⟩
  · rfl
  · cases r <;> rfl

theorem headRefWord_eq (items : List Item) :
    headRefWord items = match items.head? with
      | none => wordOfHalves 0xFFFF 0
      | some i => match i.ref with
        | .pick n => wordOfHalves n 0
        | .put n => wordOfHalves n 0
        | .count n => wordOfHalves n 0 := by
  rcases items with _ | ⟨⟨r, _, _⟩, _⟩
  · rfl
  · cases r <;> rfl

/-- A line of an order record, 0 where there is none. -/
theorem lineWord_getD (o : Option Line) :
    (o.map lineWord).getD 0 = match o with
      | none => 0
      | some l => BitVec.ofNat 32 (l.article % 512 + 2 ^ 9 * (l.quantity % 32) + 2 ^ 14 * (l.filled % 32) +
          2 ^ 19 * (l.reservedFor % 32) + 2 ^ 24 * Code.bit l.setFlag + 2 ^ 25 * Code.bit (l.filled == l.quantity) +
          2 ^ 26 * Code.bit l.setWeek.isSome) := by
  cases o <;> rfl

namespace State

/-! ## The choice of the arbiter -/

/-- A class that no claim before `x` has, and `x` has, gives `x`. -/
theorem find?_first {before after : List Transfer} {x : Transfer} (h : ∀ y ∈ before, classOf y ≠ classOf x) :
    (before ++ x :: after).find? (fun t => classOf t == classOf x) = some x := by
  rw [List.find?_append, List.find?_eq_none.mpr fun y hy => by simpa using h y hy, List.find?_cons_of_pos (by simp)]
  rfl

/-- The longest waiting claim of the lowest class is the best one (R192). -/
theorem bestClaim_first {s : State} {before after : List Transfer} {x : Transfer}
    (hc : s.path.claims = before ++ x :: after) (hr : ∀ y ∈ s.path.claims, 2 ≤ classOf y ∧ classOf y ≤ 4)
    (hb : ∀ y ∈ before, classOf x < classOf y) (ha : ∀ y ∈ after, classOf x ≤ classOf y) : s.bestClaim = some x := by
  have hx : s.oldestOf (classOf x) = some x := by
    rw [oldestOf, hc]
    exact find?_first fun y hy => Nat.ne_of_gt (hb y hy)
  have hlow : ∀ c, c < classOf x → s.oldestOf c = none := by
    intro c hlt
    refine List.find?_eq_none.mpr fun y hy => ?_
    have : classOf x ≤ classOf y := by
      rw [hc] at hy
      rcases List.mem_append.mp hy with hy | hy
      · exact Nat.le_of_lt (hb y hy)
      · rcases List.mem_cons.mp hy with rfl | hy
        · exact Nat.le_refl _
        · exact ha y hy
    simp only [beq_iff_eq]
    omega
  obtain ⟨h2, h4⟩ := hr x (by rw [hc]; simp)
  unfold bestClaim
  obtain h | h | h : classOf x = 2 ∨ classOf x = 3 ∨ classOf x = 4 := by omega
  · rw [h] at hx
    rw [hx]; rfl
  · rw [h] at hx hlow
    rw [hx, hlow 2 (by omega)]; rfl
  · rw [h] at hx hlow
    rw [hx, hlow 2 (by omega), hlow 3 (by omega)]; rfl

end State

end Sys2Proof.Machine

end

section

open Sys2Proof Sys2Proof.Machine Sys2Proof.Machine.State

/-- Settles O19: the choice by class and age, and the words of each kind of record. -/
theorem arbiterGrantsByClass : Obligations.ArbiterGrantsByClass := by
  intro s
  refine ⟨?_, ?_, ?_, ?_, ?_⟩
  · intro hp
    have : s.path.port.isSome = true := Option.isSome_iff_ne_none.mpr hp
    simp only [exec, execDownstreamGrant, arbitrate, this, if_true]
  · intro hp hq
    simp only [exec, execDownstreamGrant, arbitrate, hp, hq, Option.isSome_none, Bool.false_eq_true, if_false, ne_eq,
      not_false_eq_true, if_true, grantTo]
  · intro before x after hp hq hc hr hb ha
    have hx : x ∉ before := fun hx => Nat.lt_irrefl _ (hb x hx)
    have herase : s.path.claims.erase x = before ++ after := by
      rw [hc, List.erase_append_right _ hx, List.erase_cons_head]
    simp only [exec, execDownstreamGrant, arbitrate, hp, hq, Option.isSome_none, Bool.false_eq_true, if_false, ne_eq,
      not_true_eq_false, bestClaim_first hc hr hb ha, herase, grantTo]
  · intro r rest hp hq hc hpass hw hlt
    have hbest : s.bestClaim = none := by simp [bestClaim, oldestOf, hc]
    refine ⟨s.grantBurst r rest, ?_, rfl, look_put_same _ _ _ _ hlt, rfl, rfl⟩
    simp only [exec, execDownstreamGrant, arbitrate, hp, hq, Option.isSome_none, Bool.false_eq_true, if_false, ne_eq,
      not_true_eq_false, hbest, hpass, hw]
  · intro cc
    refine ⟨?_, ?_, ?_, ?_, ?_, ?_⟩
    · intro i
      simp only [recordWords, carrierWords, toList_three _ Slot.empty, List.flatMap_cons, List.flatMap_nil,
        List.append_nil, slotWords_eq, bit_stocked, Code.blockReason_eq, List.append_assoc]
      rfl
    · intro a
      simp only [recordWords]
      rcases s.store.article a with _ | x
      · rfl
      · exact articleWords_some x cc
    · intro k
      simp only [recordWords]
      rcases s.store.order k with _ | o
      · rfl
      · simp only [orderWords, wordOfBytes_high, Code.orderState_eq, lineWord_getD]
        rfl
    · intro l
      simp only [recordWords, laneWords, Code.laneState_eq, Code.weightState_eq]
      rfl
    · intro n hn
      simp only [recordWords, hn, if_true, carouselWords, Code.channelState_eq, Code.fenceCause_eq, Code.gate_eq,
        Code.byteOr_direction]
      rfl
    · intro p hp
      have hn : ¬ 4 + p < 4 := by omega
      simp only [recordWords, hn, if_false, Nat.add_sub_cancel_left, faceWords, toList_three _ ([] : List Item),
        toList_three _ BayDisplay.off, List.map_cons, List.map_nil, bayWord_eq, headRefWord_eq, bayDisplayWord,
        Code.faceState_eq, Code.presentationKind_eq, Code.displayNote_eq, Code.displayMode_eq, Code.lineState_eq]
      rfl

end

/-! # Transfers that complete, the Intake and the Report Writer -/

section

namespace Sys2Proof.Machine

open Sys2Proof

namespace Memory

/-- A single written word reads back. -/
theorem readWord_writeWords {m : List Host.Cell} (h : wf m = true) (a : Nat) (w : Word) :
    readWord (writeWords m a [w]) a = w := readWord_writeWord h a w

/-- The four bytes of a written word are the only ones that change. -/
theorem read_writeWords_one {m : List Host.Cell} (h : wf m = true) (a : Nat) (w : Word) (b : Nat)
    (hb : b < a ∨ a + 4 ≤ b) : read (writeWords m a [w]) b = read m b :=
  read_writeWords_outside h a [w] b hb

end Memory

namespace State

/-! ## Power-up -/

/-- Memory keeps its bytes through a power loss where no transfer that writes was in progress (log 8). -/
theorem tornMemory_kept {s : State} {k : Nat}
    (h : k = 0 ∨ s.path.port = none ∨ ∃ x b, s.path.port = some ⟨x, b⟩ ∧
      ((∃ a, x = .passedRead a) ∨ (∃ e, x = .entryRead e) ∨ ∃ stage, x = .load stage)) : s.tornMemory k = s.mem := by
  rcases h with rfl | hp | ⟨x, b, hp, ⟨a, rfl⟩ | ⟨e, rfl⟩ | ⟨stage, rfl⟩⟩
  · unfold tornMemory
    split
    · rfl
    · split <;> rfl
  all_goals simp [tornMemory, transferWords, hp]

/-! ## Transfers -/

/-- The read in flight is claimed once the buffer is empty, unless it waits already (R187). -/
theorem claimRead_claims {s : State} {a : Nat} (hi : s.path.inFlight = some a) (hp : s.path.posted = []) :
    Transfer.passedRead a ∈ s.claimRead.path.claims := by
  unfold claimRead
  rw [hi]
  dsimp only
  split
  · simp [claim]
  · next h =>
    refine Classical.byContradiction fun hn => ?_
    exact h ⟨hp, by simpa using hn⟩

/-- What a transfer's words in memory, and what follows, leave of the link and the records. -/
theorem sameJobs_finish {s u : State} (hs : s.SameJobs u) : s.SameJobs u.finish := by
  unfold SameJobs at *
  rw [(finish_settles u).store, hs]

/-- The write of one word by the port, and what follows it, in all that a control word write is said to change. -/
theorem carried_word {s : State} (h : s.MemorySound) (a : Nat) (w : Word) :
    let t := (s.carried a [w]).finish
    Memory.readWord t.mem a = w ∧
      (∀ b, b < a ∨ a + 4 ≤ b → Memory.read t.mem b = Memory.read s.mem b) ∧ t.path.marks = s.path.marks ∧
      t.path.posted = s.path.posted ∧ t.intake.index = s.intake.index ∧ t.report.produce = s.report.produce ∧
      t.report.consume = s.report.consume ∧ s.SameJobs t := by
  have hset := finish_settles (s.carried a [w])
  refine ⟨?_, ?_, hset.marks, hset.posted, hset.index, hset.produce, hset.consume, sameJobs_finish rfl⟩
  · rw [hset.mem]
    exact Memory.readWord_writeWords h a w
  · intro b hb
    rw [hset.mem]
    exact Memory.read_writeWords_one h a w b hb

/-! ## The take check -/

theorem hasRoom_iff (s : State) : s.hasRoom = true ↔ (s.report.produce - s.report.consume).toNat < 64 :=
  decide_eq_true_iff

theorem inEntry_iff (s : State) (e a : Nat) :
    s.inEntry e a = true ↔ s.entryAddress e ≤ a ∧ a < s.entryAddress e + 64 := by
  simp only [inEntry, Bool.and_eq_true, decide_eq_true_eq]

/-- The Intake takes the entry exactly when every condition holds (R172). -/
theorem mayTakeEntry_iff {s : State} (hw : s.intake.state = .waiting) :
    s.mayTakeEntry = true ↔
      look s.path.marks false (s.intake.index.toNat % 32) = true ∧
        (∀ w ∈ s.path.posted, ¬ (s.entryAddress (s.intake.index.toNat % 32) ≤ w.address ∧
          w.address < s.entryAddress (s.intake.index.toNat % 32) + 64)) ∧
        (s.report.produce - s.report.consume).toNat < 64 ∧ s.report.completion = none ∧
        s.report.writing ≠ some .completion := by
  simp only [mayTakeEntry, hw, entryOfIndex, Config.requestEntries, Bool.and_eq_true, beq_self_eq_true, true_and,
    Bool.not_eq_true', List.any_eq_false, inEntry_iff, hasRoom_iff, Option.isNone_iff_eq_none, bne_iff_ne, and_assoc]

/-- A completion that is pending keeps the Intake from taking an entry (R172). -/
theorem intakeTake_pending {s : State} {ws : List Word} (h : s.report.completion = some ws) : s.intakeTake = s := by
  simp [intakeTake, mayTakeEntry, h]

/-! ## The Report Writer's choice -/

theorem reportBegin_completion {s : State} {ws : List Word} (hw : s.report.writing = none)
    (hr : (s.report.produce - s.report.consume).toNat < 64) (hc : s.report.completion = some ws) :
    s.reportBegin = s.beginCompletion ws := by
  rw [reportBegin, if_pos ⟨hw, (hasRoom_iff s).mpr hr⟩]
  simp only [hc]

theorem reportBegin_notice {s : State} {n : Notice} {rest : List Notice} (hw : s.report.writing = none)
    (hr : (s.report.produce - s.report.consume).toNat < 64) (hc : s.report.completion = none)
    (ht : s.returning = false) (hn : s.store.notices = n :: rest) : s.reportBegin = s.beginNotice n rest := by
  rw [reportBegin, if_pos ⟨hw, (hasRoom_iff s).mpr hr⟩]
  simp only [hc, ht, hn, Bool.false_eq_true, if_false]

theorem reportBegin_none {s : State}
    (h : ¬ (s.report.writing = none ∧ (s.report.produce - s.report.consume).toNat < 64) ∨
      (s.report.completion = none ∧ (s.returning = true ∨ s.store.notices = []))) : s.reportBegin = s := by
  rw [← hasRoom_iff] at h
  rcases h with h | ⟨hc, hr | hr⟩
  · exact if_neg h
  · simp only [reportBegin, hc, hr, if_true, ite_self]
  · simp only [reportBegin, hc, hr, ite_self]

theorem reportBegin_intake (s : State) : s.reportBegin.intake = s.intake := by
  unfold reportBegin
  (repeat' split) <;> rfl

/-- With a completion pending, what follows is the Report Writer's choice and the arbiter's. -/
theorem finish_pendingCompletion {s : State} {ws : List Word} (hc : s.path.condition = .working)
    (h : s.report.completion = some ws) : s.finish = s.reportBegin.arbitrate := by
  rw [finish, if_pos (working_iff.mpr hc), intakeTake_pending h]

theorem reportWriteBegin_exec {s : State} (h : s.path.condition = .working) :
    exec .reportWriteBegin s = .next s.reportBegin.arbitrate := by
  simp [exec, execReportWriteBegin, working_iff.mpr h]

/-- What the arbiter leaves of a state that differs from `s` in the Path Unit and the reports alone. -/
theorem onlyPath_arbitrate {s u : State} (hm : u.mem = s.mem) (hg : u.gateLines = s.gateLines) (hs : s.SameJobs u) :
    s.OnlyPath u.arbitrate := by
  have h := Settles.arbitrate u
  refine ⟨h.mem.trans hm, h.gateLines.trans hg, ?_⟩
  unfold SameJobs at *
  rw [h.store, hs]

/-- The claim that a report write begins with is owed after the arbiter (R176, R192). -/
theorem arbitrate_owes {u : State} {x : Transfer} : (u.claim x).arbitrate.owed x :=
  (Settles.arbitrate _).owed _ (.inl (List.mem_append_right _ (List.mem_singleton.mpr rfl)))

end State

/-- The words of a notice: a head of two, then its data (spec/11). -/
theorem noticeWords_length (s : State) (n : Notice) : (noticeWords s n).length = 8 := by
  obtain ⟨src, flags⟩ := n
  cases src with
  | order k =>
    simp only [noticeWords, noticeData]
    cases s.store.order k <;> simp [orderNoticeWords, zeroWords]
  | batch b =>
    simp only [noticeWords, noticeData]
    cases s.store.batch b <;> simp [batchWords, batchWords.fields, zeroWords]
  | audit a =>
    simp only [noticeWords, noticeData]
    cases s.store.audit a <;> simp [auditWords, auditEntryWords, zeroWords]
  | _ => simp [noticeWords, noticeData, carouselWords, faceNoticeWords, laneWords, zeroWords]

end Sys2Proof.Machine

end

section

open Sys2Proof Sys2Proof.Machine Sys2Proof.Machine.State

/-- Settles O29. -/
theorem powerUpBeginsTheLoad : Obligations.PowerUpBeginsTheLoad := by
  intro s k
  exact ⟨_, rfl, rfl, rfl, rfl, rfl, rfl, tornMemory_kept⟩

/-- Settles O20. -/
theorem postedWriteReachesMemory : Obligations.PostedWriteReachesMemory := by
  intro s w ws b h hp hq
  have hexec : exec .postedWriteEnd s = .next (s.postedWritten w ws).finish := by
    simp only [exec, execPostedWriteEnd, hp, hq]
    rfl
  have howed : ∀ a, s.path.inFlight = some a → ws = [] → (s.postedWritten w ws).finish.owed (.passedRead a) :=
    fun a hi hws => (finish_settles _).owed _ (.inl (claimRead_claims hi hws))
  obtain ⟨c, hc⟩ := claimRead_only { s with
    mem := Memory.writeMasked s.mem w.address w.enables w.data
    path := { s.path with port := none, posted := ws } }
  have hset := finish_settles (s.postedWritten w ws)
  rw [postedWritten, hc] at hset hexec howed
  refine ⟨_, hexec, hset.posted, ?_, howed, hset.marks, hset.gateLines, sameJobs_finish rfl⟩
  intro a
  rw [hset.mem]
  exact Memory.read_writeMasked h _ _ _ _

/-- Settles O21. -/
theorem burstReachesMemory : Obligations.BurstReachesMemory := by
  intro s r ws b h hp
  have hset := finish_settles (s.carried (recordAddress s.store.cfg r) ws)
  refine ⟨(s.carried (recordAddress s.store.cfg r) ws).finish, ?_, ?_, ?_, hset.marks, hset.posted, hset.gateLines,
    sameJobs_finish rfl⟩
  · simp only [exec, execWriteBackBurstEnd, hp]
    rfl
  · rw [hset.mem]
    exact Memory.readWords_writeWords h _ _
  · intro a ha
    rw [hset.mem]
    exact Memory.read_writeWords_outside h _ _ _ ha

/-- Settles O22. -/
theorem controlWordReachesMemory : Obligations.ControlWordReachesMemory := by
  intro s b h
  refine ⟨?_, ?_, ?_⟩
  · intro o v hp
    exact ⟨_, by simp only [exec, execControlWordWriteEnd, hp]; rfl, carried_word h _ _⟩
  · intro v hp
    exact ⟨_, by simp only [exec, execControlWordWriteEnd, hp]; rfl, carried_word h _ _⟩
  · intro v hp
    exact ⟨_, by simp only [exec, execControlWordWriteEnd, hp]; rfl, carried_word h _ _⟩

/-- Settles O23. -/
theorem intakeTakesACommittedEntry : Obligations.IntakeTakesACommittedEntry := by
  intro s hc hw
  have hexec : exec .intakeTake s = .next s.intakeTake.arbitrate := by
    simp [exec, execIntakeTake, working_iff.mpr hc]
  refine ⟨?_, ?_⟩
  · intro hready
    have hmay := (mayTakeEntry_iff hw).mpr hready
    rw [intakeTake, if_pos hmay] at hexec
    have hset := Settles.arbitrate (claim { s with
      intake := { s.intake with state := .reading (entryOfIndex s.intake.index) } }
      (.entryRead (entryOfIndex s.intake.index)))
    exact ⟨_, hexec, arbitrate_intake _, arbitrate_owes, hset.marks, hset.posted, onlyPath_arbitrate rfl rfl rfl⟩
  · intro hready
    have hmay : s.mayTakeEntry ≠ true := fun hm => hready ((mayTakeEntry_iff hw).mp hm)
    rw [intakeTake, if_neg hmay] at hexec
    have hset := Settles.arbitrate s
    exact ⟨_, hexec, arbitrate_intake _, hset.marks, hset.posted, onlyPath_arbitrate rfl rfl rfl⟩

/-- Settles O24. -/
theorem giveBackRaisesTheIndex : Obligations.GiveBackRaisesTheIndex := by
  intro s e w h hp
  have hset := finish_settles (s.carried (s.entryAddress e) [w]).indexRaised
  refine ⟨(s.carried (s.entryAddress e) [w]).indexRaised.finish, ?_, ?_, ?_, hset.index, ?_, ?_, hset.marks,
    sameJobs_finish rfl⟩
  · simp only [exec, execGiveBackEnd, hp]
    rfl
  · rw [hset.mem]
    exact Memory.readWord_writeWords h _ _
  · intro a ha
    rw [hset.mem]
    exact Memory.read_writeWords_one h _ _ _ ha
  · exact hset.owed _ (.inl (List.mem_append_right _ (List.mem_singleton.mpr rfl)))
  · intro hw
    rw [hset.busy hw]
    rfl

/-- Settles O25: the completion that has become pending keeps the Intake from taking an entry, and the Report Writer
chooses it where it chooses at all. -/
theorem indexWriteHandsTheCompletionOver : Obligations.IndexWriteHandsTheCompletionOver := by
  intro s v e ws h hc hp hi
  have hexec : exec .intakeIndexWriteEnd s =
      .next ((s.carried (s.controlAddress Config.offIntake) [wordOfHalves v.toNat 0]).handedOver ws).finish := by
    simp only [exec, execIntakeIndexWriteEnd, hp, hi]
    rfl
  have hset := finish_settles ((s.carried (s.controlAddress Config.offIntake) [wordOfHalves v.toNat 0]).handedOver ws)
  have hfin := finish_pendingCompletion
    (s := (s.carried (s.controlAddress Config.offIntake) [wordOfHalves v.toNat 0]).handedOver ws) (ws := ws) hc rfl
  refine ⟨_, hexec, ?_, ?_, ?_, hset.marks, sameJobs_finish rfl⟩
  · rw [hset.mem]
    exact Memory.readWord_writeWords h _ _
  · rw [hfin, arbitrate_intake, reportBegin_intake]
    rfl
  · rw [hfin]
    split
    · next hfree =>
      rw [reportBegin_completion (s := (s.carried (s.controlAddress Config.offIntake) [wordOfHalves v.toNat 0]).handedOver ws)
        (ws := ws) hfree.1 hfree.2 rfl]
      exact ⟨arbitrate_report _, arbitrate_owes⟩
    · next hfree =>
      rw [reportBegin_none (s := (s.carried (s.controlAddress Config.offIntake) [wordOfHalves v.toNat 0]).handedOver ws)
        (.inl hfree), arbitrate_report]
      rfl

/-- Settles O26: the choice by cases, and the words of the notices. -/
theorem reportWriterChooses : Obligations.ReportWriterChooses := by
  intro s hc
  have hexec := reportWriteBegin_exec hc
  refine ⟨?_, ?_, ?_, ?_⟩
  · rintro ws ⟨hw, hr⟩ hcomp
    rw [reportBegin_completion hw hr hcomp] at hexec
    exact ⟨_, hexec, arbitrate_report _, arbitrate_owes, arbitrate_notices _, onlyPath_arbitrate rfl rfl rfl⟩
  · rintro n rest ⟨hw, hr⟩ hcomp ht hn
    rw [reportBegin_notice hw hr hcomp ht hn] at hexec
    refine ⟨_, hexec, ⟨s.takenRecord n, ?_⟩, arbitrate_owes, arbitrate_notices _, onlyPath_arbitrate rfl rfl rfl⟩
    rw [arbitrate_report]
    rfl
  · intro h
    rw [reportBegin_none h] at hexec
    exact ⟨_, hexec, arbitrate_report _, arbitrate_notices _, onlyPath_arbitrate rfl rfl rfl⟩
  · intro src flags
    refine ⟨noticeWords_length s _, ?_, ?_, ?_, ?_⟩
    · cases src <;> rfl
    · cases src <;> rfl
    · rintro b rfl
      refine ⟨?_, ?_, ?_⟩
      · intro hb
        simp only [noticeWords, noticeData, hb]
        rfl
      · intro x hx
        simp only [noticeWords, noticeData, hx]
        rfl
      · intro x hx
        simp only [noticeWords, noticeData, hx]
        rfl
    · rintro rfl
      rfl

/-- Settles O27. -/
theorem reportEntryReachesMemory : Obligations.ReportEntryReachesMemory := by
  intro s e ws h hp
  have hset := finish_settles ((s.carried (s.reportAddress e) ws).claim (.produceIndex (s.report.produce + 1) true))
  refine ⟨((s.carried (s.reportAddress e) ws).claim (.produceIndex (s.report.produce + 1) true)).finish, ?_, ?_, ?_,
    hset.produce, ?_, hset.marks, sameJobs_finish rfl⟩
  · simp only [exec, execReportEntryWriteEnd, hp]
    rfl
  · rw [hset.mem]
    exact Memory.readWords_writeWords h _ _
  · intro a ha
    rw [hset.mem]
    exact Memory.read_writeWords_outside h _ _ _ ha
  · exact hset.owed _ (.inl (List.mem_append_right _ (List.mem_singleton.mpr rfl)))

end

/-! # The produce index: a written notice frees its batch or its audit record (R129, R156, R164) -/

section

namespace Sys2Proof.Machine

open Sys2Proof

theorem AuditRecord.committed_iff_of_standing {x y : AuditRecord} (h : x.standing = y.standing) (e : AuditEntry) :
    x = .committed e ↔ y = .committed e := by
  cases x <;> cases y <;> simp_all [AuditRecord.standing]

namespace Store

variable {s t u : Store}

/-! ## What the promotion of waiting audits keeps -/

/-- Audits go on: a COMMITTED record stays one and none becomes one, an entry stays the entry of its carrier, a frozen
carrier stays frozen, and what was told stays told. -/
structure AuditsGoOn (s t : Store) : Prop where
  committed : ∀ a y, t.audit a = .committed y ↔ s.audit a = .committed y
  listed : ∀ a e, s.audit a = .listed e →
    ∃ e', t.audit a = .listed e' ∧ e'.carousel = e.carousel ∧ e'.carrier = e.carrier ∧ e'.origin = e.origin
  frozen : ∀ r, (s.carrier r).frozen = true → (t.carrier r).frozen = true
  told : ∀ src f, (∃ n ∈ s.notices, n.source = src ∧ n.flags &&& f = f) →
    ∃ n ∈ t.notices, n.source = src ∧ n.flags &&& f = f

namespace AuditsGoOn

theorem refl (s : Store) : s.AuditsGoOn s where
  committed _ _ := Iff.rfl
  listed _ e h := ⟨e, h, rfl, rfl, rfl⟩
  frozen _ h := h
  told _ _ h := h

theorem trans (h : s.AuditsGoOn t) (k : t.AuditsGoOn u) : s.AuditsGoOn u where
  committed a y := (k.committed a y).trans (h.committed a y)
  listed a e he := by
    obtain ⟨e', he', h1, h2, h3⟩ := h.listed a e he
    obtain ⟨e'', he'', k1, k2, k3⟩ := k.listed a e' he'
    exact ⟨e'', he'', k1.trans h1, k2.trans h2, k3.trans h3⟩
  frozen r hr := k.frozen r (h.frozen r hr)
  told src f ht := k.told src f (h.told src f ht)

/-- What the allocation pass and the displays leave standing, with the same notices, goes on. -/
theorem of_standing (h : t.standing = s.standing) (hn : t.notices = s.notices) : s.AuditsGoOn t where
  committed a y := by
    have ha : (t.audit a).standing = (s.audit a).standing := by rw [← standing_audit, ← standing_audit, h]
    exact AuditRecord.committed_iff_of_standing ha y
  listed a e he := audit_listed_of_standing h he
  frozen r hr := (carrier_frozen_of_standing h r).trans hr
  told src f ht := by rwa [hn]

theorem raise (s : Store) (src : Source) (f : Half) : s.AuditsGoOn (s.raise src f) where
  committed _ _ := Iff.rfl
  listed _ e h := ⟨e, h, rfl, rfl, rfl⟩
  frozen _ h := h
  told _ _ h := raiseIn_keeps src f h

theorem withEntry {a : Nat} (hfree : s.audit a = .free) (r : Nat) (origin : AuditOrigin) :
    s.AuditsGoOn (s.withEntry r a origin) := by
  have haudit : ∀ b, b ≠ a → (s.withEntry r a origin).audit b = s.audit b := by
    intro b hb
    rw [audit, Store.withEntry, setFrozen_audits]
    exact look_put_other _ _ _ _ _ (Ne.symm hb)
  have hself : ∀ y, (s.withEntry r a origin).audit a ≠ .committed y := by
    intro y hy
    by_cases ha : a < 16
    · rw [withEntry_audit ha] at hy; cases hy
    · rw [audit, Store.withEntry, setFrozen_audits] at hy
      simp [look, ha] at hy
  refine ⟨?_, ?_, ?_, ?_⟩
  · intro b y
    by_cases hb : b = a
    · subst hb
      exact iff_of_false (hself y) (by rw [hfree]; nofun)
    · rw [haudit b hb]
  · intro b e he
    have hb : b ≠ a := by rintro rfl; rw [hfree] at he; cases he
    exact ⟨e, by rw [haudit b hb, he], rfl, rfl, rfl⟩
  · intro r' hr'
    simp only [carrier, Store.withEntry, setFrozen, updCarrier_carriers, look_put]
    split
    · rfl
    · exact hr'
  · intro src f ht
    rwa [withEntry_notices]

theorem created {a : Nat} (hfree : s.audit a = .free) (r : Nat) (origin : AuditOrigin) :
    s.AuditsGoOn (s.created r a origin) :=
  (withEntry hfree r origin).trans
    (of_standing standing_created (by rw [created_notices, withEntry_notices]))

theorem eventEnd (s : Store) : s.AuditsGoOn s.eventEnd :=
  of_standing (standing_eventEnd s) (eventEnd_notices s)

end AuditsGoOn

theorem freeAudit_free {a : Nat} (h : s.freeAudit = some a) : s.audit a = .free := by
  have := List.find?_some h
  simpa using this

/-- The entry that a request with a telling makes (R154). -/
theorem askAudit_told {r a : Nat} (h : s.entryOf r = none) (hfree : s.freeAudit = some a) (origin : AuditOrigin) :
    s.askAudit r origin true = (.created a, (s.created r a origin).raise (.audit a) Flag.auditCreated) := by
  simp only [askAudit, h, hfree, Store.created, Store.withEntry, newEntry_ready_iff, if_true]

theorem askAudit_goesOn (s : Store) (r : Nat) (origin : AuditOrigin) : s.AuditsGoOn (s.askAudit r origin true).2 := by
  cases h : s.entryOf r with
  | some a => rw [askAudit_merged h]; exact .refl s
  | none =>
    cases hfree : s.freeAudit with
    | none => rw [askAudit_full h hfree]; exact .refl s
    | some a =>
      rw [askAudit_told h hfree]
      exact (AuditsGoOn.created (freeAudit_free hfree) r origin).trans (.raise _ _ _)

/-! ## The promotion walk (R156) -/

/-- A carrier of a fitted carousel is AUDIT_WANTED. -/
def Wanted (s : Store) (r : Nat) : Prop := s.fitted (r / 24) = true ∧ (s.carrier r).auditWanted = true

theorem promoteOne_unwanted {r : Nat} (h : ¬ s.Wanted r) (tell : Bool) : promoteOne tell s r = s := by
  have : (s.fitted (r / 24) && (s.carrier r).auditWanted) = false := by
    simpa [Wanted] using h
  simp [promoteOne, this]

theorem promoteOne_wanted {r : Nat} (h : s.Wanted r) (tell : Bool) :
    promoteOne tell s r = (s.askAudit r (if (s.carrier r).suspect then .suspect else .shortPick) tell).2 := by
  obtain ⟨hf, hw⟩ := h
  simp [promoteOne, hf, hw]

/-- A carrier that wants no audit, or has an entry, is passed over. -/
theorem promoteOne_still {r : Nat} (h : s.Wanted r → s.entryOf r ≠ none) (tell : Bool) : promoteOne tell s r = s := by
  by_cases hw : s.Wanted r
  · obtain ⟨a, ha⟩ := Option.ne_none_iff_exists'.mp (h hw)
    rw [promoteOne_wanted hw, askAudit_merged ha]
  · exact promoteOne_unwanted hw tell

theorem promoteOne_goesOn (s : Store) (r : Nat) : s.AuditsGoOn (promoteOne true s r) := by
  by_cases hw : s.Wanted r
  · rw [promoteOne_wanted hw]
    exact askAudit_goesOn s r _
  · rw [promoteOne_unwanted hw]
    exact .refl s

theorem foldl_promoteOne_goesOn (rs : List Nat) (s : Store) : s.AuditsGoOn (rs.foldl (promoteOne true) s) := by
  induction rs generalizing s with
  | nil => exact .refl s
  | cons r rs ih => exact (promoteOne_goesOn s r).trans (ih _)

theorem promote_goesOn (s : Store) : s.AuditsGoOn (s.promote true) := foldl_promoteOne_goesOn _ s

theorem foldl_promoteOne_still {rs : List Nat} (h : ∀ r ∈ rs, s.Wanted r → s.entryOf r ≠ none) (tell : Bool) :
    rs.foldl (promoteOne tell) s = s := by
  induction rs with
  | nil => rfl
  | cons r rs ih =>
    rw [List.foldl_cons, promoteOne_still (h r List.mem_cons_self)]
    exact ih fun x hx => h x (List.mem_cons_of_mem _ hx)

/-- With every wanted carrier in the list, the promotion does nothing. -/
theorem promote_still (h : ∀ r, r < 96 → s.Wanted r → s.entryOf r ≠ none) (tell : Bool) : s.promote tell = s :=
  foldl_promoteOne_still (fun r hr => h r (List.mem_range.mp hr)) tell

theorem range_split {c n : Nat} (h : c < n) : ∃ rest, List.range n = List.range c ++ c :: rest := by
  obtain ⟨k, rfl⟩ : ∃ k, n = c + 1 + k := ⟨n - (c + 1), by omega⟩
  exact ⟨(List.range k).map (c + 1 + ·), by rw [List.range_add, List.range_succ, List.append_assoc]; rfl⟩

/-- The promotion gives the lowest wanted carrier that has no entry an entry in the lowest FREE record (R156). -/
theorem promote_creates {c low : Nat} (hc : c < 96) (hw : s.Wanted c) (hnone : s.entryOf c = none)
    (hbefore : ∀ r, r < c → s.Wanted r → s.entryOf r ≠ none) (hfree : s.freeAudit = some low) :
    ((s.created c low (if (s.carrier c).suspect then .suspect else .shortPick)).raise
      (.audit low) Flag.auditCreated).AuditsGoOn (s.promote true) := by
  obtain ⟨rest, hrange⟩ := range_split hc
  rw [promote, hrange, List.foldl_append, foldl_promoteOne_still fun r hr => hbefore r (List.mem_range.mp hr),
    List.foldl_cons, promoteOne_wanted hw, askAudit_told hnone hfree]
  exact foldl_promoteOne_goesOn rest _

/-! ## A record that becomes FREE -/

theorem setAudit_free_audit (s : Store) (a : Nat) : (s.setAudit a .free).audit a = .free := by
  by_cases h : a < 16
  · exact setAudit_audit_self s h _
  · simp [audit, look, h]

/-- A record that is not in the list leaves every carrier its entry. -/
theorem entryOf_setAudit {a : Nat} {y : AuditEntry} (h : s.audit a = .committed y) (r : Nat) :
    (s.setAudit a .free).entryOf r = s.entryOf r := by
  have hentry : ∀ b, (s.setAudit a .free).entry b = s.entry b := by
    intro b
    by_cases hb : b = a
    · subst hb
      simp only [entry, setAudit_free_audit, h]
    · simp only [entry, setAudit_audit_other s hb]
  simp only [entryOf, setAudit_auditList]
  congr 1
  funext b
  simp only [entryFor, hentry]

/-- The store a notice of an audit has left, and what follows (R164). -/
theorem auditNoticeWritten_committed {a : Nat} {y : AuditEntry} (h : s.audit a = .committed y) :
    s.auditNoticeWritten a = (s.setAudit a .free).promote true := by
  simp only [auditNoticeWritten, h]

theorem auditNoticeWritten_other {a : Nat} (h : ∀ y, s.audit a ≠ .committed y) : s.auditNoticeWritten a = s := by
  unfold auditNoticeWritten
  split
  · next y hy => exact absurd hy (h y)
  · rfl
  · rfl

theorem batchNoticeWritten_done {b : Nat} {x : Batch} (h : s.batch b = .done x) :
    s.batchNoticeWritten b = s.setBatch b .free := by
  simp only [batchNoticeWritten, h]

theorem batchNoticeWritten_other {b : Nat} (h : ∀ x, s.batch b ≠ .done x) : s.batchNoticeWritten b = s := by
  unfold batchNoticeWritten
  split
  · next y hy => exact absurd hy (h y)
  · rfl
  · rfl

/-- The lowest FREE record once record `a` is FREE. -/
theorem freeAudit_setAudit {a low : Nat} (hlow : low < 16) (h : low = a ∨ s.audit low = .free)
    (hleast : ∀ b, b < low → b ≠ a ∧ s.audit b ≠ .free) : (s.setAudit a .free).freeAudit = some low := by
  refine freeAudit_eq_some hlow ?_ fun b hb => ?_
  · by_cases e : low = a
    · exact e ▸ setAudit_audit_self s (e ▸ hlow) _
    · rw [setAudit_audit_other s e]
      exact h.resolve_left e
  · rw [setAudit_audit_other s (hleast b hb).1]
    exact (hleast b hb).2

/-- The end of an event does nothing to a store that was attended before a record became FREE. -/
theorem Attended.setAudit {a : Nat} {x : AuditRecord} (h : s.Attended) : (s.setAudit a x).Attended :=
  h.of_eq rfl rfl fun _ _ => rfl

/-- What the new entry of the promotion is, after whatever goes on (R154, R156). -/
theorem AuditsGoOn.of_created {c low : Nat} {origin : AuditOrigin} (hc : c < 96) (hlow : low < 16)
    (h : ((s.created c low origin).raise (.audit low) Flag.auditCreated).AuditsGoOn t) :
    (t.carrier c).frozen = true ∧
      (∃ n ∈ t.notices, n.source = .audit low ∧ n.flags &&& Flag.auditCreated = Flag.auditCreated) ∧
      ∃ y, t.audit low = .listed y ∧ y.carousel = c / 24 ∧ y.carrier = c % 24 ∧ y.origin = origin := by
  refine ⟨?_, ?_, ?_⟩
  · refine h.frozen c ?_
    exact (carrier_frozen_of_standing standing_created c).trans (withEntry_frozen hc)
  · exact h.told _ _ (raiseIn_told _ _ _)
  · obtain ⟨e, he, hcar, hrec, horg⟩ := audit_listed_of_standing standing_created (withEntry_audit (s := s) hlow)
    obtain ⟨y, hy, h1, h2, h3⟩ := h.listed low e he
    exact ⟨y, hy, h1.trans hcar, h2.trans hrec, h3.trans horg⟩

end Store

namespace State

/-- The produce index has its value, the index word is in memory, and the source of a written notice is told
(R176, R179). -/
theorem produceIndexWriteEnd_exec {s : State} {v : Half} (hp : s.path.port = some ⟨.produceIndex v true, false⟩) :
    ∃ u : State, exec .produceIndexWriteEnd s = .next u.finish ∧
      u.mem = Memory.writeWords s.mem (s.controlAddress Config.offProduce) [wordOfHalves v.toNat 0] ∧
      u.path.marks = s.path.marks ∧ u.path.posted = s.path.posted ∧ u.report.produce = v ∧
      u.report.consume = s.report.consume ∧
      (s.report.writing = none ∨ s.report.writing = some .completion → u.store = s.store) ∧
      ∀ n r, s.report.writing = some (.notice n r) → u.store = s.store.noticeWritten n := by
  refine ⟨(s.carried (s.controlAddress Config.offProduce) [wordOfHalves v.toNat 0]).reportWritten v, ?_, ?_⟩
  · simp only [exec, execProduceIndexWriteEnd, hp]
    rfl
  · unfold reportWritten
    dsimp only
    split
    · next n r hw =>
      refine ⟨rfl, rfl, rfl, rfl, rfl, ?_, ?_⟩
      · rintro (hn | hn) <;> cases hw.symm.trans hn
      · intro n' r' hn
        cases hw.symm.trans hn
        rfl
    · next hw => exact ⟨rfl, rfl, rfl, rfl, rfl, fun _ => rfl, fun n r hn => by cases hw.symm.trans hn⟩
    · next hw => exact ⟨rfl, rfl, rfl, rfl, rfl, fun _ => rfl, fun n r hn => by cases hw.symm.trans hn⟩

/-- What follows leaves the records of the job blocks. -/
theorem Settles.jobsAre {s t : State} (h : s.Settles t) {x : Store} (hx : s.store = x) : t.JobsAre x := by
  rw [JobsAre, h.store, hx]

theorem JobsAre.audit {t : State} {x : Store} (h : t.JobsAre x) (a : Nat) : t.store.audit a = x.audit a := by
  rw [h]; rfl

theorem JobsAre.carrier {t : State} {x : Store} (h : t.JobsAre x) (r : Nat) : t.store.carrier r = x.carrier r := by
  rw [h]; rfl

end State

end Sys2Proof.Machine

end

section

open Sys2Proof Sys2Proof.Machine Sys2Proof.Machine.State

/-- Settles O28: by the source of the written notice; for a COMMITTED audit record by the promotion walk. -/
theorem produceIndexRises : Obligations.ProduceIndexRises := by
  intro s v h hp
  obtain ⟨u, hexec, hmem, hmarks, hposted, hproduce, hconsume, hother, hnotice⟩ := produceIndexWriteEnd_exec hp
  have hset := finish_settles u
  refine ⟨_, hexec, hset.produce.trans hproduce, hset.consume.trans hconsume, ?_, ?_, hset.marks.trans hmarks,
    hset.posted.trans hposted, ?_, ?_⟩
  · rw [hset.mem, hmem]
    exact Memory.readWord_writeWords h _ _
  · intro a ha
    rw [hset.mem, hmem]
    exact Memory.read_writeWords_one h _ _ _ ha
  · exact fun hw => hset.jobsAre (hother hw)
  · intro src flags r hw
    have hstore : u.store = s.store.noticeWritten ⟨src, flags⟩ := hnotice _ _ hw
    refine ⟨?_, ?_, ?_⟩
    · rintro b rfl
      refine ⟨?_, ?_⟩
      · intro x hf hx
        refine hset.jobsAre (hstore.trans ?_)
        simp only [Store.noticeWritten, hf, if_true, Store.batchNoticeWritten_done hx]
      · intro hf
        refine hset.jobsAre (hstore.trans ?_)
        rcases hf with hf | hx
        · simp only [Store.noticeWritten, hf, Bool.false_eq_true, if_false]
        · simp only [Store.noticeWritten, Store.batchNoticeWritten_other hx, ite_self]
    · rintro a rfl
      refine ⟨?_, ?_, ?_⟩
      · intro hf
        refine hset.jobsAre (hstore.trans ?_)
        simp only [Store.noticeWritten, hf, Bool.false_eq_true, if_false]
      · intro hatt hx
        refine hset.jobsAre (hstore.trans ?_)
        simp only [Store.noticeWritten, Store.auditNoticeWritten_other hx, Store.eventEnd_still hatt, ite_self]
      · intro x hf hx
        have hfreed : u.store = ((s.store.setAudit a .free).promote true).eventEnd := by
          simp only [hstore, Store.noticeWritten, hf, if_true, Store.auditNoticeWritten_committed hx]
        have hgoes : (s.store.setAudit a .free).AuditsGoOn u.store := by
          rw [hfreed]
          exact (Store.promote_goesOn _).trans (.eventEnd _)
        have hjobs := hset.jobsAre rfl
        refine ⟨?_, ?_, ?_, ?_⟩
        · intro y hy
          rw [hjobs.audit, hgoes.committed, Store.setAudit_free_audit] at hy
          cases hy
        · intro a' y hne hy
          rw [hjobs.audit, hgoes.committed, Store.setAudit_audit_other _ hne, hy]
        · intro hatt hnone
          refine hset.jobsAre (hfreed.trans ?_)
          rw [Store.promote_still (s := s.store.setAudit a .free) fun r hr hw => absurd ⟨hr, hw⟩ (hnone r)]
          exact Store.eventEnd_still hatt.setAudit
        · rintro c low ⟨hc, hw⟩ hnone hbefore hlow hfree hleast
          have hcreate := Store.promote_creates (s := s.store.setAudit a .free) hc hw
            ((Store.entryOf_setAudit hx c).trans hnone)
            (fun r hr hwr => (Store.entryOf_setAudit hx r).symm ▸ hbefore r hr ⟨Nat.lt_trans hr hc, hwr⟩)
            (Store.freeAudit_setAudit hlow hfree hleast)
          have hthen := hcreate.trans (.eventEnd _)
          rw [← hfreed] at hthen
          obtain ⟨hfrozen, htold, hentry⟩ := hthen.of_created hc hlow
          rw [hjobs.carrier, hjobs.audit]
          exact ⟨hfrozen, hset.told _ _ (.inl htold), hentry⟩
    · intro hb ha
      refine hset.jobsAre (hstore.trans ?_)
      cases src with
      | batch b => exact absurd rfl (hb b)
      | audit a => exact absurd rfl (ha a)
      | _ => rfl

end

/-! # The configuration block and the article image -/

section

namespace Sys2Proof.Machine

open Sys2Proof

/-! ## Parts of a word -/

theorem byteNat_eq (w : Word) (b : Nat) : byteNat w b = (w.extractLsb' (8 * b) 8).toNat := by
  simp [byteNat, BitVec.extractLsb'_toNat, Nat.shiftRight_eq_div_pow]

theorem lowHalf_eq (w : Word) : lowHalf w = (w.extractLsb' 0 16).toNat := by
  simp [lowHalf, BitVec.extractLsb'_toNat]

theorem highHalf_eq (w : Word) : highHalf w = (w.extractLsb' 16 16).toNat := by
  simp [highHalf, BitVec.extractLsb'_toNat, Nat.shiftRight_eq_div_pow]

theorem signedHalf_highHalf (w : Word) : signedHalf (highHalf w) = (w.extractLsb' 16 16).toInt := by
  rw [signedHalf, highHalf_eq, BitVec.ofNat_toNat, BitVec.setWidth_eq]

theorem testBit_byteNat_zero (w : Word) {n : Nat} (h : n < 8) : (byteNat w 0).testBit n = w.getLsbD n := by
  rw [byteNat_eq, ← BitVec.getLsbD, BitVec.getLsbD_extractLsb']
  simp [h]

theorem testBit_highHalf (w : Word) {n : Nat} (h : n < 16) : (highHalf w).testBit n = w.getLsbD (16 + n) := by
  rw [highHalf_eq, ← BitVec.getLsbD, BitVec.getLsbD_extractLsb']
  simp [h]

theorem wordAt_readWords (m : List Host.Cell) (a : Nat) {n i : Nat} (h : i < n) :
    wordAt (Memory.readWords m a n) i = Memory.readWord m (a + 4 * i) := by
  simp [wordAt, Memory.readWords, h]

theorem State.configurationWords_word (s : State) {i : Nat} (h : i < 64) :
    wordAt s.configurationWords i = Memory.readWord s.mem (0xF000 + 4 * i) := wordAt_readWords _ _ h

theorem inRange_iff {lo hi v : Nat} : inRange lo hi v = true ↔ lo ≤ v ∧ v ≤ hi := by
  simp [inRange]

/-! ## Tables -/

theorem look_ofFn {α : Type} {n : Nat} (f : Fin n → α) (d : α) {i : Nat} (h : i < n) :
    look (Vector.ofFn f) d i = f ⟨i, h⟩ := by
  simp [look, h]

theorem toList_all_iff_look {α : Type} {n : Nat} (t : Vector α n) (d : α) (p : α → Bool) :
    t.toList.all p = true ↔ ∀ i, i < n → p (look t d i) = true := by
  rw [List.all_eq_not_any_not, Bool.not_eq_true', ← Bool.not_eq_true, toList_any_iff_look t d]
  simp

/-! ## The windows of a configuration block (R185) -/

/-- The windows by their number in the block. -/
def windowOf (i : Nat) : Window := Config.windows.getD i .request

theorem windowOf_windowIndex (w : Window) : windowOf (Config.windowIndex w) = w := by cases w <;> rfl

theorem windowIndex_lt (w : Window) : Config.windowIndex w < 8 := by cases w <;> decide

theorem windowIndex_windowOf : ∀ i < 8, Config.windowIndex (windowOf i) = i := by decide

/-- What holds of each window holds of each number of a window. -/
theorem forall_window_iff {P : Window → Prop} : (∀ w, P w) ↔ ∀ i, i < 8 → P (windowOf i) :=
  ⟨fun h _ _ => h _, fun h w => windowOf_windowIndex w ▸ h _ (windowIndex_lt w)⟩

theorem windowSize_windowOf : ∀ i < 8,
    Config.windowSize (windowOf i) = [2048, 2048, 256, 6144, 8192, 4096, 512, 768].getD i 0 := by decide

theorem windowAlignment_windowOf : ∀ i < 8,
    Config.windowAlignment (windowOf i) = [2048, 2048, 256, 8192, 8192, 4096, 512, 1024].getD i 0 := by decide

theorem windowOf_inj {i j : Nat} (hi : i < 8) (hj : j < 8) : windowOf i = windowOf j ↔ i = j :=
  ⟨fun h => by rw [← windowIndex_windowOf i hi, ← windowIndex_windowOf j hj, h], fun h => h ▸ rfl⟩

theorem base_configurationOf (ws : List Word) (w : Window) :
    (configurationOf ws).base w = (wordAt ws (1 + Config.windowIndex w)).toNat :=
  look_ofFn (fun i : Fin 8 => (wordAt ws (1 + i.val)).toNat) 0 (windowIndex_lt w)

theorem base_windowOf (ws : List Word) {i : Nat} (h : i < 8) :
    (configurationOf ws).base (windowOf i) = (wordAt ws (1 + i)).toNat := by
  rw [base_configurationOf, windowIndex_windowOf i h]

theorem spansMeet_eq_false_iff {a m b n : Nat} : spansMeet a m b n = false ↔ b + n ≤ a ∨ a + m ≤ b := by
  simp [spansMeet, Decidable.imp_iff_not_or]

/-- The windows of a configuration are aligned, apart, and clear of the block (R185, R193). -/
theorem windowsSound_eq_true_iff (c : Configuration) :
    windowsSound c = true ↔
      (∀ w, c.base w % Config.windowAlignment w = 0) ∧
      (∀ w v, w ≠ v → c.base v + Config.windowSize v ≤ c.base w ∨ c.base w + Config.windowSize w ≤ c.base v) ∧
      ∀ w, 0xF100 ≤ c.base w ∨ c.base w + Config.windowSize w ≤ 0xF000 := by
  simp only [windowsSound, Bool.and_eq_true, List.all_eq_true, mem_windows, forall_const, Bool.or_eq_true,
    Bool.not_eq_true', spansMeet_eq_false_iff, beq_iff_eq, and_assoc, Decidable.or_iff_not_imp_left (a := _ = _), ne_eq,
    Config.blockAddress, Config.blockSize]

/-! ## The carousels and the lanes of a configuration block (R3, R27, R132) -/

theorem carouselConfigOf_fitted (ws : List Word) {n : Nat} (h : n < 4) :
    (carouselConfigOf ws n).fitted = (wordAt ws 9).getLsbD n :=
  testBit_byteNat_zero _ (by omega)

theorem laneConfigOf_eq (ws : List Word) {l : Nat} (h : l < 16) :
    laneConfigOf ws l = if (wordAt ws 9).getLsbD (16 + l) = true then
      ⟨true, byteNat (wordAt ws (20 + l)) 0, ((wordAt ws (20 + l)).extractLsb' 16 16).toInt⟩ else ⟨false, 0, 0⟩ := by
  rw [laneConfigOf, testBit_highHalf _ h, signedHalf_highHalf]
  rfl

theorem carouselSound_configOf (ws : List Word) {n : Nat} (h : n < 4) :
    carouselSound (carouselConfigOf ws n) = true ↔ ((wordAt ws 9).getLsbD n = true →
      (1 ≤ byteNat (wordAt ws (10 + n)) 0 ∧ byteNat (wordAt ws (10 + n)) 0 ≤ 12) ∧
      (2 ≤ lowHalf (wordAt ws (14 + n)) ∧ lowHalf (wordAt ws (14 + n)) ≤ 50) ∧
      (5 ≤ highHalf (wordAt ws (14 + n)) ∧ highHalf (wordAt ws (14 + n)) ≤ 100)) := by
  have hclasses : (carouselConfigOf ws n).sizeClasses.toList.all (fun k => inRange 0 7 k) = true := by
    simp only [carouselConfigOf, List.all_eq_true, inRange_iff]
    intro k hk
    simp only [Vector.toList_mk, List.mem_cons, List.not_mem_nil, or_false] at hk
    omega
  rw [carouselSound, hclasses, Bool.and_true, Bool.or_eq_true, Bool.not_eq_true', ← carouselConfigOf_fitted ws h,
    ← Bool.not_eq_true, ← Decidable.imp_iff_not_or]
  simp only [Bool.and_eq_true, inRange_iff, and_assoc, carouselConfigOf]

theorem laneSound_configOf (ws : List Word) {l : Nat} (h : l < 16) :
    laneSound (laneConfigOf ws l) = true ↔ ((wordAt ws 9).getLsbD (16 + l) = true →
      4 ≤ byteNat (wordAt ws (20 + l)) 0 ∧ byteNat (wordAt ws (20 + l)) 0 ≤ 32) := by
  rw [laneConfigOf_eq ws h]
  split
  · next hf => simp only [laneSound, inRange_iff, hf, Bool.not_true, Bool.false_or, forall_const]
  · next hf => simp only [laneSound, hf, Bool.not_false, Bool.true_or, false_imp_iff, Bool.false_eq_true]

section

variable {ws : List Word} {word : Nat → Word} (hw : ∀ i, i < 64 → wordAt ws i = word i)
include hw

/-- The same by the numbers of the windows and the words of the block. -/
theorem windowsSound_configurationOf :
    windowsSound (configurationOf ws) = true ↔
      (∀ i, i < 8 → (word (1 + i)).toNat % [2048, 2048, 256, 8192, 8192, 4096, 512, 1024].getD i 0 = 0) ∧
      (∀ i j, i < 8 → j < 8 → i ≠ j →
        (word (1 + i)).toNat + [2048, 2048, 256, 6144, 8192, 4096, 512, 768].getD i 0 ≤ (word (1 + j)).toNat ∨
        (word (1 + j)).toNat + [2048, 2048, 256, 6144, 8192, 4096, 512, 768].getD j 0 ≤
          (word (1 + i)).toNat) ∧
      ∀ i, i < 8 →
        (word (1 + i)).toNat + [2048, 2048, 256, 6144, 8192, 4096, 512, 768].getD i 0 ≤ 0xF000 ∨
          0xF100 ≤ (word (1 + i)).toNat := by
  have hbase : ∀ i, i < 8 → (configurationOf ws).base (windowOf i) = (word (1 + i)).toNat := fun i hi => by
    rw [base_windowOf ws hi, hw (1 + i) (by omega)]
  rw [windowsSound_eq_true_iff, forall_window_iff, forall_window_iff, forall_window_iff]
  refine and_congr ?_ (and_congr ?_ ?_)
  · refine forall₂_congr fun i hi => ?_
    rw [hbase i hi, windowAlignment_windowOf i hi]
  · refine ⟨fun h i j hi hj hne => ?_, fun h i hi => forall_window_iff.mpr fun j hj hne => ?_⟩
    · have := h i hi (windowOf j) fun e => hne ((windowOf_inj hi hj).mp e)
      rw [hbase i hi, hbase j hj, windowSize_windowOf i hi, windowSize_windowOf j hj] at this
      exact this.symm
    · have := h i j hi hj fun e => hne (e ▸ rfl)
      rw [hbase i hi, hbase j hj, windowSize_windowOf i hi, windowSize_windowOf j hj]
      exact this.symm
  · refine forall₂_congr fun i hi => ?_
    rw [hbase i hi, windowSize_windowOf i hi]
    exact or_comm

theorem any_fitted_carousel :
    (configurationOf ws).carousels.toList.any (fun k => k.fitted) = true ↔
      ∃ n, n < 4 ∧ (word 9).getLsbD n = true := by
  rw [toList_any_iff_look _ Configuration.blankCarousel]
  refine exists_congr fun n => and_congr_right fun h => ?_
  rw [configurationOf, look_ofFn _ _ h, carouselConfigOf_fitted ws h, hw 9 (by decide)]

theorem any_fitted_lane :
    (configurationOf ws).lanes.toList.any (fun l => l.fitted) = true ↔
      ∃ l, l < 16 ∧ (word 9).getLsbD (16 + l) = true := by
  rw [toList_any_iff_look _ Configuration.blankLane]
  refine exists_congr fun l => and_congr_right fun h => ?_
  rw [configurationOf, look_ofFn _ _ h, laneConfigOf_eq ws h, hw 9 (by decide)]
  split
  · next hf => exact iff_of_true rfl hf
  · next hf => exact iff_of_false (by simp) hf

theorem all_sound_carousels :
    (configurationOf ws).carousels.toList.all carouselSound = true ↔ ∀ n, n < 4 → (word 9).getLsbD n = true →
      (1 ≤ byteNat (word (10 + n)) 0 ∧ byteNat (word (10 + n)) 0 ≤ 12) ∧
      (2 ≤ lowHalf (word (14 + n)) ∧ lowHalf (word (14 + n)) ≤ 50) ∧
      (5 ≤ highHalf (word (14 + n)) ∧ highHalf (word (14 + n)) ≤ 100) := by
  rw [toList_all_iff_look _ Configuration.blankCarousel]
  refine forall₂_congr fun n h => ?_
  rw [configurationOf, look_ofFn _ _ h, carouselSound_configOf ws h, hw 9 (by decide), hw (10 + n) (by omega), hw (14 + n) (by omega)]

theorem all_sound_lanes :
    (configurationOf ws).lanes.toList.all laneSound = true ↔ ∀ l, l < 16 → (word 9).getLsbD (16 + l) = true →
      4 ≤ byteNat (word (20 + l)) 0 ∧ byteNat (word (20 + l)) 0 ≤ 32 := by
  rw [toList_all_iff_look _ Configuration.blankLane]
  refine forall₂_congr fun l h => ?_
  rw [configurationOf, look_ofFn _ _ h, laneSound_configOf ws h, hw 9 (by decide), hw (20 + l) (by omega)]

/-- The configuration block passes exactly when every check holds (R193). -/
theorem configurationSound_iff :
    configurationSound ws = true ↔
      byteNat (word 0) 0 = 0x21 ∧
      (∀ i, i < 8 → (word (1 + i)).toNat % [2048, 2048, 256, 8192, 8192, 4096, 512, 1024].getD i 0 = 0) ∧
      (∀ i j, i < 8 → j < 8 → i ≠ j →
        (word (1 + i)).toNat + [2048, 2048, 256, 6144, 8192, 4096, 512, 768].getD i 0 ≤ (word (1 + j)).toNat ∨
        (word (1 + j)).toNat + [2048, 2048, 256, 6144, 8192, 4096, 512, 768].getD j 0 ≤
          (word (1 + i)).toNat) ∧
      (∀ i, i < 8 →
        (word (1 + i)).toNat + [2048, 2048, 256, 6144, 8192, 4096, 512, 768].getD i 0 ≤ 0xF000 ∨
          0xF100 ≤ (word (1 + i)).toNat) ∧
      (∃ n, n < 4 ∧ (word 9).getLsbD n = true) ∧ (∃ l, l < 16 ∧ (word 9).getLsbD (16 + l) = true) ∧
      (∀ n, n < 4 → (word 9).getLsbD n = true →
        (1 ≤ byteNat (word (10 + n)) 0 ∧ byteNat (word (10 + n)) 0 ≤ 12) ∧
        (2 ≤ lowHalf (word (14 + n)) ∧ lowHalf (word (14 + n)) ≤ 50) ∧
        (5 ≤ highHalf (word (14 + n)) ∧ highHalf (word (14 + n)) ≤ 100)) ∧
      (∀ l, l < 16 → (word 9).getLsbD (16 + l) = true →
        4 ≤ byteNat (word (20 + l)) 0 ∧ byteNat (word (20 + l)) 0 ≤ 32) ∧
      (1 ≤ lowHalf (word 18) ∧ lowHalf (word 18) ≤ 6000) ∧ highHalf (word 18) ≤ 6000 ∧
      byteNat (word 19) 0 ≤ 1 ∧ byteNat (word 19) 1 ≤ 63 ∧
      (50 ≤ lowHalf (word 36) ∧ lowHalf (word 36) ≤ 1000) ∧
      (1 ≤ byteNat (word 36) 2 ∧ byteNat (word 36) 2 ≤ 50) ∧ byteNat (word 36) 3 ≤ 200 ∧
      (2 ≤ byteNat (word 37) 0 ∧ byteNat (word 37) 0 ≤ 60) ∧ byteNat (word 37) 1 ≤ 1 := by
  have hrepeat : (byteAt (word 19) 1).toNat = byteNat (word 19) 1 := (byteNat_eq _ _).symm
  simp only [configurationSound, Bool.and_eq_true, any_fitted_carousel hw, any_fitted_lane hw,
    all_sound_carousels hw, all_sound_lanes hw, windowsSound_configurationOf hw, beq_iff_eq, inRange_iff, and_assoc, Config.blockFormat]
  simp only [configurationOf, hw 0 (by decide), hw 18 (by decide), hw 19 (by decide), hw 36 (by decide),
    hw 37 (by decide), hrepeat, Nat.zero_le, true_and]

/-- The values of the configuration block, word by word (spec/11). -/
theorem configurationOf_eq :
    configurationOf ws = {
      bases := Vector.ofFn fun i : Fin 8 => (word (1 + i)).toNat
      carousels := Vector.ofFn fun n : Fin 4 => {
        fitted := (word 9).getLsbD n, bayDepth := byteNat (word (10 + n)) 0
        sizeClasses := #v[byteNat (word (10 + n)) 1 % 8, byteNat (word (10 + n)) 1 / 8 % 8, byteNat (word (10 + n)) 2 % 8]
        stepTime := lowHalf (word (14 + n)), settleAllowance := highHalf (word (14 + n)) }
      loadLimit := lowHalf (word 18), imbalanceLimit := highHalf (word 18), panelRate := byteNat (word 19) 0
      repeatByte := byteAt (word 19) 1
      lanes := Vector.ofFn fun l : Fin 16 =>
        if (word 9).getLsbD (16 + l) = true then
          ⟨true, byteNat (word (20 + l)) 0, ((word (20 + l)).extractLsb' 16 16).toInt⟩ else ⟨false, 0, 0⟩
      scanInterval := lowHalf (word 36), settleBand := byteNat (word 36) 2, emptyThreshold := byteNat (word 36) 3
      arrivalWindow := byteNat (word 37) 0, attention := byteNat (word 37) 1 } := by
  have hbases : (fun i : Fin 8 => (wordAt ws (1 + i.val)).toNat) = fun i : Fin 8 => (word (1 + i)).toNat := by
    funext i
    rw [hw _ (by omega)]
  have hcarousels : (fun n : Fin 4 => carouselConfigOf ws n.val) = fun n : Fin 4 => {
      fitted := (word 9).getLsbD n, bayDepth := byteNat (word (10 + n)) 0
      sizeClasses := #v[byteNat (word (10 + n)) 1 % 8, byteNat (word (10 + n)) 1 / 8 % 8, byteNat (word (10 + n)) 2 % 8]
      stepTime := lowHalf (word (14 + n)), settleAllowance := highHalf (word (14 + n)) } := by
    funext n
    rw [carouselConfigOf, hw 9 (by decide), hw (10 + n) (by omega), hw (14 + n) (by omega),
      testBit_byteNat_zero _ (by omega)]
  have hlanes : (fun l : Fin 16 => laneConfigOf ws l.val) = fun l : Fin 16 =>
      if (word 9).getLsbD (16 + l) = true then
        ⟨true, byteNat (word (20 + l)) 0, ((word (20 + l)).extractLsb' 16 16).toInt⟩ else ⟨false, 0, 0⟩ := by
    funext l
    rw [laneConfigOf_eq ws l.isLt, hw 9 (by decide), hw (20 + l) (by omega)]
  rw [configurationOf, hbases, hcarousels, hlanes, hw 18 (by decide), hw 19 (by decide), hw 36 (by decide),
    hw 37 (by decide)]

end

end Sys2Proof.Machine

end

section

open Sys2Proof Sys2Proof.Machine Sys2Proof.Machine.State

/-- Settles O30. -/
theorem configurationIsChecked : Obligations.ConfigurationIsChecked := by
  intro s hc hp word byte low high base size span carousel lane within good
  have hword : ∀ i, i < 64 → wordAt s.configurationWords i = word i := fun i hi => s.configurationWords_word hi
  have hgood : configurationSound s.configurationWords = true ↔ good := by
    simp only [configurationSound_iff hword, byteNat_eq, lowHalf_eq, highHalf_eq]
    rfl
  have hcfg := configurationOf_eq hword
  simp only [byteNat_eq, lowHalf_eq, highHalf_eq] at hcfg
  have hexec : exec .configurationCheck s = .next s.checkConfiguration := by
    simp [exec, execConfigurationCheck, loadingStage, hc, hp]
  obtain ⟨u, hu, c, att, cond, hstate, hcase⟩ := checkConfiguration_only s
  rw [hu] at hexec
  have hset := finish_settles u
  refine ⟨?_, ?_⟩
  · intro hg
    obtain ⟨rfl, rfl, -, rfl⟩ := hcase.resolve_right fun ⟨_, _, hn, _⟩ => by
      rw [hgood.mpr hg] at hn; cases hn
    subst hstate
    refine ⟨_, hexec, hset.condition, ?_, ?_, ?_, hset.mem⟩
    · rw [hset.store]
      exact hcfg
    · exact hset.owed _ (.inl (List.mem_append_right _ (List.mem_singleton.mpr rfl)))
    · rw [hset.attention]
      simp only [Configuration.allowsAttention, beq_iff_eq, hcfg]
      rfl
  · intro hg
    obtain ⟨rfl, rfl, -, rfl⟩ := hcase.resolve_left fun ⟨_, _, hy, _⟩ => hg (hgood.mp hy)
    subst hstate
    refine ⟨_, hexec, hset.condition, ?_, hset.mem, ?_⟩
    · rw [attentionLine, hset.attention, Bool.and_false]
    · rw [finish, if_neg (by simp [working]), arbitrate_notices]

end

/-! # The article image and the link reset -/

section

namespace Sys2Proof.Machine

open Sys2Proof

namespace Store

/-- Every record of a list that is listed is in the write-back list. -/
theorem mem_listAll {x : ImageRecord} {rs : List ImageRecord} (h : x ∈ rs) (s : Store) :
    x ∈ (s.listAll rs).writeBack := by
  induction rs generalizing s with
  | nil => cases h
  | cons r rs ih =>
    rcases List.mem_cons.mp h with rfl | h
    · exact (listAll_evolves (s.list x) rs).keeps_listed (mem_list_writeBack s x)
    · exact ih h _

end Store

/-- The entry of an article image record, and when there is one (R25). -/
theorem articleOf_eq (ws : List Word) :
    articleOf ws =
      if byteNat (wordAt ws 0) 0 = byteNat (wordAt ws 3) 0 ∧ byteNat (wordAt ws 0) 1 % 2 = 1 ∧
        byteNat (wordAt ws 0) 2 ≤ 7 ∧ 1 ≤ lowHalf (wordAt ws 2) ∧ lowHalf (wordAt ws 2) ≤ 1000 ∧
        byteNat (wordAt ws 2) 2 ≤ 100
      then some ⟨wordAt ws 1, byteNat (wordAt ws 0) 2, lowHalf (wordAt ws 2), byteNat (wordAt ws 2) 2⟩ else none := by
  have hbit : (byteNat (wordAt ws 0) 1).testBit 0 = decide (byteNat (wordAt ws 0) 1 % 2 = 1) := Nat.testBit_zero _
  simp only [articleOf, hbit]
  by_cases h0 : byteNat (wordAt ws 0) 0 = byteNat (wordAt ws 3) 0
  · by_cases h1 : byteNat (wordAt ws 0) 1 % 2 = 1
    · simp [h0, h1, inRange_iff, and_assoc]
    · simp [h0, h1]
  · simp [h0]

namespace State

variable {s : State}

/-! ## What the arbiter and the Intake leave in special cases -/

/-- A claim that waits goes before every burst (R192). -/
theorem bestClaim_ne_none {x : Transfer} (h : x ∈ s.path.claims) (hc : 2 ≤ classOf x ∧ classOf x ≤ 4) :
    s.bestClaim ≠ none := by
  have hold : s.oldestOf (classOf x) ≠ none := fun hn => by
    simpa using List.find?_eq_none.mp hn x h
  unfold bestClaim
  obtain hx | hx | hx : classOf x = 2 ∨ classOf x = 3 ∨ classOf x = 4 := by omega
  all_goals
    rw [hx] at hold
    cases h2 : s.oldestOf 2 <;> cases h3 : s.oldestOf 3 <;> cases h4 : s.oldestOf 4 <;> simp_all

/-- While a claim waits the arbiter leaves the write-back list. -/
theorem arbitrate_writeBack {x : Transfer} (h : x ∈ s.path.claims) (hc : 2 ≤ classOf x ∧ classOf x ≤ 4) :
    s.arbitrate.store.writeBack = s.store.writeBack := by
  unfold arbitrate
  split
  · rfl
  · split
    · rfl
    · split
      · rfl
      · next hn => exact absurd hn (bestClaim_ne_none h hc)

/-- In PASS-ONLY the arbiter begins no burst (R193). -/
theorem arbitrate_passOnly (h : s.path.condition = .passOnly) : s.arbitrate.store = s.store := by
  unfold arbitrate
  simp only [h, if_true]
  (repeat' split) <;> rfl

theorem finish_not_working (h : s.path.condition ≠ .working) : s.finish = s.arbitrate := by
  rw [finish, if_neg fun hw => h (working_iff.mp hw)]

/-- With no mark set the Intake takes no entry (R172). -/
theorem intakeTake_unmarked (h : ∀ e, look s.path.marks false e = false) : s.intakeTake = s := by
  simp [intakeTake, mayTakeEntry, h]

theorem finish_intake_unmarked (h : ∀ e, look s.path.marks false e = false) : s.finish.intake = s.intake := by
  rw [finish, arbitrate_intake]
  split
  · rw [reportBegin_intake, intakeTake_unmarked h]
  · rfl

/-- With no completion pending or in write, what follows begins none. -/
theorem finish_no_completion (h : s.report.completion = none) (hw : s.report.writing ≠ some .completion) :
    s.finish.report.completion = none ∧ s.finish.report.writing ≠ some .completion := by
  rw [finish, arbitrate_report]
  split
  · rw [← intakeTake_report] at h hw
    generalize s.intakeTake = u at h hw
    unfold reportBegin
    split
    · rw [h]
      dsimp only
      split
      · exact ⟨h, hw⟩
      · split
        · exact ⟨h, hw⟩
        · exact ⟨h, by simp [beginNotice, claim]⟩
    · exact ⟨h, hw⟩
  · exact ⟨h, hw⟩

/-! ## The notice in write goes back to the list (R183) -/

/-- What the notice told is told by the list again. -/
theorem putBack_told (n : Notice) (ns : List Notice) :
    ∃ m ∈ putBack n ns, m.source = n.source ∧ m.flags &&& n.flags = n.flags := by
  unfold putBack
  split
  · next m _ =>
    refine ⟨_, List.mem_cons_self, rfl, ?_⟩
    ext i hi
    simp only [BitVec.getElem_and, BitVec.getElem_or]
    cases n.flags[i] <;> cases m.flags[i] <;> rfl
  · exact ⟨n, List.mem_cons_self, rfl, by simp⟩

/-- A link reset in all that it sets before its notice is raised (R183, R195). -/
theorem resetLink_only (s : State) : ∃ ns r, s.resetLink =
    { s with
      intake := ⟨0, .waiting⟩
      report := ⟨0, 0, none, none⟩
      path := { s.path with
        refusals := r, inFlight := none, ending := none, marks := Vector.replicate 32 false, probeSelect := 0
        snapshot := none, attention := s.store.cfg.allowsAttention
        claims := s.path.claims.filter (fun t => !resetDrops t) ++ resetWords s.store.cfg
        port := s.path.port.map fun g => if resetDrops g.transfer then { g with dropped := true } else g }
      store := { s.store with notices := ns } } ∧
    (∃ m ∈ ns, m.source = .device ∧ m.flags &&& Flag.deviceLinkReset = Flag.deviceLinkReset) ∧
    ∀ n taken, s.report.writing = some (.notice n taken) → ∃ m ∈ ns, m.source = n.source ∧ m.flags &&& n.flags = n.flags := by
  rw [resetLink_eq, claimResetWords_claims s.linkCleared]
  unfold linkCleared returnNotice
  split
  · next n taken hw =>
    refine ⟨_, _, rfl, raiseIn_told _ _ _, fun n' taken' hn => ?_⟩
    cases hw.symm.trans hn
    exact raiseIn_keeps _ _ (putBack_told n _)
  · next hw => exact ⟨_, _, rfl, raiseIn_told _ _ _, fun n taken hn => by cases hw.symm.trans hn⟩
  · next hw => exact ⟨_, _, rfl, raiseIn_told _ _ _, fun n taken hn => by cases hw.symm.trans hn⟩

end State

end Sys2Proof.Machine

end

section

open Sys2Proof Sys2Proof.Machine Sys2Proof.Machine.State

/-- Settles O31. -/
theorem articleImageIsLoaded : Obligations.ArticleImageIsLoaded := by
  intro s hc hp good word x defined
  have hexec : exec .articleImageLoad s = .next s.loadArticles := by
    simp [exec, execArticleImageLoad, loadingStage, hc, hp]
  have hgood : s.headerMatches Config.offArticleHeader Config.articleFormat = true ↔ good := beq_iff_eq
  obtain ⟨wb, hwb⟩ := listAll_writeBack_only
    { s.store with articles := s.loadedArticles (s.headerMatches Config.offArticleHeader Config.articleFormat) }
    ((List.range 512).map ImageRecord.article)
  have hlisted : ∀ a, a < 512 → ImageRecord.article a ∈ wb := by
    intro a ha
    have := Store.mem_listAll (x := .article a) (rs := (List.range 512).map ImageRecord.article)
      (List.mem_map.mpr ⟨a, List.mem_range.mpr ha, rfl⟩)
      { s.store with articles := s.loadedArticles (s.headerMatches Config.offArticleHeader Config.articleFormat) }
    rwa [hwb] at this
  rw [loadArticles_eq, hwb] at hexec
  have harticle : ∀ a, a < 512 →
      look (s.loadedArticles (s.headerMatches Config.offArticleHeader Config.articleFormat)) none a =
        if defined a then some (x a) else none := by
    intro a ha
    have hw : ∀ i, i < 4 → wordAt (s.imageWords (.article a) 4) i = word a i := fun i hi => wordAt_readWords _ _ hi
    rw [loadedArticles, look_ofFn _ _ ha, articleOf_eq, hw 0 (by decide), hw 1 (by decide), hw 2 (by decide),
      hw 3 (by decide)]
    by_cases hg : good
    · rw [if_pos (hgood.mpr hg)]
      have hrest : defined a ↔ byteNat (word a 0) 0 = byteNat (word a 3) 0 ∧ byteNat (word a 0) 1 % 2 = 1 ∧
          byteNat (word a 0) 2 ≤ 7 ∧ 1 ≤ lowHalf (word a 2) ∧ lowHalf (word a 2) ≤ 1000 ∧
          byteNat (word a 2) 2 ≤ 100 := and_iff_right hg
      simp only [hrest]
      rfl
    · rw [if_neg fun h => hg (hgood.mp h), if_neg fun h : defined a => hg h.1]
  have hset := finish_settles { s with
    path := { s.path with
      port := none, condition := .loading .carriers, claims := s.path.claims ++ [.load .carriers]
      articlesDiscarded := !s.headerMatches Config.offArticleHeader Config.articleFormat }
    store := { s.store with
      articles := s.loadedArticles (s.headerMatches Config.offArticleHeader Config.articleFormat), writeBack := wb } }
  have hclaim : Transfer.load .carriers ∈ s.path.claims ++ [.load .carriers] :=
    List.mem_append_right _ (List.mem_singleton.mpr rfl)
  refine ⟨_, hexec, hset.condition, hset.owed _ (.inl hclaim), ?_, ?_, ?_, ?_, hset.mem⟩
  · intro a ha
    have hart := harticle a ha
    refine ⟨fun hd => ?_, fun hd => ?_, ?_⟩
    · rw [hset.store]
      exact hart.trans (if_pos hd)
    · rw [hset.store]
      exact hart.trans (if_neg hd)
    · rw [finish_not_working (by simp), arbitrate_writeBack hclaim ⟨by decide, by decide⟩]
      exact hlisted a ha
  · rw [hset.articlesDiscarded, Bool.not_eq_true', ← Bool.not_eq_true]
    exact not_congr hgood
  · rw [hset.store]
  · rw [hset.store]

/-- Settles O34. -/
theorem linkResetClearsTheLink : Obligations.LinkResetClearsTheLink := by
  intro s
  refine ⟨?_, ?_⟩
  · intro hc
    have hexec : exec .linkReset s = .next s.resetLink.finish := by
      simp only [exec, execLinkReset]
      split
      · next hp => exact absurd hp hc
      · rfl
      · rfl
    obtain ⟨ns, r, hstate, hdevice, hnotice⟩ := resetLink_only s
    have hset := finish_settles s.resetLink
    have hmarks : ∀ e, look s.resetLink.path.marks false e = false := by
      intro e
      rw [hstate]
      by_cases he : e < 32 <;> simp [look, he]
    have hintake := finish_intake_unmarked hmarks
    have hreport := finish_no_completion (s := s.resetLink) (by rw [hstate]) (by rw [hstate]; simp)
    have howed : ∀ x ∈ resetWords s.store.cfg, s.resetLink.finish.owed x := by
      intro x hx
      refine hset.owed _ (.inl ?_)
      rw [hstate]
      exact List.mem_append_right _ hx
    have hword : attentionWord s.store.cfg = if s.store.cfg.attention = 1 then 1 else 0 := by
      simp [attentionWord, Configuration.allowsAttention]
    refine ⟨_, hexec, ?_, ?_, ?_, hreport.1, hreport.2, ?_, ?_, ?_, ?_, ?_, howed _ ?_, howed _ ?_, howed _ ?_,
      howed _ ?_, ?_, ?_, ?_, ?_⟩
    · rw [hintake, hstate]
    · rw [hset.produce, hstate]
    · rw [hset.consume, hstate]
    · rw [hset.marks]; exact hmarks
    · rw [hset.probeSelect, hstate]
    · rw [hset.snapshot, hstate]
    · rw [hset.inFlight, hstate]
    · rw [hset.attention, hstate]; rfl
    · simp [resetWords]
    · simp [resetWords]
    · simp [resetWords, Config.offConsume]
    · simp [resetWords, Config.offAttention, hword]
    · intro n taken hn
      refine hset.told _ _ (.inl ?_)
      rw [hstate]
      exact hnotice n taken hn
    · refine hset.told _ _ (.inl ?_)
      rw [hstate]
      exact hdevice
    · rw [hset.posted, hstate]
    · refine onlyPath_finish ?_ ?_ ?_ <;> rw [hstate]
      rfl
  · intro hc
    have hexec : exec .linkReset s = .next s.dropRead.finish := by
      simp only [exec, execLinkReset, hc]
      rfl
    have hset := finish_settles s.dropRead
    have hfin : s.dropRead.finish = s.dropRead.arbitrate := finish_not_working (by
      show s.path.condition ≠ .working
      rw [hc]
      decide)
    refine ⟨_, hexec, hset.inFlight, hset.condition.trans hc, hset.posted, ?_, ?_, hset.mem⟩
    · rw [hfin, arbitrate_report]
      rfl
    · rw [hfin, arbitrate_passOnly (s := s.dropRead) hc]
      rfl

end

/-! # What an operation of the job blocks can touch

`Evolves` (Laws/Evolve) says that an operation is a chain of updates; `Moves K` says which: a chain of the updates `Move`,
each of a part of the store that `K` names. What a chain leaves as it was is then one induction for each part, and an
operation's frame is read from the parts that its `_moves` lemma names. -/

section

namespace Sys2Proof.Machine

open Sys2Proof

/-- The parts of the store that an update of an operation touches. -/
inductive Part where
  | listing
  | notice
  /-- A channel's queue, pending count and travel. -/
  | channel (n : Nat)
  /-- A face's bay lists, its opening from IDLE and its display. -/
  | face (i : Nat)
  /-- The opening of a presentation where one may be open. -/
  | opening (i : Nat)
  /-- The end of a presentation. -/
  | closing (i : Nat)
  | panel (p : Nat)
  | order (k : Nat)
  | lane (l : Nat)
  | article
  | batch (b : Nat)
  /-- The count of an audit entry. -/
  | entry (a : Nat)
  | audit (a : Nat)
  | auditList
  | admission
  | waiting
  | pass
  /-- The states of reservations, as placement and service set them. -/
  | placing
  /-- The states of QUEUED reservations whose entries are given to the other face. -/
  | requeuing
  /-- The quantity of a reservation. -/
  | quantity
  /-- A new reservation. -/
  | enter (claim : Claim) (slot : Nat)
  | leaving
  /-- The marks of a carrier. -/
  | mark (r : Nat)
  /-- The slots of a carrier but their counts. -/
  | stock (r : Nat)
  /-- The counts of a carrier. -/
  | count (r : Nat)

/-- One update of a part of the store, with what its callers guarantee of it. -/
inductive Move : Part → Store → Store → Prop where
  | list (s : Store) (r : ImageRecord) : Move .listing s (s.list r)
  | raise (s : Store) (src : Source) (f : Half) : Move .notice s (s.raise src f)
  | channel (s : Store) (n : Nat) (c : Channel) (hs : c.standing = (s.channel n).standing)
      (ht : c.state = (s.channel n).state ∧ c.target = (s.channel n).target ∧ c.deadline = (s.channel n).deadline) :
      Move (.channel n) s (s.putChannel n c)
  | depart (s : Store) (n : Nat) (c : Channel) (hs : c.standing = (s.channel n).standing)
      (hm : (s.channel n).state = .idle) (hc : c.state = .moving)
      (hf : ∀ f, f < 2 → (s.face (Store.faceIndex n f)).state ≠ .presenting) : Move (.channel n) s (s.putChannel n c)
  | bays (s : Store) (i : Nat) (f : Face) (hs : f.state = (s.face i).state ∧ f.carrier = (s.face i).carrier ∧
      f.kind = (s.face i).kind ∧ f.desired = (s.face i).desired) : Move (.face i) s (s.putFace i f)
  | derive (s : Store) (i : Nat) :
      Move (.face i) s (s.putFace i { s.face i with desired := s.desiredOf i })
  | opens (s : Store) (i : Nat) (f : Face) (hi : (s.face i).state = .idle) (hf : f.state = .presenting)
      (hd : f.desired = (s.face i).desired) : Move (.face i) s (s.putFace i f)
  | reopens (s : Store) (i : Nat) (f : Face) (hi : (s.face i).state ≠ .halted) (hf : f.state = .presenting)
      (hd : f.desired = (s.face i).desired) : Move (.opening i) s (s.putFace i f)
  | closes (s : Store) (i : Nat) (hc : (s.face i).carrier ≠ none) :
      Move (.closing i) s (s.putFace i ((s.face i).ended .idle))
  | panel (s : Store) (p : Nat) (x : Panel) : Move (.panel p) s (s.putPanel p x)
  | order (s : Store) (k : Nat) (o : Option Order) : Move (.order k) s (s.putOrder k o)
  | lane (s : Store) (l : Nat) (x : Lane) : Move (.lane l) s (s.putLane l x)
  | article (s : Store) (a : Nat) (x : Option Article) : Move .article s { s with articles := put s.articles a x }
  | batch (s : Store) (b : Nat) (x : BatchRecord) : Move (.batch b) s (s.setBatch b x)
  | entry (s : Store) (a : Nat) (e e' : AuditEntry) (h : s.audit a = .listed e)
      (hs : e'.carousel = e.carousel ∧ e'.carrier = e.carrier ∧ e'.origin = e.origin) :
      Move (.entry a) s (s.setAudit a (.listed e'))
  | audit (s : Store) (a : Nat) (x : AuditRecord) : Move (.audit a) s (s.setAudit a x)
  | auditList (s : Store) (l : List Nat) : Move .auditList s { s with auditList := l }
  | admission (s : Store) (l : List Nat) (c : Half) (m : List Nat) :
      Move .admission s { s with admission := l, admissionCounter := c, admitted := m }
  | waiting (s : Store) (l : List (Nat × Nat)) : Move .waiting s { s with waiting := l }
  | pass (s : Store) (b : Bool) : Move .pass s { s with passDue := b }
  | present (s : Store) (n f : Nat) : Move .placing s (s.setReservationState n (.presented f))
  | queue (s : Store) (n f : Nat) (r : Reservation) (h : s.reservation n = some r) (hr : r.state = .reserved) :
      Move .placing s (s.setReservationState n (.queued f))
  | requeue (s : Store) (n f : Nat) : Move .requeuing s (s.setReservationState n (.queued f))
  | quantity (s : Store) (n k : Nat) : Move .quantity s (s.raiseQuantity n k)
  | enter (s : Store) (r : Reservation) (hr : r.state = .reserved)
      (hn : ∀ x ∈ s.reservations, x.number ≠ r.number) :
      Move (.enter r.claim r.slot) s { s with reservations := s.reservations ++ [r] }
  | leave (s : Store) (n : Nat) : Move .leaving s (s.dropReservation n)
  | mark (s : Store) (r : Nat) (c : Carrier) (hb : c.bays = (s.carrier r).bays ∧ c.load = (s.carrier r).load)
      (hs : (s.carrier r).suspect = true → c.suspect = true) : Move (.mark r) s (s.setCarrier r c)
  | stock (s : Store) (r : Nat) (c : Carrier) (hb : ∀ b, (look c.bays Slot.empty b).count =
      (look (s.carrier r).bays Slot.empty b).count) (hs : (s.carrier r).suspect = true → c.suspect = true) :
      Move (.stock r) s (s.setCarrier r c)
  | count (s : Store) (r : Nat) (c : Carrier) : Move (.count r) s (s.setCarrier r c)

/-- A chain of updates of parts that `K` names. -/
inductive Moves (K : Part → Prop) : Store → Store → Prop where
  | refl (s : Store) : Moves K s s
  | step {s t u : Store} {p : Part} : Moves K s t → K p → Move p t u → Moves K s u

namespace Moves

variable {K L : Part → Prop} {s t u : Store}

theorem one {p : Part} (hp : K p) (m : Move p s t) : Moves K s t := .step (.refl s) hp m

theorem trans (h : Moves K s t) (k : Moves K t u) : Moves K s u := by
  induction k with
  | refl => exact h
  | step _ hp m ih => exact .step ih hp m

theorem after (k : Moves K t u) (h : Moves K s t) : Moves K s u := h.trans k

theorem mono (h : Moves K s t) (hL : ∀ p, K p → L p) : Moves L s t := by
  induction h with
  | refl => exact .refl _
  | step _ hp m ih => exact .step ih (hL _ hp) m

theorem foldl {α : Type} (g : Store → α → Store) (h : ∀ s x, Moves K s (g s x)) (xs : List α) (s : Store) :
    Moves K s (xs.foldl g s) := by
  induction xs generalizing s with
  | nil => exact .refl s
  | cons x xs ih => exact (h s x).trans (ih _)

/-- What every update of the parts named keeps, a chain keeps. -/
theorem keeps {P : Store → Prop} (h : Moves K s t) (step : ∀ p s t, K p → Move p s t → P s → P t) (hs : P s) : P t := by
  induction h with
  | refl => exact hs
  | step _ hp m ih => exact step _ _ _ hp m ih

/-- A function of the store that every update of the parts named leaves. -/
theorem same {α : Type} {g : Store → α} (h : Moves K s t) (step : ∀ p s t, K p → Move p s t → g t = g s) : g t = g s :=
  h.keeps (P := fun u => g u = g s) (fun _ _ _ hp m e => (step _ _ _ hp m).trans e) rfl

/-! ## What a chain leaves -/

theorem cfg (h : Moves K s t) : t.cfg = s.cfg :=
  h.same (g := Store.cfg) fun _ _ _ _ m => by cases m <;> simp

theorem articles (h : Moves K s t) (hK : ¬ K .article) : t.articles = s.articles :=
  h.same (g := Store.articles) fun _ _ _ hp m => by
    cases m <;> first | exact absurd hp hK | simp

theorem panels (h : Moves K s t) (hK : ∀ p, ¬ K (.panel p)) : t.panels = s.panels :=
  h.same (g := Store.panels) fun _ _ _ hp m => by
    cases m <;> first | exact absurd hp (hK _) | simp

theorem orders (h : Moves K s t) (hK : ∀ k, ¬ K (.order k)) : t.orders = s.orders :=
  h.same (g := Store.orders) fun _ _ _ hp m => by
    cases m <;> first | exact absurd hp (hK _) | simp

theorem lanes (h : Moves K s t) (hK : ∀ l, ¬ K (.lane l)) : t.lanes = s.lanes :=
  h.same (g := Store.lanes) fun _ _ _ hp m => by
    cases m <;> first | exact absurd hp (hK _) | simp

theorem batches (h : Moves K s t) (hK : ∀ b, ¬ K (.batch b)) : t.batches = s.batches :=
  h.same (g := Store.batches) fun _ _ _ hp m => by
    cases m <;> first | exact absurd hp (hK _) | simp

theorem admissions (h : Moves K s t) (hK : ¬ K .admission) : t.admission = s.admission :=
  h.same (g := Store.admission) fun _ _ _ hp m => by
    cases m <;> first | exact absurd hp hK | simp

theorem waitings (h : Moves K s t) (hK : ¬ K .waiting) : t.waiting = s.waiting :=
  h.same (g := Store.waiting) fun _ _ _ hp m => by
    cases m <;> first | exact absurd hp hK | simp

theorem auditLists (h : Moves K s t) (hK : ¬ K .auditList) : t.auditList = s.auditList :=
  h.same (g := Store.auditList) fun _ _ _ hp m => by
    cases m <;> first | exact absurd hp hK | simp

theorem notices (h : Moves K s t) (hK : ¬ K .notice) : t.notices = s.notices :=
  h.same (g := Store.notices) fun _ _ _ hp m => by
    cases m <;> first | exact absurd hp hK | simp

theorem passDue (h : Moves K s t) (hK : ¬ K .pass) : t.passDue = s.passDue :=
  h.same (g := Store.passDue) fun _ _ _ hp m => by
    cases m <;> first | exact absurd hp hK | simp

theorem channel (h : Moves K s t) {n : Nat} (hK : ¬ K (.channel n)) : t.channel n = s.channel n :=
  h.same (g := fun s => s.channel n) fun _ _ _ hp m => by
    have ne {m : Nat} (h : K (.channel m)) : n ≠ m := fun e => hK (e ▸ h)
    cases m <;> first | exact Store.putChannel_channel_other _ (ne hp) _ | simp [Store.channel]

theorem face (h : Moves K s t) {i : Nat} (hK : ¬ K (.face i)) (ho : ¬ K (.opening i)) (hc : ¬ K (.closing i)) :
    t.face i = s.face i :=
  h.same (g := fun s => s.face i) fun _ _ _ hp m => by
    have ne {j : Nat} (h : K (.face j) ∨ K (.opening j) ∨ K (.closing j)) : i ≠ j := fun e => by
      subst e
      exact h.elim hK fun h => h.elim ho hc
    cases m <;> first | exact Store.putFace_face_other _ (ne (by simp_all)) _ | simp [Store.face]

theorem panel (h : Moves K s t) {p : Nat} (hK : ¬ K (.panel p)) : t.panel p = s.panel p :=
  h.same (g := fun s => s.panel p) fun _ _ _ hp m => by
    have ne {q : Nat} (h : K (.panel q)) : p ≠ q := fun e => hK (e ▸ h)
    cases m <;> first | exact Store.putPanel_panel_other _ (ne hp) _ | simp [Store.panel]

theorem order (h : Moves K s t) {k : Nat} (hK : ¬ K (.order k)) : t.order k = s.order k :=
  h.same (g := fun s => s.order k) fun _ _ _ hp m => by
    have ne {j : Nat} (h : K (.order j)) : k ≠ j := fun e => hK (e ▸ h)
    cases m <;> first | exact Store.putOrder_order_other _ (ne hp) _ | simp [Store.order]

theorem lane (h : Moves K s t) {l : Nat} (hK : ¬ K (.lane l)) : t.lane l = s.lane l :=
  h.same (g := fun s => s.lane l) fun _ _ _ hp m => by
    have ne {j : Nat} (h : K (.lane j)) : l ≠ j := fun e => hK (e ▸ h)
    cases m <;> first | exact Store.putLane_lane_other _ (ne hp) _ | simp [Store.lane]

theorem batch (h : Moves K s t) {b : Nat} (hK : ¬ K (.batch b)) : t.batch b = s.batch b :=
  h.same (g := fun s => s.batch b) fun _ _ _ hp m => by
    have ne {j : Nat} (h : K (.batch j)) : b ≠ j := fun e => hK (e ▸ h)
    cases m <;> first | exact Store.setBatch_batch_other _ (ne hp) _ | simp [Store.batch]

end Moves

/-! ## What an update makes of a face and of a channel -/

/-- What an update makes of face `i`. -/
inductive FaceChange (s : Store) (i : Nat) : Part → Face → Prop where
  | bays (f : Face) (hs : f.state = (s.face i).state ∧ f.carrier = (s.face i).carrier ∧ f.kind = (s.face i).kind ∧
      f.desired = (s.face i).desired) : FaceChange s i (.face i) f
  | derive : FaceChange s i (.face i) { s.face i with desired := s.desiredOf i }
  | opens (f : Face) (hi : (s.face i).state = .idle) (hf : f.state = .presenting)
      (hd : f.desired = (s.face i).desired) : FaceChange s i (.face i) f
  | reopens (f : Face) (hi : (s.face i).state ≠ .halted) (hf : f.state = .presenting)
      (hd : f.desired = (s.face i).desired) : FaceChange s i (.opening i) f
  | closes (hc : (s.face i).carrier ≠ none) : FaceChange s i (.closing i) ((s.face i).ended .idle)

theorem Store.putFace_face_cases (s : Store) (i j : Nat) (f : Face) :
    (s.putFace j f).face i = s.face i ∨ j = i ∧ (s.putFace j f).face i = f := by
  by_cases e : j = i
  · subst e
    by_cases hj : j < 8
    · exact .inr ⟨rfl, s.putFace_face_self hj f⟩
    · exact .inl (by rw [face, face, putFace_faces, put_outside _ _ _ (Nat.le_of_not_lt hj)])
  · exact .inl (s.putFace_face_other (Ne.symm e) f)

theorem Move.face_change {p : Part} {s t : Store} (m : Move p s t) (i : Nat) :
    t.face i = s.face i ∨ FaceChange s i p (t.face i) := by
  have put {j : Nat} {f : Face} (h : j = i → FaceChange s i p f) :
      (s.putFace j f).face i = s.face i ∨ FaceChange s i p ((s.putFace j f).face i) :=
    (s.putFace_face_cases i j f).imp_right fun ⟨e, hf⟩ => by rw [hf]; exact h e
  cases m with
  | bays _ j f hs => exact put fun e => by subst e; exact .bays f hs
  | derive _ j => exact put fun e => by subst e; exact .derive
  | opens _ j f hi hf hd => exact put fun e => by subst e; exact .opens f hi hf hd
  | reopens _ j f hi hf hd => exact put fun e => by subst e; exact .reopens f hi hf hd
  | closes _ j hc => exact put fun e => by subst e; exact .closes hc
  | _ => exact .inl (by simp [Store.face])

/-- What an update makes of channel `n`. -/
inductive ChannelChange (s : Store) (n : Nat) (c : Channel) : Prop where
  | stays (hs : c.standing = (s.channel n).standing)
      (ht : c.state = (s.channel n).state ∧ c.target = (s.channel n).target ∧ c.deadline = (s.channel n).deadline)
  | departs (hs : c.standing = (s.channel n).standing) (hm : (s.channel n).state = .idle) (hc : c.state = .moving)
      (hf : ∀ f, f < 2 → (s.face (Store.faceIndex n f)).state ≠ .presenting)

theorem Store.putChannel_channel_cases (s : Store) (n m : Nat) (c : Channel) :
    (s.putChannel m c).channel n = s.channel n ∨ m = n ∧ (s.putChannel m c).channel n = c := by
  by_cases e : m = n
  · subst e
    by_cases hm : m < 4
    · exact .inr ⟨rfl, s.putChannel_channel_self hm c⟩
    · exact .inl (by rw [channel, channel, putChannel_channels, put_outside _ _ _ (Nat.le_of_not_lt hm)])
  · exact .inl (s.putChannel_channel_other (Ne.symm e) c)

theorem Move.channel_change {p : Part} {s t : Store} (m : Move p s t) (n : Nat) :
    t.channel n = s.channel n ∨ ChannelChange s n (t.channel n) := by
  have put {j : Nat} {c : Channel} (h : j = n → ChannelChange s n c) :
      (s.putChannel j c).channel n = s.channel n ∨ ChannelChange s n ((s.putChannel j c).channel n) :=
    (s.putChannel_channel_cases n j c).imp_right fun ⟨e, hc⟩ => by rw [hc]; exact h e
  cases m with
  | channel _ j c hs ht => exact put fun e => by subst e; exact .stays hs ht
  | depart _ j c hs hm hc hf => exact put fun e => by subst e; exact .departs hs hm hc hf
  | _ => exact .inl (by simp [Store.channel])

namespace Moves

variable {K : Part → Prop} {s t : Store}

/-- A face that is HALTED stays so, where no presentation ends. -/
theorem halted (h : Moves K s t) {i : Nat} (hc : ¬ K (.closing i)) (hs : (s.face i).state = .halted) :
    (t.face i).state = .halted := by
  refine h.keeps (P := fun u => (u.face i).state = .halted) (fun p u v hp m hu => ?_) hs
  rcases m.face_change i with e | e
  · rw [e]; exact hu
  · generalize v.face i = f at e
    cases e with
    | bays f hs => exact hs.1.trans hu
    | derive => exact hu
    | opens f hi => exact nomatch hu.symm.trans hi
    | reopens f hi => exact absurd hu hi
    | closes => exact absurd hp hc

/-- A face that is HALTED with no carrier stays so. -/
theorem halted_blank (h : Moves K s t) {i : Nat} (hs : (s.face i).state = .halted ∧ (s.face i).carrier = none) :
    (t.face i).state = .halted ∧ (t.face i).carrier = none := by
  refine h.keeps (P := fun u => (u.face i).state = .halted ∧ (u.face i).carrier = none) (fun p u v hp m hu => ?_) hs
  rcases m.face_change i with e | e
  · rw [e]; exact hu
  · generalize v.face i = f at e
    obtain ⟨hu, hnone⟩ := hu
    cases e with
    | bays f hs => exact ⟨hs.1.trans hu, hs.2.1.trans hnone⟩
    | derive => exact ⟨hu, hnone⟩
    | opens f hi => exact nomatch hu.symm.trans hi
    | reopens f hi => exact absurd hu hi
    | closes hc => exact absurd hnone hc

/-- A presentation that is open stays open, on its carrier, where none is opened over it and none ends. -/
theorem presenting (h : Moves K s t) {i : Nat} (ho : ¬ K (.opening i)) (hc : ¬ K (.closing i))
    (hs : (s.face i).state = .presenting) :
    (t.face i).state = .presenting ∧ (t.face i).carrier = (s.face i).carrier ∧ (t.face i).kind = (s.face i).kind := by
  refine h.keeps (P := fun u => (u.face i).state = .presenting ∧ (u.face i).carrier = (s.face i).carrier ∧
    (u.face i).kind = (s.face i).kind) (fun p u v hp m hu => ?_) ⟨hs, rfl, rfl⟩
  obtain ⟨hst, hca, hki⟩ := hu
  rcases m.face_change i with e | e
  · rw [e]; exact ⟨hst, hca, hki⟩
  · generalize v.face i = f at e
    cases e with
    | bays f hs => exact ⟨hs.1.trans hst, hs.2.1.trans hca, hs.2.2.1.trans hki⟩
    | derive => exact ⟨hst, hca, hki⟩
    | opens f hi => exact nomatch hst.symm.trans hi
    | reopens => exact absurd hp ho
    | closes => exact absurd hp hc

/-- A channel that is IDLE without a target or MOVING stays one of the two, as motion leaves it. -/
def Runs (c : Channel) : Prop :=
  c.state = .idle ∧ c.target = none ∧ c.deadline = none ∨ c.state = .moving

theorem runs (h : Moves K s t) {n : Nat} (hs : Runs (s.channel n)) : Runs (t.channel n) := by
  refine h.keeps (P := fun u => Runs (u.channel n)) (fun p u v _ m hu => ?_) hs
  rcases m.channel_change n with e | e
  · rw [e]; exact hu
  · cases e with
    | stays _ ht =>
      obtain ⟨hst, hta, hde⟩ := ht
      rw [Runs, hst, hta, hde]
      exact hu
    | departs _ _ hc => exact .inr hc

/-- What stands of a channel stays (no drive report is taken and no gate line read). -/
theorem channel_standing (h : Moves K s t) (n : Nat) : (t.channel n).standing = (s.channel n).standing :=
  h.same (g := fun u => (u.channel n).standing) fun _ u v _ m => by
    rcases m.channel_change n with e | e
    · rw [e]
    · cases e with
      | stays hs => exact hs
      | departs hs => exact hs

end Moves

end Sys2Proof.Machine

end

/-! # What placement, service and the counting check touch (R31 to R40, R158) -/

section

namespace Sys2Proof.Machine

open Sys2Proof

namespace Part

/-- What the service of one face of a carousel touches. -/
@[simp] def serving (n f : Nat) : Part → Prop
  | .listing => True
  | .channel m => m = n
  | .face i => i = Store.faceIndex n f
  | .placing => True
  | .mark _ => True
  | .entry _ => True
  | _ => False

/-- What the motion of one carousel touches: its channel, its faces, the reservations and the counts it brings. -/
@[simp] def motionOf (n : Nat) : Part → Prop
  | .listing => True
  | .channel m => m = n
  | .face i => i / 2 = n
  | .placing => True
  | .mark _ => True
  | .entry _ => True
  | _ => False

/-- What the motion of any carousel touches. -/
@[simp] def motion : Part → Prop
  | .listing => True
  | .channel _ => True
  | .face _ => True
  | .placing => True
  | .mark _ => True
  | .entry _ => True
  | _ => False

theorem motion_of_motionOf {n : Nat} : ∀ p, motionOf n p → motion p := by
  intro p h
  cases p <;> simp_all

theorem motionOf_of_serving {n f : Nat} (hf : f < 2) : ∀ p, serving n f p → motionOf n p := by
  intro p h
  cases p <;> simp_all [Store.faceIndex]
  omega

end Part

namespace Store

variable {K : Part → Prop}

/-! ## Records -/

theorem list_moves (hK : K .listing) (s : Store) (r : ImageRecord) : Moves K s (s.list r) := .one hK (.list s r)

theorem raise_moves (hK : K .notice) (s : Store) (src : Source) (f : Half) : Moves K s (s.raise src f) :=
  .one hK (.raise s src f)

theorem setChannel_moves {n : Nat} (hK : K (.channel n)) (hl : K .listing) (s : Store) (c : Channel)
    (hs : c.standing = (s.channel n).standing)
    (ht : c.state = (s.channel n).state ∧ c.target = (s.channel n).target ∧ c.deadline = (s.channel n).deadline) :
    Moves K s (s.setChannel n c) := by
  have h := Moves.one hK (.channel s n c hs ht)
  simp only [setChannel]
  split
  · exact h
  · exact h.trans (list_moves hl _ _)

theorem updCarrier_moves {r : Nat} {f : Carrier → Carrier} {s : Store} {p : Part} (hp : K p) (hl : K .listing)
    (h : Move p s (s.setCarrier r (f (s.carrier r)))) : Moves K s (s.updCarrier r f) :=
  (Moves.one hp h).trans (list_moves hl _ _)

theorem markFaceOpen_moves {r : Nat} (hK : K (.mark r)) (hl : K .listing) (s : Store) (v : Bool) :
    Moves K s (s.markFaceOpen r v) := updCarrier_moves hK hl (.mark s r _ ⟨rfl, rfl⟩ id)

theorem setFrozen_moves {r : Nat} (hK : K (.mark r)) (hl : K .listing) (s : Store) (v : Bool) :
    Moves K s (s.setFrozen r v) := updCarrier_moves hK hl (.mark s r _ ⟨rfl, rfl⟩ id)

theorem markWanted_moves {r : Nat} (hK : K (.mark r)) (hl : K .listing) (s : Store) : Moves K s (s.markWanted r) :=
  updCarrier_moves hK hl (.mark s r _ ⟨rfl, rfl⟩ id)

theorem derive_moves {i : Nat} (hK : K (.face i)) (hl : K .listing) (s : Store) : Moves K s (s.derive i) := by
  have h := Moves.one hK (.derive s i)
  simp only [derive, setFace]
  split
  · exact h
  · exact h.trans (list_moves hl _ _)

theorem deriveBoth_moves (s : Store) (n : Nat) : Moves (Part.motionOf n) s (s.deriveBoth n) :=
  (derive_moves (by simp [faceIndex]) trivial s).trans (derive_moves (by simp [faceIndex]; omega) trivial _)

theorem presentAll_moves (hK : K .placing) (s : Store) (ns : List Nat) (f : Nat) : Moves K s (s.presentAll ns f) :=
  Moves.foldl _ (fun s n => .one hK (.present s n f)) ns s

theorem auditPresented_moves {a : Nat} (hK : K (.entry a)) (s : Store) (f : Nat) :
    Moves K s (s.auditPresented a f) := by
  unfold auditPresented
  split
  · next e h => exact .one hK (.entry s a e _ h ⟨rfl, rfl, rfl⟩)
  · exact .refl _
  · exact .refl _

/-! ## Presentations (R56 to R58) -/

/-- What the opening of a presentation touches, where the face itself may be opened. -/
theorem openWork_moves {n f : Nat} (hK : ∀ p, Part.serving n f p → K p) (s : Store) (c : Nat) (ns : List Nat)
    (h : ∀ x : Face, x.state = .presenting → x.desired = (s.face (faceIndex n f)).desired →
      Moves K s (s.putFace (faceIndex n f) x)) : Moves K s (s.openWork n f c ns) := by
  unfold openWork
  exact .after (list_moves (hK _ trivial) _ _) (.after (derive_moves (hK _ rfl) (hK _ trivial) _)
    (.after (markFaceOpen_moves (hK _ trivial) (hK _ trivial) _ _)
      (.after (presentAll_moves (hK _ trivial) _ _ _) (h _ rfl rfl))))

theorem openCount_moves {n f : Nat} (hK : ∀ p, Part.serving n f p → K p) (s : Store) (c a : Nat)
    (h : ∀ x : Face, x.state = .presenting → x.desired = (s.face (faceIndex n f)).desired →
      Moves K s (s.putFace (faceIndex n f) x)) : Moves K s (s.openCount n f c a) := by
  unfold openCount
  exact .after (list_moves (hK _ trivial) _ _) (.after (derive_moves (hK _ rfl) (hK _ trivial) _)
    (.after (auditPresented_moves (hK _ trivial) _ _)
      (.after (markFaceOpen_moves (hK _ trivial) (hK _ trivial) _ _) (h _ rfl rfl))))

theorem join_moves (s : Store) (n f : Nat) (r : Reservation) : Moves (Part.serving n f) s (s.join n f r) := by
  have h (b) : Moves (Part.serving n f) s ((s.putFace (faceIndex n f)
      { s.face (faceIndex n f) with bays := b }).setReservationState r.number (.presented f)) :=
    .after (.one (by simp) (.present _ _ _)) (.one (by simp) (.bays s _ _ ⟨rfl, rfl, rfl, rfl⟩))
  simp only [join]
  refine .after (list_moves trivial _ _) ?_
  split
  · exact .after (derive_moves (by simp) trivial _) (h _)
  · exact h _

/-! ## Placement (R31 to R34) -/

/-- A placement touches the carousel of the reservation's slot. -/
theorem placeCore_moves (s : Store) (num : Nat)
    (hK : ∀ r, s.reservation num = some r → ∀ p, Part.motionOf (slotCarousel r.slot) p → K p) :
    Moves K s (s.placeCore num).1 := by
  unfold placeCore
  split
  · exact .refl _
  · next r hr =>
    have hK := hK r hr
    have hch (q : List QueueEntry) (f : Nat) (h : r.state = .reserved) : Moves K s
        ((s.setChannel (slotCarousel r.slot) { s.channel (slotCarousel r.slot) with queue := q }).setReservationState
          num (.queued f)) :=
      .after (.one (hK .placing trivial)
          (.queue _ num f r (by rw [reservation, setChannel_reservations]; exact hr) h))
        (setChannel_moves (hK _ rfl) (hK _ trivial) s _ rfl ⟨rfl, rfl, rfl⟩)
    split
    · exact .refl _
    · next hres =>
      have hres : r.state = .reserved := Classical.not_not.mp hres
      dsimp only
      split
      · next hs => exact ((join_moves _ _ _ _).mono (Part.motionOf_of_serving (faceShowing_some hs).1)).mono hK
      · split
        · exact hch _ _ hres
        · split
          · split
            · exact hch _ _ hres
            · exact .refl _
          · exact .refl _

theorem countCore_moves (s : Store) (n a c : Nat) : Moves (Part.motionOf n) s (s.countCore n a c).1 := by
  simp only [countCore]
  split
  · split <;> exact setChannel_moves (by simp) (by simp) s _ rfl ⟨rfl, rfl, rfl⟩
  · exact setChannel_moves (by simp) (by simp) s _ rfl ⟨rfl, rfl, rfl⟩

/-! ## Reservations under motion -/

/-- A reservation without its state. -/
def claimed (r : Reservation) : Reservation := { r with state := .reserved }

theorem claimed_setReservationState (s : Store) (n : Nat) (st : ReservationState) :
    (s.setReservationState n st).reservations.map claimed = s.reservations.map claimed := by
  simp only [setReservationState, List.map_map]
  refine List.map_congr_left fun r _ => ?_
  simp only [Function.comp_apply]
  split <;> rfl

/-- Motion changes the states of reservations alone. -/
theorem motion_claimed {s t : Store} (h : Moves Part.motion s t) :
    t.reservations.map claimed = s.reservations.map claimed :=
  h.same (g := fun s => s.reservations.map Store.claimed) fun _ _ _ hp m => by
    cases m <;> simp [claimed_setReservationState] at hp ⊢

theorem reservation_claimed {s t : Store} (h : t.reservations.map claimed = s.reservations.map claimed) (num : Nat) :
    (t.reservation num).map claimed = (s.reservation num).map claimed := by
  have hf (l : List Reservation) : (l.find? fun r => r.number == num).map claimed =
      (l.map claimed).find? fun r => r.number == num :=
    (List.find?_map (p := fun r : Reservation => r.number == num)).symm
  rw [reservation, reservation, hf, hf, h]

/-- The numbers of the reservations are distinct (R14). -/
def Distinct (s : Store) : Prop := (s.reservations.map fun r => r.number).Nodup

/-- `K` names what the motion of carousel `n` touches: its own parts, and those of the carousels of the reservations
whose numbers it finds. -/
structure MotionIn (K : Part → Prop) (n : Nat) (s : Store) : Prop where
  own : ∀ p, Part.motionOf n p → K p
  others : s.Distinct ∨ ∀ p, Part.motion p → K p

/-- A number that a reservation on carousel `n` has. -/
def HasNumber (s : Store) (n num : Nat) : Prop := ∃ x ∈ s.reservations, x.number = num ∧ slotCarousel x.slot = n

theorem eq_of_nodup_map {α β : Type} {f : α → β} {xs : List α} (h : (xs.map f).Nodup) {x y : α} (hx : x ∈ xs)
    (hy : y ∈ xs) (e : f x = f y) : x = y := by
  induction xs with
  | nil => exact nomatch hx
  | cons z zs ih =>
    obtain ⟨hz, hzs⟩ := List.nodup_cons.mp h
    rcases List.mem_cons.mp hx with rfl | hin
    · rcases List.mem_cons.mp hy with rfl | hin
      · rfl
      · exact absurd (e ▸ List.mem_map_of_mem hin) hz
    · rcases List.mem_cons.mp hy with rfl | hin'
      · exact absurd (e ▸ List.mem_map_of_mem hin) hz
      · exact ih hzs hin hin'

theorem hasNumber_claimed {s t : Store} (h : t.reservations.map claimed = s.reservations.map claimed) {n num : Nat} :
    t.HasNumber n num ↔ s.HasNumber n num := by
  have hc (u : Store) : u.HasNumber n num ↔
      ∃ x ∈ u.reservations.map claimed, x.number = num ∧ slotCarousel x.slot = n := by
    constructor
    · rintro ⟨x, hx, hn⟩
      exact ⟨claimed x, List.mem_map_of_mem hx, hn⟩
    · rintro ⟨_, hm, hn⟩
      obtain ⟨x, hx, rfl⟩ := List.mem_map.mp hm
      exact ⟨x, hx, hn⟩
  rw [hc, hc, h]

theorem numbers_claimed {s t : Store} (h : t.reservations.map claimed = s.reservations.map claimed) :
    t.reservations.map (fun r => r.number) = s.reservations.map fun r => r.number := by
  have hc (u : Store) : u.reservations.map (fun r => r.number) = (u.reservations.map claimed).map fun r => r.number := by
    rw [List.map_map]; rfl
  rw [hc, hc, h]

namespace MotionIn

variable {n : Nat} {s t : Store}

theorem moved (h : MotionIn K n s) (hm : Moves Part.motion s t) : MotionIn K n t :=
  ⟨h.own, h.others.imp_left fun hd => by rw [Distinct, numbers_claimed (motion_claimed hm)]; exact hd⟩

theorem any (h : ∀ p, Part.motion p → K p) : MotionIn K n s :=
  ⟨fun p hp => h p (Part.motion_of_motionOf p hp), .inr h⟩

/-- The carousel of the reservation that a number finds. -/
theorem of_number (h : MotionIn K n s) {num : Nat} (hn : s.HasNumber n num) {r : Reservation}
    (hr : s.reservation num = some r) : MotionIn K (slotCarousel r.slot) s := by
  obtain ⟨x, hx, hnum, hc⟩ := hn
  rcases h.others with hd | hall
  · have hrnum : r.number = num := by
      have hf := List.find?_some (p := fun r : Reservation => r.number == num) hr
      simpa using hf
    have hrx : r = x := eq_of_nodup_map hd (List.mem_of_find?_eq_some hr) hx (hrnum.trans hnum.symm)
    rw [hrx, hc]
    exact h
  · exact any hall

end MotionIn

theorem reservedOn_hasNumber {s : Store} {n num : Nat} (h : num ∈ s.reservedOn n) : s.HasNumber n num := by
  simp only [reservedOn, onCarousel, List.mem_map, List.mem_filter, beq_iff_eq] at h
  obtain ⟨x, ⟨⟨hx, hc⟩, _⟩, hnum⟩ := h
  exact ⟨x, hx, hnum, hc⟩

/-- A fold over the numbers that reservations of carousel `n` have. -/
theorem foldl_numbers_moves {n : Nat} (g : Store → Nat → Store)
    (hm : ∀ s num, Moves Part.motion s (g s num))
    (hg : ∀ s num, MotionIn K n s → s.HasNumber n num → Moves K s (g s num)) (nums : List Nat) (s : Store)
    (hK : MotionIn K n s) (hn : ∀ num ∈ nums, s.HasNumber n num) : Moves K s (nums.foldl g s) := by
  induction nums generalizing s with
  | nil => exact .refl s
  | cons num nums ih =>
    have hc := motion_claimed (hm s num)
    exact (hg s num hK (hn num List.mem_cons_self)).trans (ih (g s num) (hK.moved (hm s num)) fun x hx =>
      (hasNumber_claimed hc).mpr (hn x (List.mem_cons_of_mem _ hx)))

/-! ## Service (R37, R38, R40) -/

theorem placeCore_moves_any (s : Store) (num : Nat) : Moves Part.motion s (s.placeCore num).1 :=
  placeCore_moves s num fun _ _ => Part.motion_of_motionOf

theorem retryCore_moves {s : Store} {n : Nat} (hK : MotionIn K n s) : Moves K s (s.retryCore n) := by
  have hc : ∀ a c, Moves K s (s.countCore n a c).1 ∧ Moves Part.motion s (s.countCore n a c).1 := fun a c =>
    ⟨(countCore_moves s n a c).mono hK.own, (countCore_moves s n a c).mono Part.motion_of_motionOf⟩
  have hp {t : Store} (ht : Moves Part.motion s t) :
      Moves K t ((t.reservedOn n).foldl (fun s num => (s.placeCore num).1) t) :=
    foldl_numbers_moves _ placeCore_moves_any (fun u num hu hn => placeCore_moves u num fun r hr =>
      (hu.of_number hn hr).own) _ t (hK.moved ht) fun _ => reservedOn_hasNumber
  simp only [retryCore]
  split
  · exact (hc _ _).1.trans (hp (hc _ _).2)
  · exact hp (.refl s)

/-- The service of one face, where no presentation is open at it. -/
theorem serveFace_moves (s : Store) (n p f : Nat) (hp : (s.face (faceIndex n f)).state ≠ .presenting) :
    Moves (Part.serving n f) s (s.serveFace n p f).1 := by
  simp only [serveFace]
  split
  · exact .refl _
  · next e he =>
    have hh : (s.face (faceIndex n f)).state = .idle := by
      have hs := List.find?_some he
      simp only [satisfied, Bool.and_eq_true, Bool.not_eq_true', faceHalted, beq_eq_false_iff_ne] at hs
      cases hst : (s.face (faceIndex n f)).state <;> simp_all
    have hc (q : List QueueEntry) : Moves (Part.serving n f) s (s.setChannel n { s.channel n with queue := q }) :=
      setChannel_moves (by simp) (by simp) s _ rfl ⟨rfl, rfl, rfl⟩
    have hopen (q : List QueueEntry) (x : Face) (hx : x.state = .presenting)
        (hd : x.desired = ((s.setChannel n { s.channel n with queue := q }).face (faceIndex n f)).desired) :
        Moves (Part.serving n f) (s.setChannel n { s.channel n with queue := q })
          ((s.setChannel n { s.channel n with queue := q }).putFace (faceIndex n f) x) :=
      .one (by simp) (.opens _ _ x (by rw [face, setChannel_faces]; exact hh) hx hd)
    split
    · exact (hc _).trans (openWork_moves (fun _ h => h) _ _ _ (hopen _))
    · exact (hc _).trans (openCount_moves (fun _ h => h) _ _ _ (hopen _))

/-- Service at a position, where no presentation is open. -/
theorem serveAt_moves {s : Store} {n : Nat} (p : Nat) (hK : MotionIn K n s)
    (hp : ∀ f, f < 2 → (s.face (faceIndex n f)).state ≠ .presenting) : Moves K s (s.serveAt n p) := by
  have h0 := serveFace_moves s n p 0 (hp 0 (by decide))
  have h1 := serveFace_moves (s.serveFace n p 0).1 n p 1 (by
    rw [h0.face (by simp [faceIndex]) (by simp) (by simp)]
    exact hp 1 (by decide))
  have hm0 := h0.mono (Part.motionOf_of_serving (by decide))
  have hm1 := h1.mono (Part.motionOf_of_serving (by decide))
  have hK1 := hK.moved ((hm0.trans hm1).mono Part.motion_of_motionOf)
  simp only [serveAt]
  split
  · exact ((hm0.trans hm1).mono hK.own).trans (retryCore_moves hK1)
  · exact (hm0.trans hm1).mono hK.own

theorem mayServe_still {s : Store} {n : Nat} (h : s.mayServe n = true) :
    (s.channel n).state = .idle ∧ ∀ f, f < 2 → (s.face (faceIndex n f)).state ≠ .presenting := by
  refine ⟨idle_of_mayServe h, fun f hf => ?_⟩
  simp only [mayServe, facePresenting, Bool.and_eq_true, Bool.not_eq_true', beq_eq_false_iff_ne] at h
  obtain ⟨⟨⟨_, h0⟩, h1⟩, _⟩ := h
  match f, hf with
  | 0, _ => exact h0
  | 1, _ => exact h1

theorem sendMove_moves {s : Store} {n : Nat} (h : s.mayServe n = true) (p t : Nat) :
    Moves (Part.motionOf n) s (s.sendMove n p t) := by
  obtain ⟨hidle, hf⟩ := mayServe_still h
  have hset (c : Channel) (hs : c.standing = (s.channel n).standing) (hc : c.state = .moving) :
      Moves (Part.motionOf n) s (s.setChannel n c) := by
    have hd := Moves.one (K := Part.motionOf n) (by simp) (.depart s n c hs hidle hc hf)
    simp only [setChannel]
    split
    · exact hd
    · exact hd.trans (list_moves (by simp) _ _)
  simp only [sendMove, changeChannel, hidle]
  exact (hset _ (by simp [Channel.standing, hidle]) rfl).trans (deriveBoth_moves _ _)

theorem serviceCheck_moves {s : Store} {n : Nat} (hK : MotionIn K n s) : Moves K s (s.serviceCheck n) := by
  unfold serviceCheck
  split
  · next h =>
    split
    · exact .refl _
    · dsimp only
      split
      · exact serveAt_moves _ hK (mayServe_still h).2
      · exact (sendMove_moves h _ _).mono hK.own
  · exact .refl _

theorem serviceAfter_moves {s : Store} {x : Store × Bool} {n : Nat} (h : Moves (Part.motionOf n) s x.1)
    (hK : MotionIn K n s) : Moves K s (serviceAfter x n) := by
  unfold serviceAfter
  split
  · exact (h.mono hK.own).trans (serviceCheck_moves (hK.moved (h.mono Part.motion_of_motionOf)))
  · exact h.mono hK.own

/-! ## Placement, counts and removal -/

theorem place_moves {s : Store} {num : Nat}
    (hK : ∀ r, s.reservation num = some r → MotionIn K (slotCarousel r.slot) s) : Moves K s (s.place num) := by
  unfold place
  split
  · exact .refl _
  · next r hr =>
    refine serviceAfter_moves (placeCore_moves s num fun x hx => ?_) (hK r hr)
    obtain rfl := Option.some.inj (hr.symm.trans hx)
    exact fun p hp => hp

theorem place_moves_any (s : Store) (num : Nat) : Moves Part.motion s (s.place num) :=
  place_moves fun _ _ => .any fun _ h => h

theorem countRequest_moves {s : Store} {n : Nat} (hK : MotionIn K n s) (a c : Nat) :
    Moves K s (s.countRequest n a c) := serviceAfter_moves (countCore_moves s n a c) hK

theorem countRequest_moves_any (s : Store) (n a c : Nat) : Moves Part.motion s (s.countRequest n a c) :=
  countRequest_moves (.any fun _ h => h) a c

theorem retry_moves {s : Store} {n : Nat} (hK : MotionIn K n s) : Moves K s (s.retry n) := by
  have hp {t : Store} (ht : Moves Part.motion s t) : Moves K t ((t.reservedOn n).foldl place t) :=
    foldl_numbers_moves _ place_moves_any (fun _ _ hu hn => place_moves fun _ hr => hu.of_number hn hr) _ t
      (hK.moved ht) fun _ => reservedOn_hasNumber
  simp only [retry]
  split
  · exact (countRequest_moves hK _ _).trans (hp (countRequest_moves_any _ _ _ _))
  · exact hp (.refl s)

theorem detach_moves (s : Store) (n num : Nat) : Moves (Part.motionOf n) s (s.detach n num).1 :=
  setChannel_moves (by simp) (by simp) s _ rfl ⟨rfl, rfl, rfl⟩

theorem afterRemoval_moves {s : Store} {n : Nat} (hK : MotionIn K n s) : Moves K s (s.afterRemoval n) :=
  (retry_moves hK).trans (serviceCheck_moves (hK.moved (retry_moves (.any fun _ h => h))))

/-! ## The counting check (R158) -/

theorem countingCheck_moves {s : Store} {n : Nat} (hK : s.inService n = true → MotionIn K n s) :
    Moves K s (s.countingCheck n) := by
  unfold countingCheck
  split
  · next h =>
    simp only [Bool.and_eq_true] at h
    have hK := hK h.1
    split
    · exact .refl _
    · next a _ =>
      split
      · exact .refl _
      · next e he =>
        have hm := Moves.one (K := Part.motionOf n) (by simp) (.entry s a e { e with state := .counting .requested }
          (audit_of_entry he) ⟨rfl, rfl, rfl⟩)
        exact (hm.mono hK.own).trans (countRequest_moves (hK.moved (hm.mono Part.motion_of_motionOf)) _ _)
  · exact .refl _

theorem countingCheck_moves_any (s : Store) (n : Nat) : Moves Part.motion s (s.countingCheck n) :=
  countingCheck_moves fun _ => .any fun _ h => h

end Store

end Sys2Proof.Machine

end

/-! # What claims, plans, orders and audits touch

The operations that claim slots move only carousels in service: `Served C K s` says that `K` names what such a claim
touches, either because it names all motion, or because it names all but one carousel, which is out of service. -/

section

namespace Sys2Proof.Machine

open Sys2Proof

/-- A claim of the Planner, not of the Order Table. -/
@[simp] def Claim.IsPut : Claim → Prop
  | .put _ => True
  | .pick _ _ => False

namespace Part

/-- What a claim on a slot touches, of the claims that `C` names. -/
@[simp] def claiming (C : Claim → Prop) : Part → Prop
  | .listing => True
  | .channel _ => True
  | .face _ => True
  | .placing => True
  | .mark _ => True
  | .entry _ => True
  | .stock _ => True
  | .quantity => True
  | .enter c _ => C c
  | _ => False

/-- Everything but the channel and the faces of carousel `n`, the entering of reservations on it, the end of
presentations and the counts. -/
@[simp] def off (n : Nat) : Part → Prop
  | .channel m => m ≠ n
  | .face i => i / 2 ≠ n
  | .opening _ => False
  | .closing _ => False
  | .enter _ q => q / 72 ≠ n
  | .count _ => False
  | .article => False
  | .requeuing => False
  | _ => True

/-- What the walk of an allocation pass touches (R101). -/
@[simp] def allocating : Part → Prop
  | .order _ => True
  | .waiting => True
  | p => claiming (fun _ => True) p

/-- What a planning run touches (R122). -/
@[simp] def planning : Part → Prop
  | .batch _ => True
  | p => claiming Claim.IsPut p

/-- What the Order Table touches at a completion, an admission and the end of a cancellation. -/
@[simp] def ordering : Part → Prop
  | .listing => True
  | .notice => True
  | .order _ => True
  | .lane _ => True
  | .admission => True
  | .waiting => True
  | .pass => True
  | _ => False

/-- What the Audit Unit touches at the creation of an entry and at promotion. -/
@[simp] def auditing : Part → Prop
  | .audit _ => True
  | .auditList => True
  | .notice => True
  | p => motion p

/-- Everything but the panels, the article table, the faces of queue entries, an opening over a presentation and the
claims of the Order Table. -/
@[simp] def releasing : Part → Prop
  | .enter c _ => c.IsPut
  | .panel _ => False
  | .article => False
  | .requeuing => False
  | .opening _ => False
  | _ => True

theorem claiming_of_motion {C : Claim → Prop} : ∀ p, motion p → claiming C p := by
  intro p h
  cases p <;> simp_all

theorem off_of_motionOf {m n : Nat} (h : m ≠ n) : ∀ p, motionOf m p → off n p := by
  intro p hp
  cases p <;> simp_all

theorem releasing_of_ordering : ∀ p, ordering p → releasing p := by
  intro p h
  cases p <;> simp_all

theorem releasing_of_auditing : ∀ p, auditing p → releasing p := by
  intro p h
  cases p <;> simp_all

theorem releasing_of_motion : ∀ p, motion p → releasing p := by
  intro p h
  cases p <;> simp_all

theorem releasing_of_planning : ∀ p, planning p → releasing p := by
  intro p h
  cases p <;> simp_all

end Part

namespace Moves

variable {K : Part → Prop} {s t : Store}

theorem distinct (h : Moves K s t) (hd : s.Distinct) : t.Distinct := by
  refine h.keeps (P := Store.Distinct) (fun p u v _ m hu => ?_) hd
  have hsame (hv : v.reservations.map (fun r => r.number) = u.reservations.map fun r => r.number) : v.Distinct :=
    show (v.reservations.map fun r => r.number).Nodup from hv ▸ hu
  have hst (n st) : ((u.setReservationState n st).reservations.map fun r => r.number) =
      u.reservations.map fun r => r.number := Store.numbers_claimed (Store.claimed_setReservationState _ _ _)
  cases m with
  | present => exact hsame (hst _ _)
  | queue => exact hsame (hst _ _)
  | requeue => exact hsame (hst _ _)
  | quantity _ n k =>
    refine hsame ?_
    simp only [Store.raiseQuantity, List.map_map]
    refine List.map_congr_left fun r _ => ?_
    simp only [Function.comp_apply]
    split <;> rfl
  | enter _ r _ hn =>
    simp only [Store.Distinct, List.map_append, List.map_cons, List.map_nil]
    refine List.nodup_append.mpr ⟨hu, List.pairwise_singleton _ _, fun a ha b hb => ?_⟩
    obtain ⟨x, hx, rfl⟩ := List.mem_map.mp ha
    rw [List.mem_singleton.mp hb]
    exact hn x hx
  | leave n => exact hu.sublist (List.Sublist.map _ List.filter_sublist)
  | _ => exact hsame (by simp)

theorem inService (h : Moves K s t) (n : Nat) : t.inService n = s.inService n := by
  have hst (c d : Channel) (hcd : c.standing = d.standing) :
      (if c.state = .moving then .idle else c.state) = if d.state = .moving then ChannelState.idle else d.state :=
    congrArg Channel.state hcd
  have := hst _ _ (h.channel_standing n)
  unfold Store.inService
  cases hc : (t.channel n).state <;> cases hd : (s.channel n).state <;> simp_all

end Moves

namespace Store

variable {K : Part → Prop} {C : Claim → Prop}

/-- `K` names what a claim on a slot touches, of the claims that `C` names. -/
def Served (C : Claim → Prop) (K : Part → Prop) (s : Store) : Prop :=
  (∀ p, Part.claiming C p → K p) ∨
    ∃ n, s.Distinct ∧ s.inService n = false ∧ ∀ p, Part.off n p → Part.claiming C p → K p

namespace Served

variable {s t : Store}

theorem moved {L : Part → Prop} (h : Served C K s) (hm : Moves L s t) : Served C K t :=
  h.imp_right fun ⟨n, hd, hn, hK⟩ => ⟨n, hm.distinct hd, by rw [hm.inService, hn], hK⟩

theorem any (h : ∀ p, Part.claiming C p → K p) : Served C K s := .inl h

/-- The parts of a claim that belong to no carousel. -/
theorem part (h : Served C K s) {p : Part} (hc : Part.claiming C p) (ho : ∀ n, Part.off n p) : K p :=
  h.elim (fun h => h p hc) fun ⟨n, _, _, hK⟩ => hK p (ho n) hc

theorem motionIn (h : Served C K s) {n : Nat} (hn : s.inService n = true) : MotionIn K n s := by
  rcases h with h | ⟨m, hd, hm, hK⟩
  · exact .any fun p hp => h p (Part.claiming_of_motion p hp)
  · have hne : n ≠ m := fun e => by rw [e, hm] at hn; exact nomatch hn
    exact ⟨fun p hp => hK p (Part.off_of_motionOf hne p hp)
      (Part.claiming_of_motion p (Part.motion_of_motionOf p hp)), .inl hd⟩

theorem enter (h : Served C K s) {q : Nat} (hq : s.inService (slotCarousel q) = true) {c : Claim} (hc : C c) :
    K (.enter c q) := by
  rcases h with h | ⟨m, _, hm, hK⟩
  · exact h _ hc
  · refine hK _ (fun e => ?_) hc
    rw [show slotCarousel q = m from e, hm] at hq
    exact nomatch hq

end Served

/-! ## Claims (R15) -/

theorem onBay_counts (b : Nat) (f : Slot → Slot) (c : Carrier) (hf : ∀ x, (f x).count = x.count) (b' : Nat) :
    (look (onBay b f c).bays Slot.empty b').count = (look c.bays Slot.empty b').count := by
  simp only [onBay, look_put]
  split
  · next h => rw [hf, h.1]
  · rfl

theorem settle_count (x : Slot) : x.settle.count = x.count := by
  unfold Slot.settle
  split <;> rfl

theorem changeSlot_moves {q : Nat} {f : Slot → Slot} (hf : ∀ x, (f x).count = x.count)
    (hK : K (.stock (slotRecord q))) (hl : K .listing) (s : Store) : Moves K s (s.changeSlot q f) :=
  updCarrier_moves hK hl (.stock s _ _ (onBay_counts _ _ _ fun x => (settle_count _).trans (hf x)) id)

theorem reservation_entered {s : Store} {r : Reservation} (h : ∀ x ∈ s.reservations, x.number ≠ r.number) {t : Store}
    (ht : t.reservations = s.reservations ++ [r]) : t.reservation r.number = some r := by
  have hnone : s.reservations.find? (fun x => x.number == r.number) = none :=
    List.find?_eq_none.mpr fun x hx => by simpa using h x hx
  simp [reservation, ht, List.find?_append, hnone]

theorem takeClaim_moves {s : Store} {q : Nat} (hK : Served C K s) (hq : s.inService (slotCarousel q) = true)
    {claim : Claim} (hc : C claim) (k : Nat) {f : Slot → Slot} (hf : ∀ x, (f x).count = x.count) :
    Moves K s (s.takeClaim claim q k f).2 := by
  have hslot (t : Store) : Moves K t (t.changeSlot q f) :=
    changeSlot_moves hf (hK.part trivial fun _ => trivial) (hK.part trivial fun _ => trivial) t
  unfold takeClaim
  split
  · exact (Moves.one (hK.part (p := .quantity) trivial fun _ => trivial) (.quantity s _ _)).trans (hslot _)
  · split
    · next hl =>
      have hfresh := freeNumber_fresh s hl
      have hm := (Moves.one (hK.enter hq hc) (.enter s ⟨s.freeNumber, claim, q, k, .reserved⟩ rfl hfresh)).trans
        (hslot _)
      refine hm.trans (place_moves fun r hr => ?_)
      obtain rfl := Option.some.inj
        ((reservation_entered (s := s) (r := ⟨s.freeNumber, claim, q, k, .reserved⟩) hfresh
          (updCarrier_reservations _ _ _)).symm.trans hr)
      exact (hK.moved hm).motionIn (by rw [hm.inService, hq])
    · exact .refl _

theorem inService_of_eligible {s : Store} {q : Nat} (h : s.eligible q = true) : s.inService (slotCarousel q) = true := by
  simp only [eligible, Bool.and_eq_true] at h
  exact h.2

theorem claimPick_moves {s : Store} (hK : Served C K s) {o l : Nat} (hc : C (.pick o l)) (q a k : Nat) : Moves K s (s.claimPick q o l a k).2 := by
  unfold claimPick
  split
  · next h =>
    simp only [pickAllowed, Bool.and_eq_true] at h
    exact takeClaim_moves hK (inService_of_eligible h.1.1.1) hc _ fun _ => rfl
  · exact .refl _

theorem claimPut_moves {s : Store} (hK : Served C K s) {b : Nat} (hc : C (.put b)) (q a w k : Nat) : Moves K s (s.claimPut q b a w k).2 := by
  unfold claimPut
  split
  · next h =>
    simp only [putAllowed, Bool.and_eq_true] at h
    exact takeClaim_moves hK (inService_of_eligible h.1.1.1) hc _ fun _ => rfl
  · exact .refl _

/-! ## Planning (R118 to R129) -/

theorem updBatch_moves {b : Nat} (hK : K (.batch b)) (s : Store) (f : Batch → Batch) : Moves K s (s.updBatch b f) := by
  unfold updBatch
  split
  · exact .one hK (.batch s b _)
  · exact .refl _

theorem offer_moves {b : Nat} {x : Run} (hK : Served C K x.store) (hc : C (.put b)) (hb : K (.batch b)) (a w q : Nat) :
    Moves K x.store (Run.offer b a w x q).store := by
  simp only [Run.offer]
  split
  · exact .refl _
  · have h := claimPut_moves hK hc q a w (x.store.quantityFor q (x.store.weightOf a) x.remaining)
    split <;> rename_i heq <;> rw [heq] at h
    · exact h.trans (updBatch_moves hb _ _)
    · exact .refl _
    · exact .refl _

theorem topUp_moves {b : Nat} {x : Run} (hK : Served C K x.store) (hc : C (.put b)) (hb : K (.batch b)) (a w : Nat) :
    Moves K x.store (Run.topUp b a w x).store := by
  unfold Run.topUp
  generalize List.range 288 = qs
  induction qs generalizing x with
  | nil => exact .refl _
  | cons q qs ih =>
    have h : Moves K x.store (if x.goesOn && x.store.topUpCandidate a w q then Run.offer b a w x q else x).store := by
      split
      · exact offer_moves hK hc hb _ _ _
      · exact .refl _
    exact h.trans (ih (hK.moved h))

theorem fillEmpty_moves {b : Nat} {x : Run} (hK : Served C K x.store) (hc : C (.put b)) (hb : K (.batch b)) (a w n : Nat) :
    Moves K x.store (Run.fillEmpty b a w n x).store := by
  induction n generalizing x with
  | zero => exact .refl _
  | succ n ih =>
    unfold Run.fillEmpty
    split
    · split
      · exact .refl _
      · have h := offer_moves (x := x) hK hc hb a w
        exact (h _).trans (ih (hK.moved (h _)))
    · exact .refl _

theorem planRun_moves {s : Store} {b : Nat} (hK : Served C K s) (hc : C (.put b)) (hb : K (.batch b)) (q : Nat) :
    Moves K s (s.planRun b q).1 := by
  unfold planRun
  split
  · exact .refl _
  · next x _ =>
    have h := topUp_moves (x := ⟨s, q, [], false⟩) hK hc hb x.article x.lotWeek
    generalize (288 : Nat) = n
    exact h.trans (fillEmpty_moves (hK.moved h) hc hb _ _ _)

theorem batchCheck_moves {b : Nat} (hb : K (.batch b)) (hn : K .notice) (s : Store) : Moves K s (s.batchCheck b) := by
  unfold batchCheck
  split
  · exact .refl _
  · split
    · exact (Moves.one hb (.batch s b _)).trans (raise_moves hn _ _ _)
    · exact .refl _

theorem addUnplaced_moves {b : Nat} (hb : K (.batch b)) (hn : K .notice) (s : Store) (k : Nat) :
    Moves K s (s.addUnplaced b k) := by
  simp only [addUnplaced]
  split
  · exact (updBatch_moves hb _ _).trans (raise_moves hn _ _ _)
  · exact updBatch_moves hb _ _

theorem batchConfirmed_moves {b : Nat} (hb : K (.batch b)) (hn : K .notice) (s : Store) (k q : Nat) :
    Moves K s (s.batchConfirmed b k q) :=
  ((updBatch_moves hb _ _).trans (addUnplaced_moves hb hn _ _)).trans (batchCheck_moves hb hn _)

theorem batchReleased_moves {s : Store} {b : Nat} (hK : Served C K s) (hc : C (.put b)) (hb : K (.batch b))
    (hn : K .notice) (q : Nat) :
    Moves K s (s.batchReleased b q) := by
  have h := updBatch_moves hb s fun y => { y with planned := y.planned - q }
  exact ((h.trans (planRun_moves (hK.moved h) hc hb _)).trans (addUnplaced_moves hb hn _ _)).trans
    (batchCheck_moves hb hn _)

theorem batchNoticeWritten_moves {b : Nat} (hb : K (.batch b)) (s : Store) : Moves K s (s.batchNoticeWritten b) := by
  unfold batchNoticeWritten
  split
  · exact .one hb (.batch s b _)
  · exact .refl _
  · exact .refl _

end Store

end Sys2Proof.Machine

end

/-! # What the Order Table and the allocation pass touch -/

section

namespace Sys2Proof.Machine

open Sys2Proof

namespace Store

variable {K : Part → Prop} {C : Claim → Prop}

/-! ## Lanes and orders -/

theorem putLane_moves {l : Nat} (hK : K (.lane l)) (s : Store) (x : Lane) : Moves K s (s.putLane l x) :=
  .one hK (.lane s l x)

theorem setLane_moves {l : Nat} (hK : K (.lane l)) (hl : K .listing) (s : Store) (x : Lane) :
    Moves K s (s.setLane l x) := by
  simp only [setLane]
  split
  · exact putLane_moves hK s x
  · exact (putLane_moves hK s x).trans (list_moves hl _ _)

theorem putOrder_moves {k : Nat} (hK : K (.order k)) (s : Store) (o : Option Order) : Moves K s (s.putOrder k o) :=
  .one hK (.order s k o)

theorem putLine_moves {k : Nat} (hK : K (.order k)) (s : Store) (l : Nat) (f : Line → Line) :
    Moves K s (s.putLine k l f) := by
  unfold putLine
  split
  · exact putOrder_moves hK s _
  · exact .refl _

theorem joinWaiting_moves (hK : K .waiting) (s : Store) (e : Nat × Nat) : Moves K s (s.joinWaiting e) := by
  unfold joinWaiting
  split
  · exact .refl _
  · exact .one hK (.waiting s _)

theorem leaveWaiting_moves (hK : K .waiting) (s : Store) (k : Nat) : Moves K s (s.leaveWaiting k) :=
  .one hK (.waiting s _)

theorem freeLane_moves {l : Nat} (hK : K (.lane l)) (hn : K .notice) (s : Store) (b : Bool) :
    Moves K s (s.freeLane l b) := by
  have h (x : Lane) := putLane_moves hK s x
  simp only [freeLane]
  split
  · split
    · exact (h _).trans (raise_moves hn _ _ _)
    · split
      · exact (h _).trans (raise_moves hn _ _ _)
      · exact h _
  · split
    · exact (h _).trans (raise_moves hn _ _ _)
    · exact h _

theorem assignLane_moves {l : Nat} (hK : K (.lane l)) (hl : K .listing) (s : Store) (k : Nat) :
    Moves K s (s.assignLane l k).1 := (putLane_moves hK s _).trans (list_moves hl _ _)

theorem weighLane_moves (s : Store) (l : Nat) (r : Int) : Moves Part.ordering s (s.weighLane l r).1 := by
  have h (x : Lane) : Moves Part.ordering s (s.setLane l x) := setLane_moves trivial trivial s x
  simp only [weighLane]
  split
  · split
    · exact .refl _
    · exact h _
    · exact (h _).trans (raise_moves trivial _ _ _)
    · exact .refl _
  · split
    · exact h _
    · exact .refl _
    · exact .refl _
    · exact .refl _

theorem confirmLane_moves (s : Store) (l k w t : Nat) : Moves Part.ordering s (s.confirmLane l k w t).1 := by
  simp only [confirmLane]
  split
  · exact .refl _
  · exact (putLane_moves trivial s _).trans (list_moves trivial _ _)

theorem laneDone_moves {l : Nat} (hK : K (.lane l)) (hl : K .listing) (s : Store) : Moves K s (s.laneDone l) :=
  (putLane_moves hK s _).trans (list_moves hl _ _)

theorem laneAbandoned_moves {l : Nat} (hK : K (.lane l)) (hl : K .listing) (s : Store) :
    Moves K s (s.laneAbandoned l) := (putLane_moves hK s _).trans (list_moves hl _ _)

theorem completionCheck_moves (s : Store) (k : Nat) : Moves Part.ordering s (s.completionCheck k) := by
  unfold completionCheck
  split
  · split
    · exact .refl _
    · next o _ =>
      have h : Moves Part.ordering s ((s.putOrder k (some { o with state := .complete })).leaveWaiting k) :=
        (putOrder_moves trivial s _).trans (leaveWaiting_moves trivial _ _)
      dsimp only
      refine .after (raise_moves trivial _ _ _) (.after (list_moves trivial _ _) ?_)
      split
      · exact h.trans (laneDone_moves trivial trivial _)
      · exact h
  · exact .refl _

theorem matchReport_moves (s : Store) (l : Nat) : Moves Part.ordering s (s.matchReport l) := by
  unfold matchReport
  split
  · exact completionCheck_moves _ _
  · exact .refl _

theorem withReport_moves {s : Store} {x : Store × Bool} (h : Moves Part.ordering s x.1) (l : Nat) :
    Moves Part.ordering s (withReport x l) := by
  unfold withReport
  split
  · exact h.trans (matchReport_moves _ _)
  · exact h

theorem admitTo_moves (s : Store) (k l : Nat) : Moves Part.ordering s (s.admitTo k l) := by
  unfold admitTo
  split
  · exact .refl _
  · next o _ =>
    have h (o' : Option Order) (a : List Nat) (c : Half) (m : List Nat) : Moves Part.ordering s
        { s.putOrder k o' with admission := a, admissionCounter := c, admitted := m } :=
      (putOrder_moves trivial s o').trans (.one (p := .admission) trivial (.admission (s.putOrder k o') a c m))
    dsimp only
    refine .after (raise_moves trivial _ _ _) (.after (list_moves trivial _ _)
      (.after (Moves.foldl _ (fun s j => joinWaiting_moves trivial s _) _ _) (withReport_moves (.after
        (assignLane_moves trivial trivial _ _) (h _ _ _ _)) _)))

theorem passOver_moves (s : Store) (k : Nat) : Moves Part.ordering s (s.passOver k) := by
  unfold passOver
  split
  · exact .refl _
  · next o _ =>
    have h (o' : Option Order) : Moves Part.ordering s (s.setOrder k o') :=
      (putOrder_moves trivial s o').trans (list_moves trivial _ _)
    split
    · dsimp only
      split
      · exact (h _).trans (raise_moves trivial _ _ _)
      · exact h _
    · exact .refl _

theorem admissionWalk_moves (ks ahead : List Nat) (s : Store) (any : Bool) :
    Moves Part.ordering s (admissionWalk ks ahead s any).1 := by
  induction ks generalizing ahead s any with
  | nil => exact .refl _
  | cons k ks ih =>
    unfold admissionWalk
    split
    · split
      · exact .refl _
      · exact ih _ _ _
    · next l _ =>
      have h : Moves Part.ordering s (ahead.foldl passOver (s.admitTo k l)) :=
        (admitTo_moves s k l).trans (Moves.foldl _ passOver_moves _ _)
      dsimp only
      split
      · exact h
      · exact h.trans (ih _ _ _)

theorem triggerPass_moves (hK : K .pass) (s : Store) : Moves K s s.triggerPass := .one hK (.pass s true)

theorem admissionPass_moves (s : Store) : Moves Part.ordering s s.admissionPass := by
  simp only [admissionPass]
  split
  · exact (admissionWalk_moves _ _ _ _).trans (triggerPass_moves trivial _)
  · exact admissionWalk_moves _ _ _ _

theorem joinAdmission_moves (s : Store) (k : Nat) : Moves Part.ordering s (s.joinAdmission k) :=
  .one (p := .admission) trivial (.admission s _ s.admissionCounter s.admitted)

theorem freeOrder_moves (s : Store) (k : Nat) : Moves Part.ordering s (s.freeOrder k) := by
  have h : Moves Part.ordering s ((s.setOrder k none).raise (.order k) Flag.orderFreed) :=
    ((putOrder_moves trivial s none).trans (list_moves trivial _ _)).trans (raise_moves trivial _ _ _)
  exact h.trans (.one (p := .admission) trivial (.admission _ _ _ _))

theorem cancellationEnd_moves (s : Store) (k : Nat) : Moves Part.ordering s (s.cancellationEnd k) := by
  unfold cancellationEnd
  split
  · exact .refl _
  · split
    · split
      · dsimp only
        refine .after (list_moves trivial _ _) (.after (raise_moves trivial _ _ _) ?_)
        split
        · exact (putOrder_moves trivial s _).trans (laneAbandoned_moves trivial trivial _)
        · exact putOrder_moves trivial s _
      · dsimp only
        refine .after (admissionPass_moves _) (.after (freeOrder_moves _ _) ?_)
        split
        · exact (freeLane_moves trivial trivial s _).trans (list_moves trivial _ _)
        · exact .refl _
    · exact .refl _

theorem lineLowered_moves (s : Store) (k l q : Nat) : Moves Part.ordering s (s.lineLowered k l q) :=
  (putLine_moves trivial s l _).trans (list_moves trivial _ _)

theorem lineReleased_moves (s : Store) (k l q : Nat) : Moves Part.ordering s (s.lineReleased k l q) := by
  have h (f : Line → Line) : Moves Part.ordering s (s.putLine k l f) := putLine_moves trivial s l f
  simp only [lineReleased]
  split
  · exact ((h _).trans (joinWaiting_moves trivial _ _)).trans (list_moves trivial _ _)
  · exact ((h _).trans (cancellationEnd_moves _ _)).trans (list_moves trivial _ _)

theorem rejoin_moves (s : Store) (k l : Nat) : Moves Part.ordering s (s.rejoin k l) := by
  unfold rejoin
  split
  · exact .refl _
  · split
    · exact joinWaiting_moves trivial _ _
    · exact .refl _

theorem lineConfirmed_moves (s : Store) (o l k q : Nat) : Moves Part.ordering s (s.lineConfirmed o l k q) := by
  have h (f : Line → Line) : Moves Part.ordering s (if s.orderIs o .active then (s.putLine o l f).rejoin o l
      else s.putLine o l f) := by
    split
    · exact (putLine_moves trivial s l f).trans (rejoin_moves _ _ _)
    · exact putLine_moves trivial s l f
  simp only [lineConfirmed]
  refine .after (list_moves trivial _ _) ?_
  split
  · exact .after (raise_moves trivial _ _ _) (h _)
  · exact h _

theorem orderChecks_moves (s : Store) (o l : Nat) : Moves Part.ordering s (s.orderChecks o l) := by
  unfold orderChecks
  split
  · split
    · exact completionCheck_moves _ _
    · exact .refl _
  · exact cancellationEnd_moves _ _

/-! ## The allocation pass (R100 to R106) and the end of an event -/

theorem lineClaimed_moves {o : Nat} (ho : K (.order o)) (hw : K .waiting) (hl : K .listing) (s : Store) (l k : Nat)
    (w : Option Nat) : Moves K s (s.lineClaimed o l k w) := by
  simp only [lineClaimed]
  refine .after (list_moves hl _ _) ?_
  split
  · exact .after (.one hw (.waiting _ _)) (putLine_moves ho s l _)
  · exact putLine_moves ho s l _

theorem serveLine_moves {o : Nat} (ho : K (.order o)) (hw : K .waiting) (l : Nat) (w : Option Nat) (n : Nat) {s : Store}
    (hK : Served C K s) (hc : C (.pick o l)) : Moves K s (serveLine o l w n s).1 := by
  induction n generalizing s with
  | zero => exact .refl _
  | succ n ih =>
    unfold serveLine
    split
    · exact .refl _
    · split
      · exact .refl _
      · split
        · exact .refl _
        · rename_i x _ _ _ q _
          dsimp only
          have h := claimPick_moves hK hc q x.article (min (s.available q) x.need)
          split <;> rename_i heq <;> rw [heq] at h
          · have hl := h.trans (lineClaimed_moves ho hw (hK.part trivial fun _ => trivial) _ l
              (min (s.available q) x.need) w)
            exact hl.trans (ih (hK.moved hl))
          · exact h
          · exact h

theorem serveEntry_moves {s : Store} (hK : Served C K s) (e : Nat × Nat) (hc : C (.pick e.1 e.2))
    (ho : K (.order e.1)) (hw : K .waiting) : Moves K s (s.serveEntry e).1 := by
  unfold serveEntry
  split
  · exact .refl _
  · split
    · split
      · exact serveLine_moves ho hw _ _ _ hK hc
      · split
        · exact serveLine_moves ho hw _ _ _ hK hc
        · exact .refl _
    · exact serveLine_moves ho hw _ _ _ hK hc

theorem serveEntries_moves (hw : K .waiting) (es : List (Nat × Nat)) {s : Store} (hK : Served C K s)
    (he : ∀ e ∈ es, C (.pick e.1 e.2) ∧ K (.order e.1)) : Moves K s (serveEntries es s) := by
  induction es generalizing s with
  | nil => exact .refl _
  | cons e es ih =>
    have h := serveEntry_moves hK e (he e (.head _)).1 (he e (.head _)).2 hw
    simp only [serveEntries]
    split
    · exact h
    · exact h.trans (ih (hK.moved h) fun x hx => he x (.tail _ hx))

theorem allocationPass_moves {s : Store} (hK : Served C K s) (hw : K .waiting)
    (he : ∀ e ∈ s.waiting, C (.pick e.1 e.2) ∧ K (.order e.1)) (hp : s.passDue = true → K .pass) :
    Moves K s s.allocationPass := by
  unfold allocationPass
  split
  · next h =>
    have hm := Moves.one (hp h) (.pass s false)
    exact hm.trans (serveEntries_moves hw _ (hK.moved hm) he)
  · exact .refl _

theorem agreePanel_moves {p : Nat} (hK : K (.panel p)) (s : Store) : Moves K s (s.agreePanel p) := by
  simp only [agreePanel]
  split
  · split
    · exact .refl _
    · split
      · exact .one hK (.panel s p _)
      · exact .refl _
  · exact .refl _

theorem agreeAll_moves (hK : ∀ p, K (.panel p)) (s : Store) : Moves K s s.agreeAll :=
  Moves.foldl _ (fun s p => agreePanel_moves (hK p) s) _ s

/-- An event leaves no pass due: it runs the one that is due, and the displays trigger none (R100). -/
theorem eventEnd_passDue (s : Store) : s.eventEnd.passDue = false := by
  have ha (t : Store) : t.agreeAll.passDue = t.passDue :=
    (agreeAll_moves (K := fun p => ∃ q, p = .panel q) (fun q => ⟨q, rfl⟩) t).passDue (by simp)
  rw [eventEnd, ha, allocationPass]
  split
  · exact (serveEntries_moves (K := Part.allocating) (by simp) s.waiting (s := { s with passDue := false })
      (.any (C := fun _ => True) fun p h => by cases p <;> simp_all) fun _ _ => ⟨trivial, by simp⟩).passDue (by simp)
  · next h => simpa using h

end Store

end Sys2Proof.Machine

end

/-! # What audits, releases and confirmations touch -/

section

namespace Sys2Proof.Machine

open Sys2Proof

namespace Part

/-- What a face that halts or resumes moves (R36). -/
@[simp] def turning : Part → Prop
  | .requeuing => True
  | p => motion p

theorem turning_of_motion : ∀ p, motion p → turning p := by
  intro p h
  cases p <;> simp_all

/-- What the Audit Unit touches at a commit (R163). -/
@[simp] def committing : Part → Prop
  | .count _ => True
  | .pass => True
  | p => auditing p

theorem committing_of_auditing : ∀ p, auditing p → committing p := by
  intro p h
  cases p <;> simp_all

theorem auditing_of_motion : ∀ p, motion p → auditing p := by
  intro p h
  cases p <;> simp_all

/-- What the end of a presentation touches (R59, R66). -/
@[simp] def withdrawing : Part → Prop
  | .closing _ => True
  | p => committing p

theorem withdrawing_of_committing : ∀ p, committing p → withdrawing p := by
  intro p h
  cases p <;> simp_all

theorem withdrawing_of_motion : ∀ p, motion p → withdrawing p := by
  intro p h
  cases p <;> simp_all

theorem releasing_of_withdrawing : ∀ p, withdrawing p → releasing p := by
  intro p h
  cases p <;> simp_all

theorem releasing_of_committing : ∀ p, committing p → releasing p := by
  intro p h
  cases p <;> simp_all

end Part

namespace Store

variable {K : Part → Prop}

/-! ## Faces that halt and resume (R36) -/

theorem moveEntries_moves (s : Store) (n f g : Nat) : Moves Part.turning s (s.moveEntries n f g) := by
  simp only [moveEntries]
  refine .after (Moves.foldl _ (fun s e => ?_) _ _) (setChannel_moves (by simp) (by simp) s _ rfl ⟨rfl, rfl, rfl⟩)
  split
  · exact Moves.foldl _ (fun s n => .one (by simp) (.requeue s n g)) _ _
  · exact .refl _

theorem tellHalted_moves (s : Store) (n f : Nat) : Moves Part.turning s (s.tellHalted n f) := by
  unfold tellHalted
  split
  · exact .refl _
  · exact moveEntries_moves _ _ _ _

theorem tellWorking_moves (s : Store) (n f : Nat) : Moves Part.turning s (s.tellWorking n f) := by
  have hr (t : Store) : Moves Part.turning t ((t.retry n).serviceCheck n) :=
    ((retry_moves (.any fun _ h => h)).trans (serviceCheck_moves (.any fun _ h => h))).mono Part.turning_of_motion
  simp only [tellWorking]
  split
  · exact (moveEntries_moves _ _ _ _).trans (hr _)
  · exact hr _

/-! ## Audits (R154 to R166) -/

/-- A record and its place in the list, given to a new entry. -/
theorem withAudit_moves (s : Store) (a : Nat) (x : AuditRecord) (l : List Nat) :
    Moves Part.auditing s { s.setAudit a x with auditList := l } :=
  (Moves.one (K := Part.auditing) (by simp) (.audit s a x)).trans (.one (p := .auditList) (by simp) (.auditList _ l))

theorem askAudit_moves (s : Store) (r : Nat) (o : AuditOrigin) (tell : Bool) :
    Moves Part.auditing s (s.askAudit r o tell).2 := by
  unfold askAudit
  split
  · exact .refl _
  · split
    · exact .refl _
    · next a _ =>
      have h := (withAudit_moves s a (.listed (s.newEntry r o)) (s.auditList ++ [a])).trans
        (setFrozen_moves (by simp) (by simp) _ true (r := r))
      have hc (b : Bool) (t : Store) : Moves Part.auditing t (if b then t.countingCheck (r / 24) else t) := by
        split
        · exact (countingCheck_moves_any _ _).mono Part.auditing_of_motion
        · exact .refl _
      dsimp only
      split <;> split
      · exact .after (raise_moves (by simp) _ _ _) (h.trans (hc true _))
      · exact .after (raise_moves (by simp) _ _ _) h
      · exact h.trans (hc true _)
      · exact h

theorem stockAudit_moves (s : Store) (r : Nat) (o : AuditOrigin) : Moves Part.auditing s (s.stockAudit r o) := by
  have h := askAudit_moves s r o true
  unfold stockAudit
  split <;> rename_i heq <;> rw [heq] at h
  · exact h.trans (markWanted_moves (by simp) (by simp) _)
  · exact h
  · exact h

theorem promote_moves (s : Store) (tell : Bool) : Moves Part.auditing s (s.promote tell) := by
  refine Moves.foldl _ (fun s r => ?_) _ _
  simp only [promoteOne]
  split
  · exact askAudit_moves _ _ _ _
  · exact .refl _

/-- A carrier reported drained makes the counting check of its entry's carousel. -/
theorem drainedCheck_moves {s : Store} (hK : ∀ n, s.inService n = true → MotionIn K n s) (he : ∀ a, K (.entry a))
    (r : Nat) : Moves K s (s.drainedCheck r) := by
  unfold drainedCheck reportDrained
  split
  · split
    · exact .refl _
    · next a _ =>
      split
      · exact .refl _
      · next e hent =>
        split
        · have hm {L : Part → Prop} (h : L (.entry a)) := Moves.one h
            (.entry s a e { e with state := .ready } (audit_of_entry hent) ⟨rfl, rfl, rfl⟩)
          refine (hm (he a)).trans (countingCheck_moves fun hn => ?_)
          have hm' := hm (L := Part.motion) (by simp)
          exact (hK _ (by rw [← hm'.inService]; exact hn)).moved hm'
        · exact .refl _
  · exact .refl _

theorem drainedCheck_moves_any (s : Store) (r : Nat) : Moves Part.motion s (s.drainedCheck r) :=
  drainedCheck_moves (fun _ _ => .any fun _ h => h) (fun _ => by simp) r

theorem countConfirm_moves {a : Nat} (hK : K (.entry a)) (s : Store) (b k : Nat) :
    Moves K s (s.countConfirm a b k).1 := by
  unfold countConfirm
  split
  · exact .refl _
  · next e he => exact .one hK (.entry s a e _ (audit_of_entry he) ⟨rfl, rfl, rfl⟩)

theorem commitAudit_moves (s : Store) (a : Nat) : Moves Part.committing s (s.commitAudit a) := by
  unfold commitAudit
  split
  · exact .refl _
  · next e _ =>
    have hcount : Moves Part.committing s (s.updCarrier (recordOf e.carousel e.carrier) (s.commitCarrier e)) :=
      updCarrier_moves (by simp) (by simp) (.count s _ _)
    dsimp only
    refine .after (triggerPass_moves (by simp) _) (.after ((countingCheck_moves_any _ _).mono ?_)
      (.after ((promote_moves _ _).mono Part.committing_of_auditing) (.after (raise_moves (by simp) _ _ _)
        (.after (setFrozen_moves (by simp) (by simp) _ _)
          (.after ((withAudit_moves _ _ _ _).mono Part.committing_of_auditing) hcount)))))
    exact fun p h => Part.committing_of_auditing p (Part.auditing_of_motion p h)

theorem countClosed_moves (s : Store) (a : Nat) : Moves Part.committing s (s.countClosed a) := by
  unfold countClosed
  split
  · exact .refl _
  · split
    · exact commitAudit_moves _ _
    · exact .refl _

theorem auditNoticeWritten_moves (s : Store) (a : Nat) : Moves Part.auditing s (s.auditNoticeWritten a) := by
  unfold auditNoticeWritten
  split
  · exact (Moves.one (by simp) (.audit s a .free)).trans (promote_moves _ _)
  · exact .refl _
  · exact .refl _

theorem restart_moves (he : ∀ a, K (.entry a)) (hn : K .notice) (s : Store) (a : Nat) : Moves K s (s.restart a) := by
  unfold restart
  split
  · exact .refl _
  · next e hent =>
    split
    · exact .after (raise_moves hn _ _ _) (.one (he a) (.entry s a e _ (audit_of_entry hent) ⟨rfl, rfl, rfl⟩))
    · exact .refl _

theorem auditFence_moves (he : ∀ a, K (.entry a)) (hn : K .notice) (s : Store) (n : Nat) :
    Moves K s (s.auditFence n) := Moves.foldl _ (restart_moves he hn) _ s

theorem abandonCount_moves (s : Store) (n a : Nat) : Moves Part.auditing s (s.abandonCount n a) :=
  (restart_moves (fun _ => by simp) (by simp) s a).trans
    ((countingCheck_moves_any _ _).mono Part.auditing_of_motion)

/-! ## The end of a presentation (R59, R66) -/

theorem closePresentation_moves (s : Store) (n f : Nat) : Moves Part.withdrawing s (s.closePresentation n f) := by
  simp only [closePresentation]
  split
  · exact .refl _
  · next c hc =>
    have h : Moves Part.withdrawing s ((s.putFace (faceIndex n f)
        ((s.face (faceIndex n f)).ended .idle)).markFaceOpen (recordOf n c) false) :=
      (Moves.one (by simp) (.closes s _ (by rw [hc]; exact nofun))).trans (markFaceOpen_moves (by simp) (by simp) _ _)
    refine .after (list_moves (by simp) _ _) (.after (derive_moves (by simp) (by simp) _)
      (.after ((serviceCheck_moves (.any fun _ h => h)).mono Part.withdrawing_of_motion) ?_))
    split
    · split
      · exact h.trans ((countClosed_moves _ _).mono Part.withdrawing_of_committing)
      · exact h
    · exact h

theorem checkPresentation_moves (s : Store) (n f : Nat) : Moves Part.withdrawing s (s.checkPresentation n f) := by
  simp only [checkPresentation]
  split
  · exact closePresentation_moves _ _ _
  · exact (derive_moves (by simp) (by simp) _).trans (list_moves (by simp) _ _)

theorem dropItem_moves (s : Store) (n f num : Nat) : Moves Part.withdrawing s (s.dropItem n f num) := by
  simp only [dropItem]
  split
  · exact .refl _
  · refine .trans (.one (p := .face (faceIndex n f)) (by simp) (.bays s _ _ ?_)) (checkPresentation_moves _ _ _)
    split <;> exact ⟨rfl, rfl, rfl, rfl⟩

/-! ## Releases (R17) -/

theorem handBack_moves {s : Store} (hK : Served Claim.IsPut K s) (ho : ∀ p, Part.ordering p → K p)
    (hb : ∀ b, K (.batch b)) (r : Reservation) : Moves K s (s.handBack r) := by
  unfold handBack
  split
  · exact (lineReleased_moves _ _ _ _).mono ho
  · exact batchReleased_moves hK trivial (hb _) (ho _ trivial) _

theorem handBackCancelled_moves (s : Store) (r : Reservation) : Moves Part.ordering s (s.handBackCancelled r) := by
  unfold handBackCancelled
  split
  · exact lineLowered_moves _ _ _ _
  · exact .refl _

theorem releaseSlot_count (r : Reservation) (q : Slot) : (releaseSlot r q).count = q.count := by
  unfold releaseSlot
  split <;> rfl

/-- A reservation taken off the list and off its slot. -/
theorem taken_moves (hl : K .leaving) (hs : ∀ r, K (.stock r)) (hi : K .listing) (s : Store) (num : Nat)
    (r : Reservation) : Moves K s ((s.dropReservation num).changeSlot r.slot (releaseSlot r)) :=
  (Moves.one hl (.leave s num)).trans (changeSlot_moves (releaseSlot_count r) (hs _) hi _)

theorem withdraw_moves (s : Store) (r : Reservation) : Moves Part.withdrawing s (s.withdraw r).1 := by
  simp only [withdraw]
  split
  · exact .refl _
  · exact (detach_moves _ _ _).mono fun p h => Part.withdrawing_of_motion p (Part.motion_of_motionOf p h)
  · exact dropItem_moves _ _ _ _

theorem releaseOne_moves {back : Store → Reservation → Store} (hb : ∀ s r, Moves Part.releasing s (back s r))
    (x : Store × List Nat) (num : Nat) : Moves Part.releasing x.1 (releaseOne back x num).1 := by
  unfold releaseOne
  split
  · exact .refl _
  · exact (((taken_moves (by simp) (fun _ => by simp) (by simp) _ _ _).trans (hb _ _)).trans
      ((withdraw_moves _ _).mono Part.releasing_of_withdrawing)).trans ((drainedCheck_moves_any _ _).mono Part.releasing_of_motion)

theorem afterRemoval_moves_any (s : Store) (n : Nat) : Moves Part.motion s (s.afterRemoval n) :=
  afterRemoval_moves (.any fun _ h => h)

theorem releaseMany_moves {back : Store → Reservation → Store} (hb : ∀ s r, Moves Part.releasing s (back s r))
    (s : Store) (nums : List Nat) : Moves Part.releasing s (releaseMany back s nums) := by
  have h (xs : List Nat) (x : Store × List Nat) : Moves Part.releasing x.1 (xs.foldl (releaseOne back) x).1 := by
    induction xs generalizing x with
    | nil => exact .refl _
    | cons y ys ih => exact (releaseOne_moves hb x y).trans (ih _)
  unfold releaseMany
  split
  · exact .refl _
  · exact ((h nums (s, [])).trans (triggerPass_moves (by simp) _)).trans
      (Moves.foldl _ (fun s n => (afterRemoval_moves_any s n).mono Part.releasing_of_motion) _ _)

theorem handBack_moves_any (s : Store) (r : Reservation) : Moves Part.releasing s (s.handBack r) :=
  handBack_moves (.any fun p h => by cases p <;> simp_all) Part.releasing_of_ordering (fun _ => by simp) r

theorem suspectMark_moves (s : Store) (r : Nat) : Moves Part.releasing s (s.suspectMark r) := by
  simp only [suspectMark]
  split
  · exact .refl _
  · exact .after ((stockAudit_moves _ _ _).mono Part.releasing_of_auditing)
      (.after (releaseMany_moves handBack_moves_any _ _)
        (updCarrier_moves (by simp) (by simp) (.mark s r _ ⟨rfl, rfl⟩ fun _ => rfl)))

/-! ## Confirmations (R19, R20, R62 to R65) -/

theorem confirmSlot_moves (s : Store) (num q : Nat) (f : Slot → Slot) :
    Moves Part.releasing s ((s.dropReservation num).changeSlot q f) :=
  (Moves.one (by simp) (.leave s num)).trans (updCarrier_moves (by simp) (by simp) (.count _ _ _))

/-- What the lane of a confirmed line takes of it (R142). -/
theorem confirmLaneOf_moves (t : Store) (o k w c : Nat) : Moves Part.ordering t
    (match (t.order o).bind fun x => x.lane with
      | some ln => withReport (t.confirmLane ln k w c) ln
      | none => t) := by
  split
  · exact withReport_moves (confirmLane_moves _ _ _ _ _) _
  · exact .refl _

theorem pickConfirm_moves (s : Store) (num k : Nat) : Moves Part.releasing s (s.pickConfirm num k) := by
  simp only [pickConfirm]
  split
  · exact .refl _
  · split
    · exact .refl _
    · next r _ _ o l _ =>
      refine .after (triggerPass_moves (by simp) _)
        (.after ((drainedCheck_moves_any _ _).mono Part.releasing_of_motion) ?_)
      have ho (t : Store) (w c : Nat) : Moves Part.releasing t _ :=
        ((confirmLaneOf_moves t o k w c).trans (orderChecks_moves _ o l)).mono Part.releasing_of_ordering
      have hl (f : Slot → Slot) := (confirmSlot_moves s num r.slot f).trans
        ((lineConfirmed_moves _ o l k r.quantity).mono Part.releasing_of_ordering)
      split
      · exact .after ((stockAudit_moves _ _ _).mono Part.releasing_of_auditing) (.after (ho _ _ _) (hl _))
      · exact .after (ho _ _ _) (hl _)

theorem putConfirm_moves (s : Store) (num k : Nat) : Moves Part.releasing s (s.putConfirm num k) := by
  simp only [putConfirm]
  split
  · exact .refl _
  · split
    · exact .refl _
    · exact ((((confirmSlot_moves s num _ _).trans (batchConfirmed_moves (by simp) (by simp) _ _ _)).trans
        ((drainedCheck_moves_any _ _).mono Part.releasing_of_motion))).trans (triggerPass_moves (by simp) _)

/-- A face with other bay lists, held bays and selection. -/
theorem putBays_moves (s : Store) (i : Nat) (b : Vector (List Item) 3) (l : List Nat) (x : Option Nat) :
    Moves Part.releasing s (s.putFace i { s.face i with bays := b, held := l, selected := x }) :=
  .one (p := .face i) (by simp) (.bays s i _ ⟨rfl, rfl, rfl, rfl⟩)

theorem recountItem_moves (s : Store) (i b a : Nat) : Moves Part.releasing s (s.recountItem i b a) :=
  putBays_moves s i _ _ _

theorem dispatch_moves (s : Store) (i b : Nat) (it : Item) : Moves Part.releasing s (s.dispatch i b it) := by
  simp only [dispatch]
  split
  · exact pickConfirm_moves _ _ _
  · exact putConfirm_moves _ _ _
  · split
    · exact .after (recountItem_moves _ _ _ _) (countConfirm_moves (by simp) _ _ _)
    · exact countConfirm_moves (by simp) _ _ _

theorem confirmBay_moves (s : Store) (i b : Nat) : Moves Part.releasing s (s.confirmBay i b) := by
  simp only [confirmBay]
  split
  · exact list_moves (by simp) _ _
  · exact .after ((checkPresentation_moves _ _ _).mono Part.releasing_of_withdrawing)
      (.after (dispatch_moves _ _ _ _) (putBays_moves s i _ _ _))

/-! ## Key events (R60 to R62) -/

theorem adjust_moves (s : Store) (i : Nat) (up : Bool) : Moves Part.releasing s (s.adjust i up) := by
  simp only [adjust]
  split
  · exact .refl _
  · split
    · exact .refl _
    · split
      · exact .refl _
      · exact .after (list_moves (by simp) _ _) (.after (derive_moves (by simp) (by simp) _)
          (putBays_moves s i _ _ _))

theorem bayMake_moves (s : Store) (i b : Nat) : Moves Part.releasing s (s.bayMake i b) := by
  simp only [bayMake, setFace]
  split
  · exact putBays_moves s i _ _ _
  · exact .after (list_moves (by simp) _ _) (putBays_moves s i _ _ _)

theorem bayBreak_moves (s : Store) (i b : Nat) : Moves Part.releasing s (s.bayBreak i b) := by
  simp only [bayBreak]
  split
  · exact .after (confirmBay_moves _ _ _) (putBays_moves s i _ _ _)
  · exact .refl _

theorem actKey_moves (s : Store) (i : Nat) (e : KeyEvent) : Moves Part.releasing s (s.actKey i e) := by
  unfold actKey
  split
  · split
    · split
      · exact bayMake_moves _ _ _
      · exact bayBreak_moves _ _ _
    · split
      · exact adjust_moves _ _ _
      · exact .refl _
  · exact .refl _

end Store

end Sys2Proof.Machine

end

/-! # The common checks, ARTICLE_DEFINE, SLOT_BLOCK and SLOT_UNBLOCK -/

section

namespace Sys2Proof.Machine

open Sys2Proof

/-! ## The common checks (R174) -/

/-- A row refuses an entry of its kind whose format code is not the request format. -/
theorem State.refuses_badFormat {s : State} {e : Nat} (he : e < Config.requestEntries)
    (hp : s.path.port = some ⟨.entryRead e, false⟩) (hr : s.intake.state = .reading e)
    (hf : Req.format (s.entryWords e) ≠ Config.requestFormat) {c : Instr} {isKind : Nat → Bool}
    {f : List Word → Store → Answer} (hc : exec c s = .next (s.requestRow isKind f))
    (hk : isKind (Req.kind (s.entryWords e)) = true) : s.Refuses c e .badField := by
  obtain ⟨hans, hstore⟩ := requestRow_badFormat he hp hr hk hf f
  exact ⟨_, hc, hans, hstore⟩

/-! ## ARTICLE_DEFINE (R12) -/

namespace Owner

theorem articleInRange_iff (a : Nat) (x : Article) :
    articleInRange a x = true ↔
      a ≤ 511 ∧ x.sizeClass ≤ 7 ∧ 1 ≤ x.weight ∧ x.weight ≤ 1000 ∧ x.tolerance ≤ 100 := by
  simp only [articleInRange, Bool.and_eq_true, decide_eq_true_eq, inRange_iff, and_assoc]

theorem changesHeld_iff (s : Store) (a : Nat) (x : Article) :
    changesHeld s a x = true ↔ (∃ q, q < 288 ∧ (s.slot q).article = some a) ∧
      ∃ y, s.article a = some y ∧ (x.sizeClass ≠ y.sizeClass ∨ x.weight ≠ y.weight) := by
  rw [← Store.articleHeld_iff]
  unfold changesHeld
  cases s.article a <;> simp

variable {ws : List Word} {s : Store}

theorem articleDefine_badField (h : ¬ articleInRange (Req.whole ws 2) (articleGiven ws) = true) :
    articleDefine ws s = .refuse s .badField := by simp [articleDefine, h]

theorem articleDefine_inUse (h : articleInRange (Req.whole ws 2) (articleGiven ws) = true)
    (hu : changesHeld s (Req.whole ws 2) (articleGiven ws) = true) : articleDefine ws s = .refuse s .inUse := by
  simp [articleDefine, h, hu]

theorem articleDefine_defines (h : articleInRange (Req.whole ws 2) (articleGiven ws) = true)
    (hu : ¬ changesHeld s (Req.whole ws 2) (articleGiven ws) = true) :
    articleDefine ws s = .accept (s.setArticle (Req.whole ws 2) (some (articleGiven ws))) .accepted [] := by
  simp [articleDefine, h, hu]

/-! ## SLOT_BLOCK and SLOT_UNBLOCK (R22, R23) -/

theorem slotFitted_iff (s : Store) (q : Nat) :
    slotFitted s q = true ↔ q ≤ 287 ∧ (s.cfg.carousel (q / 72)).fitted = true := by
  simp only [slotFitted, Bool.and_eq_true, decide_eq_true_eq]
  rfl

theorem slotBlock_notFitted (h : ¬ slotFitted s (Req.whole ws 2) = true) :
    slotBlock ws s = .refuse s .notFitted := by simp [slotBlock, h]

theorem slotBlock_frozen (h : slotFitted s (Req.whole ws 2) = true)
    (hf : (s.carrier (Req.whole ws 2 / 3)).frozen = true) : slotBlock ws s = .refuse s .frozen := by
  simp [slotBlock, h, Store.slotRecord, hf]

theorem slotBlock_blocks (h : slotFitted s (Req.whole ws 2) = true)
    (hf : ¬ (s.carrier (Req.whole ws 2 / 3)).frozen = true) :
    slotBlock ws s = .accept (s.setReason (Req.whole ws 2) (some .request)) .accepted [] := by
  simp [slotBlock, h, Store.slotRecord, hf]

theorem slotUnblock_notFitted (h : ¬ slotFitted s (Req.whole ws 2) = true) :
    slotUnblock ws s = .refuse s .notFitted := by simp [slotUnblock, h]

theorem slotUnblock_frozen (h : slotFitted s (Req.whole ws 2) = true)
    (hf : (s.carrier (Req.whole ws 2 / 3)).frozen = true) : slotUnblock ws s = .refuse s .frozen := by
  simp [slotUnblock, h, Store.slotRecord, hf]

theorem slotUnblock_wrongState (h : slotFitted s (Req.whole ws 2) = true)
    (hf : ¬ (s.carrier (Req.whole ws 2 / 3)).frozen = true) (hr : (s.slot (Req.whole ws 2)).blockReason = none) :
    slotUnblock ws s = .refuse s .wrongState := by
  simp [slotUnblock, h, Store.slotRecord, hf, hr]

theorem slotUnblock_unblocks (h : slotFitted s (Req.whole ws 2) = true)
    (hf : ¬ (s.carrier (Req.whole ws 2 / 3)).frozen = true) (hr : (s.slot (Req.whole ws 2)).blockReason ≠ none) :
    slotUnblock ws s = .accept (s.setReason (Req.whole ws 2) none).triggerPass .accepted [] := by
  obtain ⟨x, hx⟩ := Option.ne_none_iff_exists'.mp hr
  simp [slotUnblock, h, Store.slotRecord, hf, hx]

end Owner

namespace Store

variable {s t : Store} {q : Nat}

/-- What stands of a slot is the slot without what is reserved in it. -/
theorem slot_of_standing (h : t.standing = s.standing) (q : Nat) :
    { t.slot q with reserved := 0 } = { s.slot q with reserved := 0 } := by
  have hc : (t.carrier (slotRecord q)).standing = (s.carrier (slotRecord q)).standing := by
    rw [← standing_carrier, ← standing_carrier, h]
  have hb := congrArg (fun c : Carrier => look c.bays Slot.empty (slotBay q)) hc
  have hmap := fun c : Carrier => look_map (fun x : Slot => { x with reserved := 0 }) c.bays Slot.empty (slotBay q)
  exact (hmap _).symm.trans (hb.trans (hmap _))

theorem slot_blockReason_of_standing (h : t.standing = s.standing) (q : Nat) :
    (t.slot q).blockReason = (s.slot q).blockReason :=
  (congrArg Slot.blockReason (slot_of_standing h q) :)

theorem slot_setReason_self (hq : q < 288) (reason : Option BlockReason) :
    (s.setReason q reason).slot q = { s.slot q with blockReason := reason } := by
  have hrec : slotRecord q < 96 := by unfold slotRecord; omega
  have hbay : slotBay q < 3 := by unfold slotBay; omega
  simp only [slot, setReason, carrier, updCarrier_carriers, look_put_same _ _ _ _ hrec, onBay,
    look_put_same _ _ _ _ hbay]

theorem setReason_listed (s : Store) (q : Nat) (reason : Option BlockReason) :
    .carrier (q / 3) ∈ (s.setReason q reason).writeBack := mem_list_writeBack _ _

@[simp] theorem setReason_notices (s : Store) (q : Nat) (reason : Option BlockReason) :
    (s.setReason q reason).notices = s.notices := updCarrier_notices _ _ _

end Store

end Sys2Proof.Machine

end

section

open Sys2Proof Sys2Proof.Machine

/-- Settles O35. -/
theorem commonChecksRefuse : Obligations.CommonChecksRefuse := by
  intro s e he hp hr
  refine ⟨?_, ?_⟩
  · intro hf row hrow hk
    have hbad := fun {c : Instr} {isKind : Nat → Bool} {f : List Word → Store → Answer} =>
      State.refuses_badFormat (c := c) (isKind := isKind) (f := f) he hp hr hf
    have hkind : ∀ k, Req.kind (s.entryWords e) = k → (Req.kind (s.entryWords e) == k) = true :=
      fun k h => beq_iff_eq.mpr h
    simp only [List.mem_cons, List.not_mem_nil, or_false] at hrow
    rcases hrow with rfl | rfl | rfl | rfl | rfl | rfl | rfl | rfl | rfl | rfl | rfl | rfl <;>
      exact hbad rfl (hkind _ hk)
  · intro hk
    have hkind : (!inRange 1 12 (Req.kind (s.entryWords e))) = true := by
      simp only [Bool.not_eq_true', ← Bool.not_eq_true, inRange_iff]
      omega
    split
    · next hf => exact State.Reads.refuses ⟨he, hp, hr, rfl, hf⟩ (f := Owner.unknown) rfl hkind rfl
    · next hf => exact State.refuses_badFormat (f := Owner.unknown) he hp hr hf rfl hkind

/-- Settles O36. -/
theorem articleDefineSetsTheEntry : Obligations.ArticleDefineSetsTheEntry := by
  intro s e h ws a x good inUse
  have hrow : exec .articleDefine s = .next (s.requestRow (· == Code.articleDefine) Owner.articleDefine) := rfl
  have hkind : (Code.articleDefine == Code.articleDefine) = true := beq_self_eq_true _
  have hgood : Owner.articleInRange a x = true ↔ good := Owner.articleInRange_iff a x
  have huse : Owner.changesHeld s.store a x = true ↔ inUse := Owner.changesHeld_iff _ a x
  refine ⟨fun hg => ?_, fun hg hu => ?_, fun hg hu => ?_⟩
  · exact h.refuses hrow hkind (Owner.articleDefine_badField (mt hgood.mp hg))
  · exact h.refuses hrow hkind (Owner.articleDefine_inUse (hgood.mpr hg) (huse.mpr hu))
  · refine h.accepts hrow hkind (Owner.articleDefine_defines (hgood.mpr hg) (mt huse.mp hu)) ⟨?_, fun b hb => ?_,
      Store.setArticle_eventEnd_listed .., Store.setArticle_eventEnd_standing .., by simp⟩
    · rw [Store.setArticle_eventEnd_article]
      exact if_pos ⟨rfl, Nat.lt_succ_of_le hg.1⟩
    · rw [Store.setArticle_eventEnd_article]
      exact if_neg fun hab => hb hab.1.symm

/-- Settles O38. -/
theorem slotBlockAndUnblock : Obligations.SlotBlockAndUnblock := by
  intro s e q fitted frozen
  have hfitted : Owner.slotFitted s.store q = true ↔ fitted := Owner.slotFitted_iff _ q
  refine ⟨fun h => ?_, fun h => ?_⟩
  · have hrow : exec .slotBlock s = .next (s.requestRow (· == Code.slotBlock) Owner.slotBlock) := rfl
    have hkind : (Code.slotBlock == Code.slotBlock) = true := beq_self_eq_true _
    refine ⟨fun hf => ?_, fun hf hz => ?_, fun hf hz => ?_⟩
    · exact h.refuses hrow hkind (Owner.slotBlock_notFitted (mt hfitted.mp hf))
    · exact h.refuses hrow hkind (Owner.slotBlock_frozen (hfitted.mpr hf) hz)
    · refine h.accepts hrow hkind (Owner.slotBlock_blocks (hfitted.mpr hf) hz) ⟨?_,
        Store.eventEnd_keeps_listed _ (Store.setReason_listed ..), Store.standing_eventEnd _, by simp⟩
      exact (Store.slot_blockReason_of_standing (Store.standing_eventEnd _) q).trans
        (congrArg Slot.blockReason (Store.slot_setReason_self (Nat.lt_succ_of_le hf.1) _))
  · have hrow : exec .slotUnblock s = .next (s.requestRow (· == Code.slotUnblock) Owner.slotUnblock) := rfl
    have hkind : (Code.slotUnblock == Code.slotUnblock) = true := beq_self_eq_true _
    refine ⟨fun hf => ?_, fun hf hz => ?_, fun hf hz hn => ?_, fun hf hz hn => ?_⟩
    · exact h.refuses hrow hkind (Owner.slotUnblock_notFitted (mt hfitted.mp hf))
    · exact h.refuses hrow hkind (Owner.slotUnblock_frozen (hfitted.mpr hf) hz)
    · exact h.refuses hrow hkind (Owner.slotUnblock_wrongState (hfitted.mpr hf) hz hn)
    · refine h.accepts hrow hkind (Owner.slotUnblock_unblocks (hfitted.mpr hf) hz hn) ⟨?_,
        Store.eventEnd_keeps_listed _ (Store.setReason_listed ..), ?_, Store.eventEnd_passDue _⟩
      · exact (Store.slot_blockReason_of_standing (Store.standing_eventEnd _) q).trans
          (congrArg Slot.blockReason (Store.slot_setReason_self (Nat.lt_succ_of_le hf.1) none))
      · exact (Store.standing_eventEnd _).trans (Store.standing_triggerPass _)

end

/-! # What floor commands raise, list and leave standing -/

section

namespace Sys2Proof.Machine

open Sys2Proof

/-! ## Flags raised and records listed -/

namespace Store

/-- A source's pending notice has these flags. -/
def Raised (s : Store) (src : Source) (f : Half) : Prop := ∃ n ∈ s.notices, n.source = src ∧ n.flags &&& f = f

theorem raise_raised (s : Store) (src : Source) (f : Half) : (s.raise src f).Raised src f := raiseIn_told _ _ _

theorem Raised.raise {s : Store} {src : Source} {f : Half} (h : s.Raised src f) (src' : Source) (g : Half) :
    (s.raise src' g).Raised src f := raiseIn_keeps src' g h

theorem Raised.of_notices {s t : Store} {src : Source} {f : Half} (h : s.Raised src f) (e : t.notices = s.notices) :
    t.Raised src f := by
  rw [Raised, e]
  exact h

/-- Two flags raised one after the other stand in one notice (R179). -/
theorem raiseIn_raiseIn (ns : List Notice) (src : Source) (f g : Half) :
    raiseIn (raiseIn ns src f) src g = raiseIn ns src (f ||| g) := by
  induction ns with
  | nil => simp [raiseIn]
  | cons n ns ih =>
    by_cases h : n.source = src
    · simp [raiseIn, h, BitVec.or_assoc]
    · simp [raiseIn, h, ih]

/-- The records of two stores are the same; the notice list and the write-back list may differ. -/
def Alike (x y : Store) : Prop := x = { y with notices := x.notices, writeBack := x.writeBack }

namespace Alike

variable {x y z : Store}

theorem refl (x : Store) : x.Alike x := rfl

theorem trans (h : x.Alike y) (k : y.Alike z) : x.Alike z := by
  unfold Alike at *
  rw [k] at h
  exact h

theorem list (x : Store) (r : ImageRecord) : (x.list r).Alike x := by
  unfold Store.list
  split
  · rfl
  · rfl

theorem raise (x : Store) (src : Source) (f : Half) : (x.raise src f).Alike x := rfl

theorem setChannel (x : Store) (n : Nat) (c : Channel) : (x.setChannel n c).Alike (x.putChannel n c) := by
  simp only [Store.setChannel]
  split
  · exact .refl _
  · exact .list _ _

theorem setLane (x : Store) (l : Nat) (c : Lane) : (x.setLane l c).Alike (x.putLane l c) := by
  simp only [Store.setLane]
  split
  · exact .refl _
  · exact .list _ _

theorem setFace (x : Store) (i : Nat) (f : Face) : (x.setFace i f).Alike (x.putFace i f) := by
  simp only [Store.setFace]
  split
  · exact .refl _
  · exact .list _ _

theorem attended (h : x.Alike y) (hy : y.Attended) : x.Attended := by
  rw [h]
  exact ⟨hy.pass, hy.displays⟩

end Alike

end Store

namespace Moves

variable {K : Part → Prop} {s t : Store}

/-- No update takes a flag off the notice list. -/
theorem raised (h : Moves K s t) {src : Source} {f : Half} (hs : s.Raised src f) : t.Raised src f :=
  h.keeps (P := fun u => u.Raised src f) (fun _ _ _ _ m hu => by
    cases m <;> first | exact hu.raise _ _ | exact hu.of_notices (by simp)) hs

/-- No update takes a record off the write-back list. -/
theorem listed (h : Moves K s t) {r : ImageRecord} (hs : r ∈ s.writeBack) : r ∈ t.writeBack :=
  h.keeps (P := fun u => r ∈ u.writeBack) (fun _ _ _ _ m hu => by
    cases m <;> first | exact Store.mem_list_writeBack_of_mem hu _ | simpa using hu) hs

/-- The display of a face of a carousel in service stays enabled (R70). -/
theorem enabled (h : Moves K s t) {i : Nat} (hi : s.inService (i / 2) = true)
    (hs : (s.face i).desired.enabled = true) : (t.face i).desired.enabled = true := by
  refine (h.keeps (P := fun u => u.inService (i / 2) = true ∧ (u.face i).desired.enabled = true)
    (fun p u v hp m ⟨hin, hu⟩ => ⟨?_, ?_⟩) ⟨hi, hs⟩).2
  · rw [(Moves.one hp m).inService]; exact hin
  · rcases m.face_change i with e | e
    · rw [e]; exact hu
    · generalize v.face i = f at e
      cases e with
      | bays f hs => rw [hs.2.2.2]; exact hu
      | derive => exact hin
      | opens f _ _ hd => rw [hd]; exact hu
      | reopens f _ _ hd => rw [hd]; exact hu
      | closes => exact hu

end Moves

/-! ## The end of an event as a chain of updates -/

/-- What the end of an event touches. -/
@[simp] def Part.ending : Part → Prop
  | .panel _ => True
  | .pass => True
  | p => allocating p

theorem Store.eventEnd_moves (s : Store) : Moves Part.ending s s.eventEnd :=
  (allocationPass_moves (.any (C := fun _ => True) fun p h => by cases p <;> simp_all) (by simp)
    (fun _ _ => ⟨trivial, by simp⟩) fun _ => by simp).trans
    (agreeAll_moves (fun _ => by simp) _)

/-! ## Standing stores -/

namespace Store

theorem standing_putChannel_congr (s : Store) (n : Nat) {c d : Channel} (h : c.standing = d.standing) :
    (s.putChannel n c).standing = (s.putChannel n d).standing := by
  simp only [standing, putChannel, map_put, h]

theorem standing_setChannel_put (s : Store) (n : Nat) (c : Channel) :
    (s.setChannel n c).standing = (s.putChannel n c).standing := by
  simp only [setChannel]
  split
  · rfl
  · exact standing_list _ _

/-- A channel replaced, with the displays that a change of its state derives. -/
theorem standing_changeChannel_put (s : Store) (n : Nat) (c : Channel) :
    (s.changeChannel n c).standing = (s.putChannel n c).standing := by
  simp only [changeChannel]
  split
  · exact standing_setChannel_put s n c
  · rw [standing_deriveBoth, standing_setChannel_put]

theorem standing_putChannel_eq (s : Store) (n : Nat) (c : Channel) :
    (s.putChannel n c).standing = s.standing.putChannel n c.standing := by
  simp only [standing, putChannel, map_put]

/-- Of two records put for one channel the second stands. -/
theorem standing_putChannel_of {s t : Store} {n : Nat} {c : Channel} (h : t.standing = (s.putChannel n c).standing)
    (d : Channel) : (t.putChannel n d).standing = (s.putChannel n d).standing := by
  rw [standing_putChannel_eq, h, standing_putChannel_eq, putChannel_putChannel, ← standing_putChannel_eq]

end Store

/-! ## Floor events -/

namespace State

theorem Settles.told_of {s t : State} {x : Store} (h : ({ s with store := x } : State).Settles t) {src : Source}
    {f : Half} (hx : x.Raised src f) : t.told src f := h.told src f (.inl hx)

theorem Settles.renewed_of {s t : State} {x : Store} (h : ({ s with store := x } : State).Settles t)
    {r : ImageRecord} (hx : r ∈ x.writeBack) : t.renewed r := h.renewed r (.inl hx)

theorem JobsAre.alike {t : State} {x y : Store} (h : t.JobsAre x) (k : x.Alike y) : t.JobsAre y :=
  show t.store.Alike y from Store.Alike.trans h k

theorem JobsAre.channel {t : State} {x : Store} (h : t.JobsAre x) (n : Nat) : t.store.channel n = x.channel n := by
  rw [h]; rfl

theorem JobsAre.face {t : State} {x : Store} (h : t.JobsAre x) (i : Nat) : t.store.face i = x.face i := by
  rw [h]; rfl

theorem JobsAre.panel {t : State} {x : Store} (h : t.JobsAre x) (p : Nat) : t.store.panel p = x.panel p := by
  rw [h]; rfl

theorem JobsAre.order {t : State} {x : Store} (h : t.JobsAre x) (k : Nat) : t.store.order k = x.order k := by
  rw [h]; rfl

theorem JobsAre.lane {t : State} {x : Store} (h : t.JobsAre x) (l : Nat) : t.store.lane l = x.lane l := by
  rw [h]; rfl

theorem JobsAre.reservations {t : State} {x : Store} (h : t.JobsAre x) :
    t.store.reservations = x.reservations := by
  rw [h]

theorem JobsAre.articles {t : State} {x : Store} (h : t.JobsAre x) : t.store.articles = x.articles := by
  rw [h]

theorem JobsAre.orders {t : State} {x : Store} (h : t.JobsAre x) : t.store.orders = x.orders := by
  rw [h]

theorem JobsAre.batches {t : State} {x : Store} (h : t.JobsAre x) : t.store.batches = x.batches := by
  rw [h]

theorem JobsAre.standing {t : State} {x : Store} (h : t.JobsAre x) : t.store.standing = x.standing := by
  rw [h]; rfl

/-- A floor command of a working part that changes nothing of the job blocks is ignored. -/
theorem floorEvent_ignores {s : State} {c : Instr} {f : Store → Store} (he : exec c s = .next (s.floorEvent f))
    (hw : s.path.condition = .working) (hx : f s.store = s.store) : s.Ignores c :=
  (floorEvent_ends he hw s.store hx).imp fun _ ⟨hjobs, hsettles⟩ => ⟨hjobs, hsettles.addsNothing rfl rfl⟩

end State

/-! ## The arrival timer (R143) -/

theorem exec_arrivalTimer (l : Fin 16) (s : State) :
    exec (.arrivalTimer l) s = .next (s.floorEvent fun st => st.expireArrival l.val) := rfl

namespace Store

variable {s : Store} {l : Nat}

theorem expireArrival_running (hs : (s.lane l).state = .assigned) (ha : (s.lane l).arrival ≠ none) :
    s.expireArrival l = ((s.putLane l { s.lane l with weight := some .mismatch, arrival := none }).raise (.lane l)
      Flag.laneMismatch).list (.lane l) := if_pos ⟨hs, Option.isSome_iff_ne_none.mpr ha⟩

theorem expireArrival_still (h : (s.lane l).state ≠ .assigned ∨ (s.lane l).arrival = none) :
    s.expireArrival l = s := by
  refine if_neg fun ⟨hs, ha⟩ => ?_
  rcases h with h | h
  · exact h hs
  · rw [h] at ha; exact nomatch ha

end Store

end Sys2Proof.Machine

end

section

open Sys2Proof Sys2Proof.Machine

/-- Settles O60: the expiry is the update of the lane, its flag and its record, or nothing. -/
theorem arrivalTimerGivesMismatch : Obligations.ArrivalTimerGivesMismatch := by
  intro s l hworking x
  refine ⟨fun hs ha => ?_, fun h => ?_⟩
  · refine (State.floorEvent_ends (exec_arrivalTimer l s) hworking _ (Store.expireArrival_running hs ha)).imp
      fun t ⟨hjobs, hsettles⟩ => ⟨hjobs.alike ((Store.Alike.list _ _).trans (.raise _ _ _)), ?_, ?_⟩
    · exact hsettles.told_of ((Store.list_moves (K := fun _ => True) trivial _ _).raised (Store.raise_raised _ _ _))
    · exact hsettles.renewed_of (Store.mem_list_writeBack _ _)
  · exact State.floorEvent_ignores (exec_arrivalTimer l s) hworking (Store.expireArrival_still h)

end

/-! # A short stop (R42, R45), the end of a homing run (R49) and the gate line (R44) -/

section

namespace Sys2Proof.Machine

open Sys2Proof

/-! ## Drive messages as events -/

theorem exec_driveReport {s : State} {n : Fin 4} {c : Instr} {k x : Byte} {r : DriveReport} (h : s.HearsDrive n)
    (hc : exec c s = .next (s.driveEvent n (driveMessage k x))) (hr : driveReport k x = some r) :
    exec c s = .next (s.floorEvent fun st => (st.takeReport n r).eventEnd) := by
  rw [hc, State.driveEvent_message h.working h.fitted h.window hr]

theorem driveReport_arrived {x : Byte} (hx : x.toNat ≤ 23) :
    driveReport driveKindArrived x = some (.arrived x.toNat) := by
  simp [driveReport, driveKindArrived, hx]

theorem driveReport_stopped {x : Byte} (hx : x.toNat ≤ 23) :
    driveReport driveKindStopped x = some (.stopped x.toNat) := by
  simp [driveReport, driveKindStopped, driveKindArrived, hx]

theorem driveReport_homed (y : Byte) : driveReport driveKindHomed y = some .homed := by
  simp [driveReport, driveKindStopped, driveKindArrived, driveKindHomed]

theorem driveReport_fault {z : Byte} (h1 : 1 ≤ z.toNat) (h2 : z.toNat ≤ 15) :
    driveReport driveKindFault z = some (.fault z.toNat) := by
  simp [driveReport, driveKindStopped, driveKindArrived, driveKindHomed, driveKindFault, h1, h2]

/-! ## Displays derived (R70) -/

namespace Store

theorem faceIndex_lt {n f : Nat} (hn : n < 4) (hf : f < 2) : faceIndex n f < 8 := by
  unfold faceIndex
  omega

theorem faceIndex_half {n f : Nat} (hf : f < 2) : faceIndex n f / 2 = n := by
  unfold faceIndex
  omega

theorem derive_face_self (s : Store) {i : Nat} (hi : i < 8) :
    (s.derive i).face i = { s.face i with desired := s.desiredOf i } := setFace_face_self s hi _

theorem derive_face_other (s : Store) {i j : Nat} (h : j ≠ i) : (s.derive i).face j = s.face j :=
  setFace_face_other s h _

theorem derive_face (s : Store) (i j : Nat) (h : i < 8) :
    (s.derive i).face j = if j = i then { s.face i with desired := s.desiredOf i } else s.face j := by
  split
  · next e => rw [e, derive_face_self s h]
  · next e => exact derive_face_other s e

theorem derive_channel (s : Store) (i n : Nat) : (s.derive i).channel n = s.channel n := by
  rw [channel, derive_channels]; rfl

theorem deriveBoth_channel (s : Store) (n m : Nat) : (s.deriveBoth n).channel m = s.channel m := by
  rw [deriveBoth, derive_channel, derive_channel]

theorem derive_orders (s : Store) (i : Nat) : (s.derive i).orders = s.orders := setFace_orders _ _ _

/-- A display is derived from its own face, the channel, the reservations and the orders. -/
theorem desiredOf_derive (s : Store) {i j : Nat} (h : j ≠ i) : (s.derive i).desiredOf j = s.desiredOf j := by
  have hl (num : Nat) : (s.derive i).laneOfPick num = s.laneOfPick num := by
    simp only [laneOfPick, reservation, derive_reservations, order, derive_orders]
  have hb (l : List Item) : (s.derive i).bayDisplayOf l = s.bayDisplayOf l := by
    simp only [bayDisplayOf, hl]
  simp only [desiredOf, derive_face_other s h, inService, derive_channel, hb]

theorem deriveBoth_face (s : Store) {n f : Nat} (hn : n < 4) (hf : f < 2) :
    (s.deriveBoth n).face (faceIndex n f) =
      { s.face (faceIndex n f) with desired := s.desiredOf (faceIndex n f) } := by
  have hne : faceIndex n 0 ≠ faceIndex n 1 := by simp [faceIndex]
  match f, hf with
  | 0, _ => rw [deriveBoth, derive_face_other _ hne, derive_face_self _ (faceIndex_lt hn (by decide))]
  | 1, _ => rw [deriveBoth, derive_face_self _ (faceIndex_lt hn (by decide)), desiredOf_derive _ (Ne.symm hne),
      derive_face_other _ (Ne.symm hne)]

theorem deriveBoth_desired (s : Store) {n f : Nat} (hn : n < 4) (hf : f < 2) :
    ((s.deriveBoth n).face (faceIndex n f)).desired = s.desiredOf (faceIndex n f) := by
  rw [deriveBoth_face s hn hf]

end Store

/-! ## A channel that motion has left running -/

namespace Store

variable {s t : Store} {n : Nat}

theorem serviceCheck_moves_any (s : Store) (n : Nat) : Moves Part.motion s (s.serviceCheck n) :=
  serviceCheck_moves (.any fun _ h => h)

theorem position_of_moves {K : Part → Prop} (h : Moves K s t) (n : Nat) :
    (t.channel n).position = (s.channel n).position :=
  (congrArg Channel.position (h.channel_standing n) :)

theorem mem_list_of_changed {c : Channel} (h : statusOf (s.channel n) ≠ statusOf c) :
    .status n ∈ (s.changeChannel n c).writeBack := by
  simp only [changeChannel]
  split
  · exact setChannel_listed h
  · exact (deriveBoth_moves _ _).listed (setChannel_listed h)

/-! ## HELD is left (R45) -/

/-- The channel as it leaves HELD, before the service check. -/
theorem leaveHeld_eq (s : Store) (n : Nat) : s.leaveHeld n =
    ((s.changeChannel n { s.channel n with state := .idle, target := none }).raise (.carousel n)
      Flag.carouselResumed).serviceCheck n := rfl

theorem leaveHeld_channel (hn : n < 4) (hd : (s.channel n).deadline = none) :
    Moves.Runs ((s.leaveHeld n).channel n) ∧ ((s.leaveHeld n).channel n).position = (s.channel n).position := by
  have hc := changeChannel_channel_self s hn { s.channel n with state := .idle, target := none }
  have hm := serviceCheck_moves_any
    ((s.changeChannel n { s.channel n with state := .idle, target := none }).raise (.carousel n) Flag.carouselResumed) n
  rw [leaveHeld_eq]
  constructor
  · refine hm.runs (.inl ?_)
    have hr : ((s.changeChannel n { s.channel n with state := .idle, target := none }).raise (.carousel n)
        Flag.carouselResumed).channel n = { s.channel n with state := .idle, target := none } := hc
    rw [hr]
    exact ⟨rfl, rfl, hd⟩
  · rw [position_of_moves hm, show (Store.raise _ _ _).channel n = _ from hc]

theorem leaveHeld_standing (s : Store) (n : Nat) :
    (s.leaveHeld n).standing = (s.putChannel n { s.channel n with state := .idle }).standing := by
  rw [leaveHeld_eq, standing_serviceCheck, standing_raise, standing_changeChannel_put]
  exact standing_putChannel_congr _ _ rfl

theorem leaveHeld_notices (s : Store) (n : Nat) :
    (s.leaveHeld n).notices = raiseIn s.notices (.carousel n) Flag.carouselResumed := by
  rw [leaveHeld_eq, serviceCheck_notices]
  show raiseIn (s.changeChannel n _).notices _ _ = _
  rw [changeChannel_notices]

theorem leaveHeld_passDue (s : Store) (n : Nat) : (s.leaveHeld n).passDue = s.passDue := by
  rw [leaveHeld_eq, (serviceCheck_moves_any _ _).passDue (by simp)]
  exact changeChannel_passDue _ _ _

theorem leaveHeld_listed {r : ImageRecord} (h : r ∈ s.writeBack) (n : Nat) : r ∈ (s.leaveHeld n).writeBack :=
  (leaveHeld_evolves s n).keeps_listed h

/-! ## A short stop (R42) -/

/-- The channel HELD at the position reported, and the flag. -/
def heldAt (s : Store) (n p : Nat) : Store :=
  (s.changeChannel n { s.channel n with state := .held, position := some p, deadline := none }).raise (.carousel n)
    Flag.carouselHeld

theorem stopShort_opened (h : (s.channel n).gate = .opened) (p : Nat) : s.stopShort n p = s.heldAt n p := by
  simp [stopShort, h, heldAt]

theorem stopShort_closed (h : (s.channel n).gate = .closed) (p : Nat) :
    s.stopShort n p = (s.heldAt n p).leaveHeld n := by
  simp [stopShort, h, heldAt]

theorem heldAt_channel (hn : n < 4) (p : Nat) : (s.heldAt n p).channel n =
    { s.channel n with state := .held, position := some p, deadline := none } := changeChannel_channel_self s hn _

theorem heldAt_standing (s : Store) (n p : Nat) : (s.heldAt n p).standing =
    (s.putChannel n { s.channel n with state := .held, position := some p }).standing := by
  rw [heldAt, standing_raise, standing_changeChannel_put]
  exact standing_putChannel_congr _ _ rfl

theorem heldAt_notices (s : Store) (n p : Nat) :
    (s.heldAt n p).notices = raiseIn s.notices (.carousel n) Flag.carouselHeld := by
  show raiseIn (s.changeChannel n _).notices _ _ = _
  rw [changeChannel_notices]

theorem heldAt_passDue (s : Store) (n p : Nat) : (s.heldAt n p).passDue = s.passDue := changeChannel_passDue _ _ _

theorem heldAt_listed (h : (s.channel n).state = .moving) (p : Nat) : .status n ∈ (s.heldAt n p).writeBack :=
  changeChannel_listed (by rw [h]; exact nofun)

/-! ## The end of a homing run (R49) -/

/-- The channel homed, with the displays of its faces. -/
def homedAt (s : Store) (n : Nat) : Store :=
  (s.putChannel n { s.channel n with
    state := .idle, position := some 0, deadline := none, fenceCause := none, faultCode := none }).deriveBoth n

theorem homedRun_eq (s : Store) (n : Nat) : s.homedRun n =
    (((((s.homedAt n).countingCheck n).triggerPass).raise (.carousel n) Flag.carouselHomed).list
      (.status n)).serviceCheck n := rfl

theorem homedAt_channel (hn : n < 4) : (s.homedAt n).channel n = { s.channel n with
    state := .idle, position := some 0, deadline := none, fenceCause := none, faultCode := none } :=
  (deriveBoth_channel _ _ _).trans (putChannel_channel_self s hn _)

/-- The displays of both faces are enabled. -/
theorem homedAt_enabled (hn : n < 4) {f : Nat} (hf : f < 2) :
    ((s.homedAt n).face (faceIndex n f)).desired.enabled = true := by
  rw [homedAt, deriveBoth_desired _ hn hf]
  show Store.inService _ (faceIndex n f / 2) = true
  rw [faceIndex_half hf]
  simp only [inService, putChannel_channel_self s hn]

/-- The channel at its standing place, IDLE or MOVING. -/
theorem state_of_standing {c d : Channel} (h : c.standing = d.standing) (hd : d.state = .idle) :
    c.state = .idle ∨ c.state = .moving := by
  have hs : (if c.state = .moving then .idle else c.state) = if d.state = .moving then ChannelState.idle else d.state :=
    congrArg Channel.state h
  rw [hd] at hs
  cases hc : c.state <;> simp_all

theorem homedRun_moves (s : Store) (n : Nat) : Moves (fun _ => True) (s.homedAt n) (s.homedRun n) := by
  rw [homedRun_eq]
  exact .after ((serviceCheck_moves_any _ _).mono fun _ _ => trivial) (.after (list_moves trivial _ _)
    (.after (raise_moves trivial _ _ _) (.after (triggerPass_moves trivial _)
      ((countingCheck_moves_any _ _).mono fun _ _ => trivial))))

theorem homedRun_raised (s : Store) (n : Nat) : (s.homedRun n).Raised (.carousel n) Flag.carouselHomed := by
  rw [homedRun_eq]
  exact (serviceCheck_moves_any _ _).raised ((list_moves (K := fun _ => True) trivial _ _).raised (raise_raised _ _ _))

theorem homedRun_listed (s : Store) (n : Nat) : .status n ∈ (s.homedRun n).writeBack := by
  rw [homedRun_eq]
  exact (serviceCheck_moves_any _ _).listed (mem_list_writeBack _ _)

theorem homedRun_standing (s : Store) (n : Nat) : (s.homedRun n).standing = (s.putChannel n { s.channel n with
    state := .idle, position := some 0, fenceCause := none, faultCode := none }).standing := by
  rw [homedRun_eq, standing_serviceCheck, standing_list, standing_raise, standing_triggerPass, standing_countingCheck,
    homedAt, standing_deriveBoth]
  exact standing_putChannel_congr _ _ rfl

end Store

end Sys2Proof.Machine

end

section

open Sys2Proof Sys2Proof.Machine

/-- Settles O49: the channel is HELD at the position reported, and an event with no pass due leaves it; with the gate
CLOSED it leaves HELD at once, and the service check is motion. -/
theorem stopHoldsTheCarousel : Obligations.StopHoldsTheCarousel := by
  intro s n x h hm hx c
  have hrow := exec_driveReport h (c := .stopped n x) rfl (driveReport_stopped hx)
  have htake (st : Store) (hst : st = s.store) :
      st.takeReport n (.stopped x.toNat) = st.stopShort n x.toNat := by
    subst hst
    simp only [Store.takeReport, hm, Store.reportMoving]
  refine ⟨fun hg => ?_, fun hg => ?_⟩
  · obtain ⟨ps, hps⟩ := Store.eventEnd_panels_only (s := s.store.heldAt n x.toNat)
      ((Store.heldAt_passDue _ _ _).trans h.attended.pass)
    refine (State.floorEvent_ends hrow h.working (s.store.heldAt n x.toNat).eventEnd
      (by rw [htake _ rfl, Store.stopShort_opened hg])).imp fun t ⟨hjobs, hsettles⟩ => ?_
    have hch (m : Nat) : t.store.channel m = (s.store.heldAt n x.toNat).channel m := by
      rw [hjobs.channel, hps]; rfl
    refine ⟨(hch _).trans (Store.heldAt_channel n.isLt _), fun m hne =>
      (hch m).trans (Store.changeChannel_channel_other _ hne _), ?_, hsettles.told_of ?_, hsettles.renewed_of ?_, ?_⟩
    · rw [hjobs.reservations, hps]
      exact Store.changeChannel_reservations _ _ _
    · exact (Store.raise_raised _ _ _).of_notices (Store.eventEnd_notices _)
    · exact Store.eventEnd_keeps_listed _ (Store.heldAt_listed hm _)
    · rw [hjobs.standing, Store.standing_eventEnd, Store.heldAt_standing]
  · obtain ⟨hruns, hpos⟩ := Store.leaveHeld_channel (s := s.store.heldAt n x.toNat) n.isLt
      (by rw [Store.heldAt_channel n.isLt])
    obtain ⟨ps, hps⟩ := Store.eventEnd_panels_only (s := (s.store.heldAt n x.toNat).leaveHeld n)
      ((Store.leaveHeld_passDue _ _).trans ((Store.heldAt_passDue _ _ _).trans h.attended.pass))
    refine (State.floorEvent_ends hrow h.working ((s.store.heldAt n x.toNat).leaveHeld n).eventEnd
      (by rw [htake _ rfl, Store.stopShort_closed hg])).imp fun t ⟨hjobs, hsettles⟩ => ?_
    have hch : t.store.channel n = ((s.store.heldAt n x.toNat).leaveHeld n).channel n := by
      rw [hjobs.channel, hps]; rfl
    rw [hch]
    refine ⟨hpos.trans (by rw [Store.heldAt_channel n.isLt]), hruns.imp_left id, hsettles.told_of ?_,
      hsettles.renewed_of ?_, ?_⟩
    · refine Store.Raised.of_notices (s := s.store.raise (.carousel n) (Flag.carouselHeld ||| Flag.carouselResumed))
        (Store.raise_raised _ _ _) ?_
      rw [Store.eventEnd_notices, Store.leaveHeld_notices, Store.heldAt_notices, Store.raiseIn_raiseIn]
      rfl
    · exact Store.eventEnd_keeps_listed _ (Store.leaveHeld_listed (Store.heldAt_listed hm _) _)
    · rw [hjobs.standing, Store.standing_eventEnd, Store.leaveHeld_standing, Store.heldAt_channel n.isLt,
        Store.standing_putChannel_of (Store.heldAt_standing _ _ _)]
      exact Store.standing_putChannel_congr _ _ rfl

/-- Settles O50: the homed channel stands through the event, and the displays of a carousel in service stay enabled. -/
theorem homedBringsIntoService : Obligations.HomedBringsIntoService := by
  intro s n y h hm
  have hrow := exec_driveReport h (c := .homed n y) rfl (driveReport_homed y)
  refine (State.floorEvent_ends hrow h.working (s.store.homedRun n).eventEnd
    (by simp only [Store.takeReport, hm, Store.reportHoming])).imp fun t ⟨hjobs, hsettles⟩ => ?_
  have hmoves : Moves (fun _ => True) (s.store.homedAt n) (s.store.homedRun n).eventEnd :=
    (Store.homedRun_moves _ _).trans ((Store.eventEnd_moves _).mono fun _ _ => trivial)
  have hst := hmoves.channel_standing n
  rw [Store.homedAt_channel n.isLt] at hst
  rw [hjobs.channel]
  refine ⟨congrArg Channel.position hst, congrArg Channel.fenceCause hst, congrArg Channel.faultCode hst,
    Store.state_of_standing hst rfl, fun f hf => ?_, hsettles.told_of ?_, hsettles.renewed_of ?_, ?_⟩
  · rw [hjobs.face, Nat.mul_comm]
    refine hmoves.enabled ?_ (Store.homedAt_enabled n.isLt hf)
    have hhalf : Store.faceIndex n f / 2 = n := Store.faceIndex_half hf
    show (s.store.homedAt n).inService (Store.faceIndex n f / 2) = true
    rw [hhalf, Store.inService, Store.homedAt_channel n.isLt]
  · exact (Store.homedRun_raised _ _).of_notices (Store.eventEnd_notices _)
  · exact Store.eventEnd_keeps_listed _ (Store.homedRun_listed _ _)
  · rw [hjobs.standing, Store.standing_eventEnd, Store.homedRun_standing]

end

/-! # The gate line (R44) -/

section

namespace Sys2Proof.Machine

open Sys2Proof

/-! ## A floor event and what follows it -/

namespace State

theorem floorEvent_settles {s : State} (hw : s.path.condition = .working) (f : Store → Store) :
    ({ s with store := f s.store } : State).Settles (s.floorEvent f) := by
  rw [floorEvent, if_pos (show s.working = true by simp [working, hw])]
  exact finish_settles _

end State

/-- The records, the flags and the listings that an event leaves, after what follows it. -/
theorem State.Settles.effect {u t : State} {x : Store} (h : ({ u with store := x } : State).Settles t) :
    t.JobsAre x ∧ (∀ src f, x.Raised src f → t.told src f) ∧ ∀ r ∈ x.writeBack, t.renewed r :=
  ⟨h.store, fun src f hf => h.told src f (.inl hf), fun r hr => h.renewed r (.inl hr)⟩

/-! ## The channel and its gate -/

theorem Channel.standing_of_idle {c : Channel} (h : c.state = .idle) (g : Gate) :
    ({ c with gate := g } : Channel).standing = ({ c with gate := g, state := .idle } : Channel).standing := by
  simp [standing, h]

namespace Store

variable {s : Store} {n : Nat}

/-- A change of a channel that leaves no pass due and no display to send. -/
theorem Attended.setChannel (h : s.Attended) (n : Nat) (c : Channel) : (s.setChannel n c).Attended :=
  (Alike.setChannel s n c).attended (h.of_eq rfl rfl fun _ _ => rfl)

theorem gateOpened_eq (s : Store) (n : Nat) : s.gateOpened n =
    (s.setChannel n { s.channel n with gate := .opened }).raise (.carousel n) Flag.carouselGateOpened := rfl

theorem gateOpened_alike (s : Store) (n : Nat) :
    (s.gateOpened n).Alike (s.putChannel n { s.channel n with gate := .opened }) :=
  (Alike.raise _ _ _).trans (.setChannel _ _ _)

theorem gateOpened_attended (h : s.Attended) (n : Nat) : (s.gateOpened n).Attended :=
  (Alike.raise _ _ _).attended (h.setChannel n _)

theorem statusOf_gate {c : Channel} {g : Gate} (h : c.gate ≠ g) : statusOf c ≠ statusOf { c with gate := g } :=
  fun e => h (congrArg ChannelStatus.gate e)

theorem gateOpened_listed (h : (s.channel n).gate ≠ .opened) : .status n ∈ (s.gateOpened n).writeBack :=
  setChannel_listed (statusOf_gate h)

/-- The channel with its gate CLOSED, and the flag. -/
def shutGate (s : Store) (n : Nat) : Store :=
  (s.setChannel n { s.channel n with gate := .closed }).raise (.carousel n) Flag.carouselGateClosed

theorem shutGate_channel (hn : n < 4) (s : Store) : (s.shutGate n).channel n = { s.channel n with gate := .closed } :=
  setChannel_channel_self s hn _

theorem shutGate_alike (s : Store) (n : Nat) :
    (s.shutGate n).Alike (s.putChannel n { s.channel n with gate := .closed }) :=
  (Alike.raise _ _ _).trans (.setChannel _ _ _)

theorem shutGate_attended (h : s.Attended) (n : Nat) : (s.shutGate n).Attended :=
  (Alike.raise _ _ _).attended (h.setChannel n _)

theorem shutGate_listed (h : (s.channel n).gate ≠ .closed) : .status n ∈ (s.shutGate n).writeBack :=
  setChannel_listed (statusOf_gate h)

theorem shutGate_standing (s : Store) (n : Nat) :
    (s.shutGate n).standing = (s.putChannel n { s.channel n with gate := .closed }).standing := by
  rw [shutGate, standing_raise, standing_setChannel_put]

theorem gateClosed_held (h : (s.channel n).state = .held) : s.gateClosed n = (s.shutGate n).leaveHeld n := by
  simp only [gateClosed, h, shutGate]

theorem gateClosed_idle (h : (s.channel n).state = .idle) : s.gateClosed n = (s.shutGate n).serviceCheck n := by
  simp only [gateClosed, h, shutGate]

theorem gateClosed_other (hh : (s.channel n).state ≠ .held) (hi : (s.channel n).state ≠ .idle) :
    s.gateClosed n = s.shutGate n := by
  simp only [gateClosed]
  split
  · next h => exact absurd h hh
  · next h => exact absurd h hi
  all_goals rfl

/-- What follows a gate that closes keeps the flags raised and the records listed. -/
theorem gateClosed_evolves_shut (s : Store) (n : Nat) : ∃ ns,
    (s.gateClosed n).notices = ns ∧ (∀ src f, (s.shutGate n).Raised src f → (s.gateClosed n).Raised src f) ∧
      ∀ r ∈ (s.shutGate n).writeBack, r ∈ (s.gateClosed n).writeBack := by
  refine ⟨_, rfl, ?_⟩
  by_cases hh : (s.channel n).state = .held
  · rw [gateClosed_held hh]
    refine ⟨fun src f h => ?_, fun r h => leaveHeld_listed h n⟩
    rw [Raised, leaveHeld_notices]
    exact raiseIn_keeps _ _ h
  · by_cases hi : (s.channel n).state = .idle
    · rw [gateClosed_idle hi]
      exact ⟨fun src f h => (serviceCheck_moves_any _ _).raised h, fun r h => (serviceCheck_moves_any _ _).listed h⟩
    · rw [gateClosed_other hh hi]
      exact ⟨fun _ _ h => h, fun _ h => h⟩

end Store

/-! ## The line itself -/

theorem exec_gateOpens (n : Fin 4) (s : State) :
    exec (.gateOpens n) s = .next (s.gateEvent n false Store.gateOpened) := rfl

theorem exec_gateCloses (n : Fin 4) (s : State) :
    exec (.gateCloses n) s = .next (s.gateEvent n true Store.gateClosed) := rfl

namespace State

/-- What a change of the line does in a working part with the carousel fitted. -/
theorem gateEvent_heard {s : State} {n : Fin 4} {high : Bool} (hl : look s.gateLines true n.val ≠ high)
    (hw : s.path.condition = .working) (hf : (s.store.cfg.carousel n).fitted = true) {f : Store → Nat → Store}
    {t : State} (ht : t = s.gateEvent n high f) :
    s.KeepsLink t ∧ t.gateLines = put s.gateLines n.val high ∧ t.JobsAre (f s.store n).eventEnd ∧
      (∀ src g, (f s.store n).eventEnd.Raised src g → t.told src g) ∧
      ∀ r ∈ (f s.store n).eventEnd.writeBack, t.renewed r := by
  replace ht : t = State.floorEvent { s with gateLines := put s.gateLines n.val high } fun st =>
      if st.fitted n.val then (f st n.val).eventEnd else st := ht.trans (if_neg hl)
  have h := floorEvent_settles (s := { s with gateLines := put s.gateLines n.val high }) hw fun st =>
      if st.fitted n.val then (f st n.val).eventEnd else st
  rw [← ht] at h
  have hx : (if s.store.fitted n.val then (f s.store n.val).eventEnd else s.store) = (f s.store n).eventEnd :=
    if_pos hf
  rw [hx] at h
  exact ⟨⟨h.mem, h.marks, h.posted, h.condition, h.index, h.produce, h.consume⟩, h.gateLines, h.effect.1, h.effect.2.1, h.effect.2.2⟩

/-- What it does in any other. -/
theorem gateEvent_unheard {s : State} {n : Fin 4} {high : Bool} (hl : look s.gateLines true n.val ≠ high)
    (hu : ¬ (s.path.condition = .working ∧ (s.store.cfg.carousel n).fitted = true)) {f : Store → Nat → Store}
    {t : State} (ht : t = s.gateEvent n high f) :
    s.KeepsLink t ∧ t.gateLines = put s.gateLines n.val high ∧ t.JobsAre s.store ∧ s.AddsNothing t := by
  replace ht : t = State.floorEvent { s with gateLines := put s.gateLines n.val high } fun st =>
      if st.fitted n.val then (f st n.val).eventEnd else st := ht.trans (if_neg hl)
  by_cases hw : s.path.condition = .working
  · have h := floorEvent_settles (s := { s with gateLines := put s.gateLines n.val high }) hw fun st =>
        if st.fitted n.val then (f st n.val).eventEnd else st
    rw [← ht] at h
    have hx : (if s.store.fitted n.val then (f s.store n.val).eventEnd else s.store) = s.store :=
      if_neg fun hf => hu ⟨hw, hf⟩
    rw [hx] at h
    exact ⟨⟨h.mem, h.marks, h.posted, h.condition, h.index, h.produce, h.consume⟩, h.gateLines, h.jobsAre rfl,
      h.notices, h.listed⟩
  · rw [floorEvent_idle (s := { s with gateLines := put s.gateLines n.val high }) _ hw] at ht
    rw [ht]
    exact ⟨⟨rfl, rfl, rfl, rfl, rfl, rfl, rfl⟩, rfl, rfl, fun _ h => h, fun _ h => h⟩

end State

end Sys2Proof.Machine

end

section

open Sys2Proof Sys2Proof.Machine

/-- Settles O53: the line is put, and a fitted channel of a working part records it with its flag; what follows a
closing gate is the leaving of HELD or the service check, which leave standing what stands. -/
theorem gateLineIsTaken : Obligations.GateLineIsTaken := by
  intro s n hatt c heard
  refine ⟨fun hline => ⟨_, exec_gateOpens n s, ?_⟩, fun hline => ⟨_, exec_gateCloses n s, ?_⟩⟩
  · have hl : look s.gateLines true n.val ≠ false := by rw [hline]; exact nofun
    by_cases hh : heard
    · obtain ⟨hlink, hgate, hjobs, htold, hrenewed⟩ := State.gateEvent_heard hl hh.1 hh.2 (f := Store.gateOpened) rfl
      rw [Store.eventEnd_still (Store.gateOpened_attended hatt n)] at hjobs htold hrenewed
      exact ⟨hlink, hgate, fun _ => ⟨hjobs.alike (Store.gateOpened_alike _ _), htold _ _ (Store.raise_raised _ _ _),
        fun hg => hrenewed _ (Store.gateOpened_listed hg)⟩, fun hn => absurd hh hn⟩
    · obtain ⟨hlink, hgate, hrest⟩ := State.gateEvent_unheard hl hh (f := Store.gateOpened) rfl
      exact ⟨hlink, hgate, fun h => absurd h hh, fun _ => hrest⟩
  · have hl : look s.gateLines true n.val ≠ true := by rw [hline]; exact nofun
    by_cases hh : heard
    · obtain ⟨hlink, hgate, hjobs, htold, hrenewed⟩ := State.gateEvent_heard hl hh.1 hh.2 (f := Store.gateClosed) rfl
      obtain ⟨_, _, hraised, hlisted⟩ := Store.gateClosed_evolves_shut s.store n
      have hkept (src : Source) (f : Half) (h : (s.store.gateClosed n).Raised src f) :=
        htold src f (h.of_notices (Store.eventEnd_notices _))
      refine ⟨hlink, hgate, fun _ => ⟨hkept _ _ (hraised _ _ (Store.raise_raised _ _ _)), fun hg =>
        hrenewed _ (Store.eventEnd_keeps_listed _ (hlisted _ (Store.shutGate_listed hg))), fun hs => ?_, fun hs => ?_,
        fun hs => ?_⟩, fun hn => absurd hh hn⟩
      · rw [Store.gateClosed_other hs.1 hs.2, Store.eventEnd_still (Store.shutGate_attended hatt n)] at hjobs
        exact hjobs.alike (Store.shutGate_alike _ _)
      · refine hkept _ _ ?_
        rw [Store.Raised, Store.gateClosed_held hs, Store.leaveHeld_notices]
        exact raiseIn_told _ _ _
      · rw [hjobs.standing, Store.standing_eventEnd]
        rcases hs with hs | hs
        · rw [Store.gateClosed_held hs, Store.leaveHeld_standing, Store.shutGate_channel n.isLt,
            Store.standing_putChannel_of (Store.shutGate_standing _ _)]
        · rw [Store.gateClosed_idle hs, Store.standing_serviceCheck, Store.shutGate_standing]
          exact Store.standing_putChannel_congr _ _ (Channel.standing_of_idle hs _)
    · obtain ⟨hlink, hgate, hrest⟩ := State.gateEvent_unheard hl hh (f := Store.gateClosed) rfl
      exact ⟨hlink, hgate, fun h => absurd h hh, fun _ => hrest⟩

end

/-! # A panel that leaves READY, and PANEL_RESTART (R68, R69, R82, R86) -/

section

namespace Sys2Proof.Machine

open Sys2Proof

/-! ## What the comparison of displays makes of a panel (R86) -/

/-- A panel after the comparison of its sent record with a desired one. -/
def Panel.agree (x : Panel) (desired : Display) : Panel :=
  if x.line = .ready ∧ x.outstanding = none then
    match x.shown.bind fun d => firstDifference d desired with
    | some c => x.send c 1
    | none => x
  else x

theorem Panel.agree_not_ready {x : Panel} (h : x.line ≠ .ready) (d : Display) : x.agree d = x :=
  if_neg fun hr => h hr.1

namespace Store

variable {s t : Store} {p : Nat}

theorem putPanel_panel_same (s : Store) (p : Nat) : s.putPanel p (s.panel p) = s := by
  simp only [putPanel, panel, put_look]

theorem agreePanel_put (s : Store) (p : Nat) :
    s.agreePanel p = s.putPanel p ((s.panel p).agree (s.face p).desired) := by
  unfold agreePanel Panel.agree
  dsimp only
  split
  · cases (s.panel p).shown with
    | none => exact (putPanel_panel_same s p).symm
    | some d =>
      simp only [Option.bind_some]
      cases firstDifference d (s.face p).desired with
      | none => exact (putPanel_panel_same s p).symm
      | some c => rfl
  · exact (putPanel_panel_same s p).symm

theorem foldl_agreePanel_faces (xs : List Nat) (s : Store) (i : Nat) : (xs.foldl agreePanel s).face i = s.face i := by
  obtain ⟨ps, h⟩ := foldl_agreePanel_panels_only xs s
  rw [h]; rfl

/-- Each panel is compared on its own. -/
theorem foldl_agreePanel_panel (hp : p < 8) : ∀ (xs : List Nat) (s : Store), xs.Nodup →
    (xs.foldl agreePanel s).panel p = if p ∈ xs then (s.panel p).agree (s.face p).desired else s.panel p
  | [], s, _ => rfl
  | q :: xs, s, hx => by
    obtain ⟨hq, hx⟩ := List.nodup_cons.mp hx
    rw [List.foldl_cons, foldl_agreePanel_panel hp xs _ hx, agreePanel_put]
    by_cases e : p = q
    · subst e
      simp [hq, putPanel_panel_self _ hp]
    · simp only [putPanel_panel_other _ e, List.mem_cons, e, false_or]
      rfl

theorem agreeAll_panel (s : Store) (hp : p < 8) : s.agreeAll.panel p = (s.panel p).agree (s.face p).desired := by
  rw [agreeAll, foldl_agreePanel_panel hp _ _ List.nodup_range, if_pos (List.mem_range.mpr hp)]

theorem agreeAll_face (s : Store) (i : Nat) : s.agreeAll.face i = s.face i := foldl_agreePanel_faces _ _ _

theorem allocationPass_panel (s : Store) (p : Nat) : s.allocationPass.panel p = s.panel p :=
  (allocationPass_moves (K := fun x => Part.allocating x ∨ x = .pass)
    (.any (C := fun _ => True) fun p h => .inl (by cases p <;> simp_all)) (by simp) (fun _ _ => ⟨trivial, by simp⟩)
    fun _ => by simp).panel (by simp)

/-- A panel at the end of an event: it is compared with its face as the pass has left it. -/
theorem eventEnd_panel (s : Store) (hp : p < 8) :
    s.eventEnd.panel p = (s.panel p).agree (s.eventEnd.face p).desired := by
  rw [eventEnd, agreeAll_panel _ hp, allocationPass_panel, agreeAll_face]

theorem eventEnd_panel_not_ready (hp : p < 8) (h : (s.panel p).line ≠ .ready) : s.eventEnd.panel p = s.panel p := by
  rw [eventEnd_panel s hp, Panel.agree_not_ready h]

/-! ## A panel leaves READY (R68, R69) -/

end Store

/-- Everything but the panels, the article table and an opening over a presentation. -/
@[simp] def Part.suspending : Part → Prop
  | .requeuing => True
  | p => releasing p

theorem Part.suspending_of_releasing : ∀ p, releasing p → suspending p := by
  intro p h
  cases p <;> simp_all

theorem Part.suspending_of_turning : ∀ p, turning p → suspending p := by
  intro p h
  cases p <;> simp_all

namespace Store

variable {s t : Store} {p : Nat}

/-- The face of an ended presentation, HALTED. -/
def suspendedFace (fc : Face) (c : Nat) : Face := { fc.ended .halted with lastSuspended := some c }

/-- An IDLE face, HALTED. -/
def haltedFace (fc : Face) : Face := { fc with state := .halted, held := [], selected := none }

theorem suspend_moves (s : Store) (n f c : Nat) :
    Moves Part.suspending (s.putFace (faceIndex n f) (suspendedFace (s.face (faceIndex n f)) c)) (s.suspend n f c) := by
  have hmark (x : Face) := markFaceOpen_moves (K := Part.suspending) (r := recordOf n c) (by simp) (by simp)
    (s.putFace (faceIndex n f) x) false
  simp only [suspend]
  refine .after (list_moves (by simp) _ _) (.after (derive_moves (by simp) (by simp) _)
    (.after (raise_moves (by simp) _ _ _)
      (.after ((serviceCheck_moves (.any fun _ h => h)).mono fun p h => Part.suspending_of_turning p
          (Part.turning_of_motion p h))
        (.after ((tellHalted_moves _ _ _).mono Part.suspending_of_turning)
          (.after ((suspectMark_moves _ _).mono Part.suspending_of_releasing) ?_)))))
  split
  · split
    · exact .after ((abandonCount_moves _ _ _).mono fun p h => Part.suspending_of_releasing p
        (Part.releasing_of_auditing p h)) (hmark _)
    · exact hmark _
  · exact hmark _

theorem haltIdle_moves (s : Store) (n f : Nat) :
    Moves (fun p => Part.turning p ∨ p = .notice)
      (s.putFace (faceIndex n f) (haltedFace (s.face (faceIndex n f)))) (s.haltIdle n f) := by
  simp only [haltIdle]
  exact .after (list_moves (by simp) _ _) (.after (derive_moves (by simp) (by simp) _)
    (.after (raise_moves (by simp) _ _ _) ((tellHalted_moves _ _ _).mono fun _ => .inl)))

theorem haltIdle_moves_suspending (s : Store) (n f : Nat) :
    Moves Part.suspending (s.putFace (faceIndex n f) (haltedFace (s.face (faceIndex n f)))) (s.haltIdle n f) :=
  (haltIdle_moves s n f).mono fun p h => h.elim (Part.suspending_of_turning p) fun e => by subst e; simp

/-- What the leaving of READY does is a chain of updates after the face has halted. -/
theorem panelLeft_moves (s : Store) (p : Nat) : s.panelLeft p = s ∧ (s.face p).state = .halted ∨
    ∃ x : Face, x.state = .halted ∧ Moves Part.suspending (s.putFace p x) (s.panelLeft p) := by
  have hi := haltIdle_moves_suspending s (p / 2) (p % 2)
  rw [faceIndex_split] at hi
  simp only [panelLeft]
  split
  · next h => exact .inl ⟨rfl, h⟩
  · exact .inr ⟨_, rfl, hi⟩
  · split
    · next c _ =>
      have hs := suspend_moves s (p / 2) (p % 2) c
      rw [faceIndex_split] at hs
      exact .inr ⟨_, rfl, hs⟩
    · exact .inr ⟨_, rfl, hi⟩

theorem panelLeft_panels (s : Store) (p : Nat) : (s.panelLeft p).panels = s.panels := by
  rcases panelLeft_moves s p with ⟨h, _⟩ | ⟨x, _, h⟩
  · rw [h]
  · exact h.panels (by simp)

theorem panelLeft_panel (s : Store) (p q : Nat) : (s.panelLeft p).panel q = s.panel q := by
  rw [panel, panelLeft_panels]; rfl

/-- The face of a panel that leaves READY is HALTED. -/
theorem panelLeft_halted (s : Store) (hp : p < 8) : ((s.panelLeft p).face p).state = .halted := by
  have hidx : faceIndex (p / 2) (p % 2) = p := faceIndex_split p
  have hself (x : Face) : (s.putFace p x).face p = x := putFace_face_self s hp x
  have hi := haltIdle_moves s (p / 2) (p % 2)
  rw [hidx] at hi
  have hidle : ((s.haltIdle (p / 2) (p % 2)).face p).state = .halted :=
    hi.halted (by simp) (by rw [hself]; rfl)
  simp only [panelLeft]
  split
  · next h => exact h
  · exact hidle
  · split
    · next c _ =>
      have hs := suspend_moves s (p / 2) (p % 2) c
      rw [hidx] at hs
      exact (hs.halted_blank (by rw [hself]; exact ⟨rfl, rfl⟩)).1
    · exact hidle

theorem eventEnd_halted {i : Nat} (h : (s.face i).state = .halted) : (s.eventEnd.face i).state = .halted :=
  (eventEnd_moves s).halted (by simp) h

/-! ## PANEL_RESTART (R82) -/


/-- Of two records put for one panel the second stays. -/
theorem putPanel_putPanel (s : Store) (p : Nat) (x y : Panel) :
    (s.putPanel p x).putPanel p y = s.putPanel p y := by
  simp only [putPanel, put_put]

theorem list_only (s : Store) (r : ImageRecord) : s.list r = { s with writeBack := (s.list r).writeBack } := by
  unfold list
  split <;> rfl

/-- The panel of an accepted PANEL_RESTART, with the sent record that it keeps. -/
def restartedPanel (x : Panel) : Panel :=
  { x with
    line := .identifying, step := some .awaitAck, outstanding := some .identify, attempt := some 1
    timer := some 50, received := .none, holder := none, inhibit := false
    shown := if x.line = .ready then none else x.shown
    overrun := false, parity := false, framing := false, wrongType := false, sentBytes := [0xC1] }

/-- A panel with its flags, its exchange and what it has received cleared. -/
def clearedPanel (x : Panel) : Panel :=
  { x.quiet with
    overrun := false, parity := false, framing := false, wrongType := false
    received := .none, holder := none, inhibit := false }

theorem restartPanel_ready (h : (s.panel p).line = .ready) : s.restartPanel p =
    (((s.putPanel p { clearedPanel (s.panel p) with shown := none }).panelLeft p).beginIdentification p).list
      (.status (4 + p)) := by
  simp only [restartPanel, h, if_pos]; rfl

theorem restartPanel_offline (hp : p < 8) (h : (s.panel p).line = .offline) : s.restartPanel p =
    (s.putPanel p (restartedPanel (s.panel p))).list (.status (4 + p)) := by
  have hb : (s.putPanel p (clearedPanel (s.panel p))).beginIdentification p =
      s.putPanel p (restartedPanel (s.panel p)) := by
    rw [beginIdentification, putPanel_panel_self _ hp, putPanel_putPanel]
    simp only [restartedPanel, h]
    rfl
  rw [← hb]
  simp only [restartPanel, h]; rfl

theorem beginIdentification_panel (hp : p < 8) : (s.beginIdentification p).panel p =
    { (s.panel p).send .identify 1 with line := .identifying, step := some .awaitAck } := putPanel_panel_self s hp _

theorem restartPanel_panel (hp : p < 8) (h : (s.panel p).line ≠ .identifying) :
    (s.restartPanel p).panel p = restartedPanel (s.panel p) := by
  cases hl : (s.panel p).line with
  | identifying => exact absurd hl h
  | offline =>
    rw [restartPanel_offline hp hl]
    show (Store.list _ _).panel p = _
    rw [panel, list_panels]
    exact putPanel_panel_self s hp _
  | ready =>
    rw [restartPanel_ready hl, panel, list_panels]
    show (Store.beginIdentification _ p).panel p = _
    rw [beginIdentification_panel hp, panelLeft_panel, putPanel_panel_self s hp]
    simp only [restartedPanel, hl]
    rfl

theorem restartPanel_listed (s : Store) (p : Nat) : .status (4 + p) ∈ (s.restartPanel p).writeBack :=
  mem_list_writeBack _ _

theorem restartPanel_halted (hp : p < 8) (h : (s.panel p).line = .ready) :
    ((s.restartPanel p).face p).state = .halted := by
  rw [restartPanel_ready h, face, list_faces]
  exact panelLeft_halted _ hp

/-- Of a panel that was OFFLINE nothing else changes, and the end of the event finds nothing due. -/
theorem restartPanel_offline_eventEnd (hp : p < 8) (h : (s.panel p).line = .offline) (ha : s.Attended) :
    (s.restartPanel p).eventEnd = { s.putPanel p ((s.restartPanel p).eventEnd.panel p) with
      writeBack := (s.restartPanel p).eventEnd.writeBack } := by
  have hput : (s.putPanel p (restartedPanel (s.panel p))).Attended := ha.putPanel fun hr => nomatch hr
  have hstill : (s.restartPanel p).eventEnd = s.restartPanel p := by
    rw [restartPanel_offline hp h]
    exact eventEnd_still ((Alike.list _ _).attended hput)
  rw [hstill, restartPanel_panel hp (by rw [h]; exact nofun), restartPanel_offline hp h]
  exact list_only _ _

end Store

namespace Owner

variable {ws : List Word} {s : Store}

theorem panelRestart_notFitted (h : ¬ (Req.whole ws 2 ≤ 7 ∧ s.fitted (Req.whole ws 2 / 2) = true)) :
    panelRestart ws s = .refuse s .notFitted := by
  refine if_pos ?_
  rcases Nat.lt_or_ge 7 (Req.whole ws 2) with hp | hp
  · exact .inl hp
  · exact .inr (Bool.not_eq_true _ ▸ fun hf => h ⟨hp, hf⟩)

theorem panelRestart_fitted (h : Req.whole ws 2 ≤ 7 ∧ s.fitted (Req.whole ws 2 / 2) = true) :
    panelRestart ws s = if (s.panel (Req.whole ws 2)).line = .identifying then .refuse s .wrongState
      else .accept (s.restartPanel (Req.whole ws 2)) .accepted [] := by
  refine if_neg fun hn => ?_
  rcases hn with hp | hf
  · exact absurd h.1 (Nat.not_le_of_lt hp)
  · rw [h.2] at hf; exact nomatch hf

end Owner

end Sys2Proof.Machine

end

section

open Sys2Proof Sys2Proof.Machine

/-- Settles O46: the panel is restarted after its face has left READY, no job block touches a panel, and the end of the
event compares only READY panels. -/
theorem panelRestartIdentifies : Obligations.PanelRestartIdentifies := by
  intro s e h p fitted
  have hrow : exec .panelRestart s = .next (s.requestRow (· == Code.panelRestart) Owner.panelRestart) := rfl
  have hkind : (Code.panelRestart == Code.panelRestart) = true := beq_self_eq_true _
  refine ⟨fun hf => ?_, fun hf hl => ?_, fun hf hl => ?_⟩
  · exact h.refuses hrow hkind (Owner.panelRestart_notFitted hf)
  · exact h.refuses hrow hkind ((Owner.panelRestart_fitted hf).trans (if_pos hl))
  · have hp : p < 8 := Nat.lt_succ_of_le hf.1
    have hpanel : (s.store.restartPanel p).panel p = Store.restartedPanel (s.store.panel p) :=
      Store.restartPanel_panel hp hl
    have hend : (s.store.restartPanel p).eventEnd.panel p = Store.restartedPanel (s.store.panel p) :=
      (Store.eventEnd_panel_not_ready hp (by rw [hpanel]; exact nofun)).trans hpanel
    refine h.accepts hrow hkind ((Owner.panelRestart_fitted hf).trans (if_neg hl)) ⟨hend, fun hr => ?_, ?_,
      fun ho hatt => ?_⟩
    · exact Store.eventEnd_halted (Store.restartPanel_halted hp hr)
    · exact Store.eventEnd_keeps_listed _ (Store.restartPanel_listed _ _)
    · exact Store.restartPanel_offline_eventEnd hp ho hatt

end

/-! # Nothing is left due at the end of a step (R86, R88, R100)

A panel that is READY with nothing outstanding rests: it shows nothing yet, or what its face wishes with no key event in
its holder. No job block touches a panel, so an event keeps every panel *poised* (its holder empty where an exchange has
ended), and the end of the event, which compares every display, brings the poised panels to rest. A panel whose exchange
ends in the event itself, with a key event held, has the event taken after the comparison. -/

section

namespace Sys2Proof.Machine

open Sys2Proof

/-! ## Displays that do not differ -/

theorem vector_three_ext {α : Type} {d : α} {x y : Vector α 3} (h : ∀ b, b < 3 → look x d b = look y d b) : x = y := by
  ext i hi
  have := h i hi
  simpa [look, hi] using this

theorem firstDifference_none {d e : Display} (h : firstDifference d e = none) : d = e := by
  unfold firstDifference at h
  dsimp only at h
  split at h
  · exact nomatch h
  · next he =>
    split at h
    · exact nomatch h
    · next h0 =>
      split at h
      · exact nomatch h
      · next h1 =>
        split at h
        · exact nomatch h
        · next h2 =>
          split at h
          · exact nomatch h
          · next hn =>
            simp only [bne_iff_ne, ne_eq, Decidable.not_not] at he h0 h1 h2 hn
            have hb : d.bays = e.bays := vector_three_ext fun b hb =>
              match b, hb with
              | 0, _ => h0
              | 1, _ => h1
              | 2, _ => h2
            cases d
            cases e
            simp_all

namespace Panel

variable {x : Panel} {d : Display}

/-- Nothing is left to send to a panel, and nothing to take from it. -/
def Rests (x : Panel) (d : Display) : Prop :=
  x.line = .ready → x.outstanding = none → x.shown = none ∨ x.shown = some d ∧ x.holder = none

/-- No key event is held where an exchange has ended. -/
def Poised (x : Panel) : Prop := x.line = .ready → x.outstanding = none → x.shown = none ∨ x.holder = none

theorem Rests.poised (h : x.Rests d) : x.Poised := fun hl ho => (h hl ho).imp_right And.right

theorem poised_of_line (h : x.line ≠ .ready) : x.Poised := fun hl => absurd hl h

theorem poised_of_holder (h : x.holder = none) : x.Poised := fun _ _ => .inr h

theorem agree_shown (x : Panel) (d : Display) (hl : (x.agree d).line = .ready) (ho : (x.agree d).outstanding = none) :
    x.agree d = x ∧ (x.shown = none ∨ x.shown = some d) := by
  unfold agree at hl ho ⊢
  split
  · next hr =>
    rw [if_pos hr] at ho
    cases hs : x.shown with
    | none => exact ⟨rfl, .inl rfl⟩
    | some e =>
      rw [hs] at ho
      simp only [Option.bind_some] at ho ⊢
      cases hd : firstDifference e d with
      | none => exact ⟨rfl, .inr (congrArg some (firstDifference_none hd))⟩
      | some c =>
        rw [hd] at ho
        exact nomatch ho
  · next hr =>
    rw [if_neg hr] at hl ho
    exact absurd ⟨hl, ho⟩ hr

/-- The comparison brings a poised panel to rest. -/
theorem Poised.rests_agree (h : x.Poised) (d : Display) : (x.agree d).Rests d := by
  intro hl ho
  obtain ⟨he, hs⟩ := agree_shown x d hl ho
  rw [he] at hl ho ⊢
  rcases h hl ho with hn | hn
  · exact .inl hn
  · exact hs.imp_right fun hs => ⟨hs, hn⟩

theorem agree_holder (x : Panel) (d : Display) : (x.agree d).holder = x.holder := by
  unfold agree
  split
  · split <;> rfl
  · rfl

end Panel

namespace Store

variable {s t : Store} {p : Nat}

/-- Nothing is left due. -/
structure Rested (s : Store) : Prop where
  pass : s.passDue = false
  panels : ∀ p, p < 8 → (s.panel p).Rests (s.face p).desired

/-- Every panel is poised, but one that an event may be about. -/
def PoisedBut (s : Store) (p : Nat) : Prop := ∀ q, q < 8 → q ≠ p → (s.panel q).Poised

/-- Every panel is poised. -/
def Poised (s : Store) : Prop := ∀ p, p < 8 → (s.panel p).Poised

theorem rested_iff (s : Store) : s.Rested ↔ s.Attended ∧ s.KeysTaken := by
  refine ⟨fun h => ⟨⟨h.pass, fun p hp hl ho => ?_⟩, fun p hp ht => ?_⟩, fun ⟨ha, hk⟩ => ⟨ha.pass, fun p hp hl ho => ?_⟩⟩
  · exact (h.panels p hp hl ho).imp_right And.left
  · obtain ⟨hl, ho, hs⟩ := ht
    rcases h.panels p hp hl ho with hn | ⟨_, hn⟩
    · rw [hn] at hs; exact nomatch hs
    · exact hn
  · exact (ha.displays p hp hl ho).imp_right fun hs => ⟨hs, hk p hp ⟨hl, ho, hs⟩⟩

theorem Rested.poised (h : s.Rested) : s.Poised := fun p hp => (h.panels p hp).poised

theorem Poised.but (h : s.Poised) (p : Nat) : s.PoisedBut p := fun q hq _ => h q hq

theorem Rested.of_eq (h : s.Rested) (hd : t.passDue = s.passDue) (hp : t.panels = s.panels)
    (hf : t.faces = s.faces) : t.Rested where
  pass := hd.trans h.pass
  panels p hl := by
    rw [panel, hp, face, hf]
    exact h.panels p hl

theorem Poised.of_panels (h : s.Poised) (hp : t.panels = s.panels) : t.Poised := fun p hl => by
  rw [panel, hp]
  exact h p hl

/-! ## The end of an event brings poised panels to rest -/

theorem eventEnd_rested (h : s.Poised) : s.eventEnd.Rested where
  pass := eventEnd_passDue s
  panels p hp := by
    rw [eventEnd_panel s hp]
    exact (h p hp).rests_agree _

theorem mayTake_iff (s : Store) (p : Nat) : s.mayTake p = true ↔ s.takesKeys p := by
  simp only [mayTake, takesKeys, Bool.and_eq_true, beq_iff_eq, Option.isNone_iff_eq_none, and_assoc]

theorem panel_outside (hp : ¬ p < 8) (s : Store) : s.panel p = Panel.unfitted := by
  simp [panel, look, Vector.getElem?_eq_none (Nat.le_of_not_lt hp)]

theorem emptyHolder_poised (h : s.PoisedBut p) (hp : p < 8) : (s.emptyHolder p).Poised := fun q hq => by
  by_cases e : q = p
  · subst e
    exact Panel.poised_of_holder (congrArg Panel.holder (putPanel_panel_self s hp _))
  · rw [emptyHolder, putPanel_panel_other _ e]
    exact h q hq e

theorem actKey_panels (s : Store) (i : Nat) (e : KeyEvent) : (s.actKey i e).panels = s.panels :=
  (actKey_moves s i e).panels (by simp)

theorem takeKeyIf_rested (h : s.Rested) (p : Nat) (kind : KeyEvent → Bool) : (s.takeKeyIf p kind).Rested := by
  unfold takeKeyIf
  split
  · exact h
  · next e he =>
    split
    · have hp : p < 8 := Classical.byContradiction fun hp => by rw [panel_outside hp] at he; exact nomatch he
      exact eventEnd_rested ((emptyHolder_poised (h.poised.but p) hp).of_panels (actKey_panels _ _ _))
    · exact h

/-- After the comparison the event that a panel holds is taken, if the panel shows what its face wishes (R88). -/
theorem takeKey_rested (h : s.PoisedBut p) : (s.eventEnd.takeKey p).Rested := by
  have hpanel {q : Nat} (hq : q < 8) := eventEnd_panel s hq
  have hbut : s.eventEnd.PoisedBut p := fun q hq hne => by
    rw [hpanel hq]
    exact ((h q hq hne).rests_agree _).poised
  by_cases hp : p < 8
  · cases hh : (s.eventEnd.panel p).holder with
    | none =>
      have hpoised : s.Poised := fun q hq => by
        by_cases e : q = p
        · subst e
          exact Panel.poised_of_holder (by rw [← hh, hpanel hq, Panel.agree_holder])
        · exact h q hq e
      simp only [takeKey, takeKeyIf, hh]
      exact eventEnd_rested hpoised
    | some e =>
      simp only [takeKey, takeKeyIf, hh, Bool.and_true]
      split
      · exact eventEnd_rested ((emptyHolder_poised hbut hp).of_panels (actKey_panels _ _ _))
      · next hn =>
        refine ⟨eventEnd_passDue s, fun q hq => ?_⟩
        by_cases e : q = p
        · subst e
          intro hl ho
          rw [hpanel hq] at hl ho
          obtain ⟨he, hs⟩ := Panel.agree_shown _ _ hl ho
          rw [← hpanel hq] at hl ho
          rcases hs with hs | hs
          · exact .inl (by rw [hpanel hq, he]; exact hs)
          · refine absurd ((mayTake_iff _ _).mpr ⟨hl, ho, ?_⟩) hn
            rw [hpanel hq, he]
            exact hs
        · rw [hpanel hq]
          exact (h q hq e).rests_agree _
  · have hnone : (s.eventEnd.panel p).holder = none := by rw [panel_outside hp]; rfl
    simp only [takeKey, takeKeyIf, hnone]
    exact eventEnd_rested fun q hq => h q hq fun e => hp (e ▸ hq)

/-! ## Operations that touch no panel -/

theorem changeChannel_panels (s : Store) (n : Nat) (c : Channel) : (s.changeChannel n c).panels = s.panels := by
  have hd (u : Store) : (u.deriveBoth n).panels = u.panels := (deriveBoth_moves u n).panels (by simp)
  simp only [changeChannel]
  split
  · exact setChannel_panels _ _ _
  · rw [hd, setChannel_panels]

theorem motion_panels (h : Moves Part.motion s t) : t.panels = s.panels := h.panels (by simp)

theorem closeForFence_panels (s : Store) (n f : Nat) : (s.closeForFence n f).panels = s.panels := by
  simp only [closeForFence]
  split
  · rw [list_panels]
    split
    · exact updCarrier_panels _ _ _
    · rfl
  · rfl

theorem foldl_panels {α : Type} (g : Store → α → Store) (h : ∀ s x, (g s x).panels = s.panels) (xs : List α)
    (s : Store) : (xs.foldl g s).panels = s.panels := by
  induction xs generalizing s with
  | nil => rfl
  | cons x xs ih => rw [List.foldl_cons, ih, h]

theorem fence_panels (s : Store) (n : Nat) (c : FenceCause) (code : Option Nat) :
    (s.fence n c code).panels = s.panels := by
  have hr (u : Store) (nums : List Nat) : (releaseMany handBack u nums).panels = u.panels :=
    (releaseMany_moves handBack_moves_any u nums).panels (by simp)
  have hs (u : Store) (r : Nat) : (u.suspectMark r).panels = u.panels := (suspectMark_moves u r).panels (by simp)
  have ha (u : Store) : (u.auditFence n).panels = u.panels :=
    (auditFence_moves (K := Part.releasing) (fun _ => by simp) (by simp) u n).panels (by simp)
  have hd (u : Store) : (u.deriveBoth n).panels = u.panels := (deriveBoth_moves u n).panels (by simp)
  simp only [fence, list_panels, raise_panels, hd, ha, hr, foldl_panels _ (fun u c => hs u (recordOf n c)),
    closeForFence_panels]
  rfl

theorem serviceCheck_panels (s : Store) (n : Nat) : (s.serviceCheck n).panels = s.panels :=
  motion_panels (serviceCheck_moves_any s n)

theorem leaveHeld_panels (s : Store) (n : Nat) : (s.leaveHeld n).panels = s.panels := by
  rw [leaveHeld_eq, serviceCheck_panels, raise_panels, changeChannel_panels]

theorem serveFace_panels (s : Store) (n p f : Nat) : (s.serveFace n p f).1.panels = s.panels := by
  have hK : ∀ q, Part.serving n f q → Part.serving n f q ∨ q = .opening (faceIndex n f) := fun _ => .inl
  have hopens (u : Store) (hu : (u.face (faceIndex n f)).state ≠ .halted) (x : Face) (hx : x.state = .presenting)
      (hd : x.desired = (u.face (faceIndex n f)).desired) :
      Moves (fun q => Part.serving n f q ∨ q = .opening (faceIndex n f)) u (u.putFace (faceIndex n f) x) :=
    .one (by simp) (.reopens u _ x hu hx hd)
  simp only [serveFace]
  split
  · rfl
  · next e he =>
    have hh : (s.face (faceIndex n f)).state ≠ .halted := by
      have hs := List.find?_some he
      simp only [satisfied, Bool.and_eq_true, Bool.not_eq_true', faceHalted, beq_eq_false_iff_ne] at hs
      exact hs.2
    have hset (q : List QueueEntry) : ((s.setChannel n { s.channel n with queue := q }).face (faceIndex n f)).state ≠
        .halted := by rw [face, setChannel_faces]; exact hh
    split
    · rw [(openWork_moves hK _ _ _ (hopens _ (hset _))).panels (by simp), setChannel_panels]
    · rw [(openCount_moves hK _ _ _ (hopens _ (hset _))).panels (by simp), setChannel_panels]

theorem serveAt_panels (s : Store) (n p : Nat) : (s.serveAt n p).panels = s.panels := by
  simp only [serveAt]
  split
  · rw [motion_panels (retryCore_moves (.any fun _ h => h)), serveFace_panels, serveFace_panels]
  · rw [serveFace_panels, serveFace_panels]

theorem homedRun_panels (s : Store) (n : Nat) : (s.homedRun n).panels = s.panels := by
  rw [homedRun_eq, serviceCheck_panels, list_panels, raise_panels, triggerPass_panels,
    motion_panels (countingCheck_moves_any _ _), homedAt, (deriveBoth_moves _ n).panels (by simp)]
  rfl

theorem takeReport_panels (s : Store) (n : Nat) (r : DriveReport) : (s.takeReport n r).panels = s.panels := by
  unfold takeReport
  split
  · rfl
  · rfl
  · unfold reportHoming
    split
    · exact fence_panels _ _ _ _
    · exact fence_panels _ _ _ _
    · exact homedRun_panels _ _
    · exact fence_panels _ _ _ _
  · unfold reportUnsolicited
    split <;> exact fence_panels _ _ _ _
  · unfold reportUnsolicited
    split <;> exact fence_panels _ _ _ _
  · unfold reportMoving
    split
    · simp only [arrive]
      split
      · rw [serviceCheck_panels, serveAt_panels, changeChannel_panels]
      · exact fence_panels _ _ _ _
    · simp only [stopShort]
      split
      · rw [leaveHeld_panels, raise_panels, changeChannel_panels]
      · rw [raise_panels, changeChannel_panels]
    · exact fence_panels _ _ _ _
    · exact fence_panels _ _ _ _

theorem driveByte_panels (n : Nat) (s : Store) (b : Byte) : (driveByte n s b).panels = s.panels := by
  simp only [driveByte]
  split
  · rw [takeReport_panels]; rfl
  · rfl

theorem gateOpened_panels (s : Store) (n : Nat) : (s.gateOpened n).panels = s.panels := by
  rw [gateOpened_eq, raise_panels, setChannel_panels]

theorem gateClosed_panels (s : Store) (n : Nat) : (s.gateClosed n).panels = s.panels := by
  have h : (s.shutGate n).panels = s.panels := by rw [shutGate, raise_panels, setChannel_panels]
  by_cases hh : (s.channel n).state = .held
  · rw [gateClosed_held hh, leaveHeld_panels, h]
  · by_cases hi : (s.channel n).state = .idle
    · rw [gateClosed_idle hi, serviceCheck_panels, h]
    · rw [gateClosed_other hh hi, h]

theorem expireDeadline_panels (s : Store) (n : Nat) : (s.expireDeadline n).panels = s.panels := by
  unfold expireDeadline
  split
  · exact fence_panels _ _ _ _
  · rfl

theorem panelEntered_panels (s : Store) (i : Nat) : (s.panelEntered i).panels = s.panels := by
  simp only [panelEntered]
  split
  · rw [(derive_moves (K := Part.motion) (by simp) (by simp) _).panels (by simp), list_panels, raise_panels,
      (tellWorking_moves _ _ _).panels (by simp)]
    rfl
  · rfl

theorem setLane_ordering (s : Store) (l : Nat) (x : Lane) : Moves Part.ordering s (s.setLane l x) :=
  setLane_moves trivial trivial s x

theorem occupyLane_moves (s : Store) (l : Nat) : Moves Part.ordering s (s.occupyLane l) :=
  (setLane_ordering s l _).trans (raise_moves trivial _ _ _)

theorem settledEvent_moves (s : Store) (l : Nat) (r : Int) : Moves Part.ordering s (s.settledEvent l r) := by
  unfold settledEvent
  split
  · split
    · exact occupyLane_moves _ _
    · exact ((freeLane_moves trivial trivial s true).trans (list_moves trivial _ _)).trans (admissionPass_moves _)
  · split
    · exact occupyLane_moves _ _
    · exact .refl _
  · exact .refl _
  · exact withReport_moves (weighLane_moves _ _ _) _
  · exact .refl _
  · exact .refl _

theorem restoreScale_moves (s : Store) (l : Nat) : Moves Part.ordering s (s.restoreScale l) := by
  simp only [restoreScale]
  split
  · exact (setLane_ordering s l _).trans (raise_moves trivial _ _ _)
  · exact .refl _

theorem validSample_moves (s : Store) (l : Nat) (raw : Int) : Moves Part.ordering s (s.validSample l raw) := by
  have hj : Moves Part.ordering s (s.joinReading l raw) := setLane_ordering s l _
  simp only [validSample]
  refine .after (restoreScale_moves _ _) ?_
  split
  · exact hj.trans (settledEvent_moves _ _ _)
  · exact hj

theorem invalidSample_moves (s : Store) (l : Nat) : Moves Part.ordering s (s.invalidSample l) := by
  simp only [invalidSample]
  split
  · exact (setLane_ordering s l _).trans (raise_moves trivial _ _ _)
  · exact setLane_ordering s l _

theorem scan_moves (s : Store) (l : Nat) (raw : Int) (v : Bool) : Moves Part.ordering s (s.scan l raw v) := by
  simp only [scan]
  split
  · exact (setLane_ordering s l _).trans (validSample_moves _ _ _)
  · exact (setLane_ordering s l _).trans (invalidSample_moves _ _)

theorem ordering_panels (h : Moves Part.ordering s t) : t.panels = s.panels := h.panels (by simp)

/-! ## A panel's own events touch that panel alone -/

/-- No panel but `p` differs. -/
def OnlyPanel (p : Nat) (s t : Store) : Prop := ∀ q, q ≠ p → t.panel q = s.panel q

namespace OnlyPanel

variable {u : Store}

theorem refl (p : Nat) (s : Store) : OnlyPanel p s s := fun _ _ => rfl

theorem trans (h : OnlyPanel p s t) (k : OnlyPanel p t u) : OnlyPanel p s u := fun q hq => (k q hq).trans (h q hq)

theorem of_panels (h : t.panels = s.panels) : OnlyPanel p s t := fun q _ => by rw [panel, h]; rfl

theorem put (s : Store) (p : Nat) (x : Panel) : OnlyPanel p s (s.putPanel p x) := fun _ hq => putPanel_panel_other s hq x

theorem set (s : Store) (p : Nat) (x : Panel) : OnlyPanel p s (s.setPanel p x) := by
  simp only [setPanel]
  split
  · exact put s p x
  · exact (put s p x).trans (of_panels (list_panels _ _))

theorem but (h : OnlyPanel p s t) (hs : s.PoisedBut p) : t.PoisedBut p := fun q hq hne => by
  rw [h q hne]
  exact hs q hq hne

end OnlyPanel

theorem goOffline_only (s : Store) (p : Nat) : OnlyPanel p s (s.goOffline p) := by
  have h := OnlyPanel.put s p (s.panel p).offline
  simp only [goOffline]
  split
  · exact h.trans (.of_panels (by rw [list_panels, panelLeft_panels]))
  · exact h.trans (.of_panels (list_panels _ _))

theorem failExchange_only (s : Store) (p : Nat) : OnlyPanel p s (s.failExchange p) := by
  simp only [failExchange]
  split
  · exact .refl _ _
  · split
    · exact .put _ _ _
    · exact goOffline_only _ _

theorem enterReady_only (s : Store) (p : Nat) : OnlyPanel p s (s.enterReady p) :=
  (OnlyPanel.put s p _).trans (.of_panels ((list_panels _ _).trans (panelEntered_panels _ _)))

theorem takeAck_only (s : Store) (p : Nat) : OnlyPanel p s (s.takeAck p) := by
  simp only [takeAck]
  split
  · exact .refl _ _
  · split
    · exact .put _ _ _
    · exact .refl _ _
    · exact enterReady_only _ _
    · exact .put _ _ _

theorem takeIdent_only (s : Store) (p : Nat) (b : Byte) : OnlyPanel p s (s.takeIdent p b) := by
  simp only [takeIdent]
  split
  · split
    · exact .put _ _ _
    · exact (OnlyPanel.put _ _ _).trans (goOffline_only _ _)
  · exact .refl _ _

theorem takeEvent_only (s : Store) (p : Nat) (e : KeyEvent) : OnlyPanel p s (s.takeEvent p e) := by
  simp only [takeEvent]
  split
  · split
    · exact .put _ _ _
    · exact .set _ _ _
  · exact .refl _ _

theorem freshByte_only (s : Store) (p : Nat) (b : Byte) : OnlyPanel p s (s.freshByte p b) := by
  unfold freshByte
  split
  · exact takeAck_only _ _
  · split
    · exact failExchange_only _ _
    · split
      · exact .put _ _ _
      · split
        · exact .put _ _ _
        · split
          · exact takeEvent_only _ _ _
          · exact .refl _ _

theorem panelByte_only (p : Nat) (s : Store) (b : Byte) : OnlyPanel p s (panelByte p s b) := by
  have hr (m : PendingMessage) : OnlyPanel p s (s.setReceived p m) := .put _ _ _
  simp only [panelByte]
  split
  · exact .refl _ _
  · split
    · exact freshByte_only _ _ _
    · split
      · exact (hr _).trans (takeEvent_only _ _ _)
      · exact (hr _).trans (freshByte_only _ _ _)
    · split
      · exact (hr _).trans (takeIdent_only _ _ _)
      · exact (hr _).trans (freshByte_only _ _ _)

theorem foldl_panelByte_only (p : Nat) (bs : List Byte) (s : Store) : OnlyPanel p s (bs.foldl (panelByte p) s) := by
  induction bs generalizing s with
  | nil => exact .refl _ _
  | cons b bs ih => exact (panelByte_only p s b).trans (ih _)

theorem panelMessage_rested (h : s.Rested) (p : Nat) (bs : List Byte) : (s.panelMessage p bs).Rested :=
  takeKey_rested ((foldl_panelByte_only p bs s).but (h.poised.but p))

/-! ## Rows without an end of their own -/

theorem badByte_rested (h : s.Rested) (p : Nat) (a b : Bool) : (s.badByte p a b).Rested := by
  have hput : (s.putPanel p ((s.panel p).badByte a b)).Rested := by
    refine ⟨h.pass, fun q hq => ?_⟩
    by_cases e : q = p
    · subst e
      rw [putPanel_panel_self _ hq]
      exact h.panels q hq
    · rw [putPanel_panel_other _ e]
      exact h.panels q hq
  by_cases hl : (s.panel p).line = .offline
  · rw [show s.badByte p a b = s from if_pos hl]
    exact h
  · rw [badByte_online hl]
    obtain ⟨rs, hrs⟩ := setPanel_writeBack_only s p ((s.panel p).badByte a b)
    rw [hrs]
    exact hput.of_eq rfl rfl rfl

theorem agreePanel_rested (h : s.Rested) (p : Nat) : (s.agreePanel p).Rested := by
  refine ⟨?_, fun q hq => ?_⟩
  · rw [agreePanel_put]; exact h.pass
  · rw [agreePanel_put]
    by_cases e : q = p
    · subst e
      rw [putPanel_panel_self _ hq]
      exact (h.panels q hq).poised.rests_agree _
    · rw [putPanel_panel_other _ e]
      exact h.panels q hq

theorem expireArrival_rested (h : s.Rested) (l : Nat) : (s.expireArrival l).Rested := by
  simp only [expireArrival]
  split
  · exact h.of_eq (by simp) (by simp) (by simp)
  · exact h

end Store

end Sys2Proof.Machine

end

/-! # Every row leaves nothing due -/

section

namespace Sys2Proof.Machine

open Sys2Proof

/-! ## Requests -/

/-- An owner's answer leaves nothing due where nothing was. -/
def Answer.Rested (s : Store) (a : Answer) : Prop := s.Rested → a.store.Rested

namespace Answer

variable {s x : Store}

theorem rested_refuse (s : Store) (st : Status) : (refuse s st).Rested s := id

theorem rested_accept_of_poised (h : s.Poised → x.Poised) (st : Status) (d : List Word) :
    (accept x st d).Rested s := by
  intro hs
  rw [accept_store]
  exact Store.eventEnd_rested (h hs.poised)

theorem rested_accept (h : x.panels = s.panels) (st : Status) (d : List Word) : (accept x st d).Rested s :=
  rested_accept_of_poised (fun hs => hs.of_panels h) st d

theorem rested_accept_ordering (h : Moves Part.ordering s x) (st : Status) (d : List Word) :
    (accept x st d).Rested s := rested_accept (Store.ordering_panels h) st d

end Answer

namespace Owner

open Answer

variable (ws : List Word) (s : Store)

theorem articleDefine_rested : (articleDefine ws s).Rested s := by
  simp only [articleDefine]
  split
  · exact rested_refuse _ _
  · split
    · exact rested_refuse _ _
    · exact rested_accept (Store.setArticle_panels s _ _) _ _

theorem articleRemove_rested : (articleRemove ws s).Rested s := by
  simp only [articleRemove]
  split
  · exact rested_refuse _ _
  · split
    · exact rested_refuse _ _
    · exact rested_accept (Store.setArticle_panels s _ _) _ _

theorem received_panels (b : Nat) (x : Batch) : (received s b x).panels = s.panels := by
  have h1 : Moves Part.planning s (s.setBatch b (.opened x)) := .one (by simp) (.batch s b _)
  have h2 : Moves Part.planning (s.setBatch b (.opened x)) ((s.setBatch b (.opened x)).planRun b x.quantity).1 :=
    Store.planRun_moves (.any (C := Claim.IsPut) fun p h => by cases p <;> simp_all) trivial (by simp) _
  exact ((h1.trans h2).trans (Store.updBatch_moves (by simp) _ _)).panels (by simp)

theorem receive_rested : (receive ws s).Rested s := by
  simp only [receive]
  split
  · exact rested_refuse _ _
  · split
    · exact rested_refuse _ _
    · split
      · exact rested_refuse _ _
      · split
        · exact rested_refuse _ _
        · split
          · exact rested_refuse _ _
          · exact rested_accept (received_panels s _ _) _ _

theorem opened_moves (k : Nat) (o : Order) :
    Moves Part.ordering s ((((s.putOrder k (some o)).joinAdmission k).list (.order k)).admissionPass) :=
  (((Store.putOrder_moves trivial s _).trans (Store.joinAdmission_moves _ _)).trans
    (Store.list_moves trivial _ _)).trans (Store.admissionPass_moves _)

theorem orderOpen_rested : (orderOpen ws s).Rested s := by
  simp only [orderOpen]
  split
  · exact rested_refuse _ _
  · split
    · exact rested_refuse _ _
    · split
      · exact rested_refuse _ _
      · split
        · exact rested_refuse _ _
        · split
          · exact rested_refuse _ _
          · exact rested_accept_ordering (opened_moves s _ _) _ _

theorem cancelAdmitting_moves (k : Nat) : Moves Part.ordering s (cancelAdmitting s k) :=
  ((Moves.one (p := .admission) trivial (.admission s (s.admission.filter (· != k)) s.admissionCounter s.admitted)).trans
    (Store.freeOrder_moves _ _)).trans (Store.admissionPass_moves _)

theorem cancelActive_moves (k : Nat) (o : Order) : Moves Part.releasing s (cancelActive s k o) := by
  have h1 : Moves Part.ordering s ((s.putOrder k (some { o with state := .cancelling })).leaveWaiting k) :=
    (Store.putOrder_moves trivial s _).trans (Store.leaveWaiting_moves trivial _ _)
  have hb (u : Store) (r : Reservation) : Moves Part.releasing u (u.handBackCancelled r) :=
    (Store.handBackCancelled_moves u r).mono Part.releasing_of_ordering
  simp only [cancelActive]
  exact .after (Store.list_moves (by simp) _ _) (.after ((Store.cancellationEnd_moves _ _).mono
    Part.releasing_of_ordering) (.after (Store.releaseMany_moves hb _ _) (h1.mono Part.releasing_of_ordering)))

theorem orderCancel_rested : (orderCancel ws s).Rested s := by
  simp only [orderCancel]
  split
  · exact rested_refuse _ _
  · split
    · exact rested_refuse _ _
    · split
      · exact rested_accept_ordering (cancelAdmitting_moves s _) _ _
      · exact rested_accept ((cancelActive_moves s _ _).panels (by simp)) _ _
      · exact rested_refuse _ _
      · exact rested_refuse _ _
      · exact rested_refuse _ _

theorem audit_rested : (audit ws s).Rested s := by
  simp only [audit]
  split
  · exact rested_refuse _ _
  · have h := (Store.askAudit_moves s (Store.recordOf (Req.byte ws 2 0) (Req.byte ws 2 1)) .request false).panels
      (by simp)
    split <;> rename_i heq
    · exact rested_accept rfl _ _
    · rw [heq] at h
      exact rested_accept h _ _
    · exact rested_refuse _ _

theorem setReason_panels (q : Nat) (b : Option BlockReason) : (s.setReason q b).panels = s.panels :=
  Store.updCarrier_panels _ _ _

theorem slotBlock_rested : (slotBlock ws s).Rested s := by
  simp only [slotBlock]
  split
  · exact rested_refuse _ _
  · split
    · exact rested_refuse _ _
    · exact rested_accept (setReason_panels s _ _) _ _

theorem slotUnblock_rested : (slotUnblock ws s).Rested s := by
  simp only [slotUnblock]
  split
  · exact rested_refuse _ _
  · split
    · exact rested_refuse _ _
    · split
      · exact rested_refuse _ _
      · exact rested_accept ((Store.triggerPass_panels _).trans (setReason_panels s _ _)) _ _

theorem home_rested : (home ws s).Rested s := by
  simp only [home]
  split
  · exact rested_refuse _ _
  · split
    · exact rested_refuse _ _
    · split
      · exact rested_refuse _ _
      · exact rested_accept (Store.changeChannel_panels s _ _) _ _

theorem acceptLane_moves (l : Nat) (r : Int) : Moves Part.ordering s (acceptLane s l r) := by
  have h (x : Lane) : Moves Part.ordering s (if (s.lane l).weight = some .mismatch then
      (s.putLane l x).raise (.lane l) Flag.laneMatchRestored else s.putLane l x) := by
    split
    · exact (Store.putLane_moves trivial s x).trans (Store.raise_moves trivial _ _ _)
    · exact Store.putLane_moves trivial s x
  simp only [acceptLane]
  refine .after (Store.list_moves trivial _ _) ?_
  split
  · exact h _
  · exact (h _).trans (Store.matchReport_moves _ _)

theorem laneAccept_rested : (laneAccept ws s).Rested s := by
  simp only [laneAccept]
  split
  · exact rested_refuse _ _
  · split
    · exact rested_refuse _ _
    · exact rested_accept_ordering (acceptLane_moves s _ _) _ _

theorem releaseLane_moves (l : Nat) (r : Int) : Moves Part.ordering s (releaseLane s l r) := by
  simp only [releaseLane]
  refine .after (Store.list_moves trivial _ _) (.after (Store.admissionPass_moves _)
    (.after (Store.freeLane_moves trivial trivial _ _) ?_))
  split
  · exact .after (Store.freeOrder_moves _ _) (Store.putLane_moves trivial s _)
  · exact Store.putLane_moves trivial s _

theorem laneRelease_rested : (laneRelease ws s).Rested s := by
  simp only [laneRelease]
  split
  · exact rested_refuse _ _
  · split
    · exact rested_refuse _ _
    · split
      · exact rested_refuse _ _
      · exact rested_accept_ordering (releaseLane_moves s _ _) _ _

/-- A restarted panel is IDENTIFYING, and no other differs. -/
theorem restartPanel_poised {p : Nat} (hl : (s.panel p).line ≠ .identifying) (h : s.Poised) :
    (s.restartPanel p).Poised := fun q hq => by
  by_cases e : q = p
  · subst e
    rw [Store.restartPanel_panel hq hl]
    exact Panel.poised_of_line nofun
  · have hother : Store.OnlyPanel p s (s.restartPanel p) := by
      have hb (u : Store) : Store.OnlyPanel p u ((u.beginIdentification p).list (.status (4 + p))) :=
        (Store.OnlyPanel.put u p _).trans (.of_panels (Store.list_panels _ _))
      simp only [Store.restartPanel]
      split
      · exact ((Store.OnlyPanel.put s p _).trans (.of_panels (Store.panelLeft_panels _ _))).trans (hb _)
      · exact (Store.OnlyPanel.put s p _).trans (hb _)
    rw [hother q e]
    exact h q hq

theorem panelRestart_rested : (panelRestart ws s).Rested s := by
  simp only [panelRestart]
  split
  · exact rested_refuse _ _
  · split
    · exact rested_refuse _ _
    · next hl => exact rested_accept_of_poised (restartPanel_poised s hl) _ _

end Owner

theorem RequestRow.rested {isKind : Nat → Bool} {f : List Word → Store → Answer} (h : RequestRow isKind f)
    (ws : List Word) (s : Store) : (answerOf f ws s).Rested s := by
  unfold answerOf
  split
  · cases h with
    | articleDefine => exact Owner.articleDefine_rested _ _
    | articleRemove => exact Owner.articleRemove_rested _ _
    | receive => exact Owner.receive_rested _ _
    | orderOpen => exact Owner.orderOpen_rested _ _
    | orderCancel => exact Owner.orderCancel_rested _ _
    | audit => exact Owner.audit_rested _ _
    | slotBlock => exact Owner.slotBlock_rested _ _
    | slotUnblock => exact Owner.slotUnblock_rested _ _
    | home => exact Owner.home_rested _ _
    | laneAccept => exact Owner.laneAccept_rested _ _
    | laneRelease => exact Owner.laneRelease_rested _ _
    | panelRestart => exact Owner.panelRestart_rested _ _
    | unknown => exact Answer.rested_refuse _ _
  · exact Answer.rested_refuse _ _

/-! ## The floor -/

theorem FloorRow.rested {f : Store → Store} (h : FloorRow f) {s : Store} (hs : s.Rested) : (f s).Rested := by
  cases h with
  | deadline n =>
    dsimp only
    split
    · exact Store.eventEnd_rested (hs.poised.of_panels (Store.expireDeadline_panels _ _))
    · exact hs
  | message p bs => exact Store.panelMessage_rested hs p bs
  | badByte p a b => exact Store.badByte_rested hs p a b
  | answer p =>
    dsimp only
    split
    · have ho : Store.OnlyPanel p s (s.expireAnswer p) := by
        unfold Store.expireAnswer
        by_cases ht : (s.panel p).timer.isSome = true
        · rw [if_pos ht]
          exact Store.failExchange_only _ _
        · rw [if_neg ht]
          exact Store.OnlyPanel.refl _ _
      exact Store.takeKey_rested (ho.but (hs.poised.but p))
    · exact hs
  | agreement p => exact Store.agreePanel_rested hs p
  | key p kind => exact Store.takeKeyIf_rested hs p kind
  | sample l raw valid =>
    dsimp only
    split
    · exact Store.eventEnd_rested (hs.poised.of_panels (Store.ordering_panels (Store.scan_moves _ _ _ _)))
    · exact hs
  | arrival l => exact Store.expireArrival_rested hs l

/-! ## The load -/

namespace Store

variable {s : Store}

theorem startPanel_poised (h : s.Poised) (p : Nat) : (s.startPanel p).Poised := fun q hq => by
  simp only [startPanel]
  split
  · by_cases e : q = p
    · subst e
      rw [beginIdentification_panel hq]
      exact Panel.poised_of_line nofun
    · rw [beginIdentification, putPanel_panel_other _ e]
      exact h q hq
  · exact h q hq

theorem foldl_startPanel_poised (ps : List Nat) (h : s.Poised) : (ps.foldl startPanel s).Poised := by
  induction ps generalizing s with
  | nil => exact h
  | cons p ps ih => exact ih (startPanel_poised h p)

theorem raiseGate_panels (s : Store) (n : Nat) : (s.raiseGate n).panels = s.panels := by
  simp only [raiseGate]
  split <;> rfl

theorem raiseCreated_panels (s : Store) (a : Nat) : (s.raiseCreated a).panels = s.panels := by
  simp only [raiseCreated]
  split <;> rfl

theorem gateSettled_panels (lines : Vector Bool 4) (s : Store) (n : Nat) :
    (gateSettled lines s n).panels = s.panels := by
  simp only [gateSettled]
  split
  · split
    · exact gateClosed_panels _ _
    · exact gateOpened_panels _ _
    · rfl
    · rfl
  · rfl

theorem startScan_panels (s : Store) (l : Nat) : (s.startScan l).panels = s.panels := by
  simp only [startScan]
  split
  · exact setLane_panels _ _ _
  · rfl

theorem startWork_rested (h : s.Poised) (b : Bool) (lines : Vector Bool 4) : (s.startWork b lines).Rested := by
  simp only [startWork]
  refine eventEnd_rested (Poised.of_panels ?_ (foldl_panels _ startScan_panels _ _))
  refine foldl_startPanel_poised _ (h.of_panels ?_)
  rw [foldl_panels _ (gateSettled_panels lines), foldl_panels _ raiseCreated_panels, foldl_panels _ raiseGate_panels]
  rfl

end Store

namespace State

variable {s t : State}

theorem rested_less (h : s.ListsLess t) (hs : s.store.Rested) : t.store.Rested := by
  rw [show t.store = _ from h.rest]
  exact hs.of_eq rfl rfl rfl

theorem rested_finish (h : s.store.Rested) : s.finish.store.Rested := rested_less (finish_listsLess s) h

theorem loadSuspect_moves (s : Store) (r : Nat) : Moves Part.auditing s (s.loadSuspect r) := by
  unfold Store.loadSuspect
  split
  · exact .refl _
  · have h := (Store.updCarrier_moves (K := Part.auditing) (by simp) (by simp)
      (.mark s r { s.carrier r with suspect := true } ⟨rfl, rfl⟩ fun _ => rfl)).trans
      (Store.askAudit_moves (s.updCarrier r fun c => { c with suspect := true }) r .suspect false)
    split <;> rename_i heq <;> rw [heq] at h
    · exact h.trans (Store.markWanted_moves (by simp) (by simp) _)
    · exact h
    · exact h

theorem listAll_moves (s : Store) (rs : List ImageRecord) : Moves (· = .listing) s (s.listAll rs) :=
  Moves.foldl _ (Store.list_moves (K := fun p => p = Part.listing) rfl) rs s

theorem loadedStore_moves (s : State) (good : Bool) : Moves Part.auditing
    { s.store with carriers := Vector.ofFn fun r : Fin 96 => s.loadedCarrier good r.val } (s.loadedStore good) := by
  refine .after ((listAll_moves _ _).mono fun p h => by subst h; simp) (.after (Store.promote_moves _ _)
    (.after (Moves.foldl _ (fun u r => Store.markWanted_moves (by simp) (by simp) u) _ _)
      (Moves.foldl _ loadSuspect_moves _ _)))

theorem powerUpValues_passDue (s : Store) (lines : Vector Bool 4) : (s.powerUpValues lines).passDue = s.passDue := by
  unfold Store.powerUpValues
  dsimp only

theorem carriersStore_moves (s : State) : Moves (fun p => p = Part.listing)
    ((s.loadedStore (s.headerMatches Config.offCarrierHeader Config.carrierFormat)).powerUpValues s.gateLines)
    s.carriersStore := by
  unfold carriersStore
  exact listAll_moves _ _

theorem loadedStore_passDue (s : State) (good : Bool) : (s.loadedStore good).passDue = s.store.passDue :=
  (loadedStore_moves s good).passDue (by simp)

/-- After the load every panel is at its power-up value: none is READY. -/
theorem carriersStore_rested (h : s.store.Rested) : s.carriersStore.Rested := by
  have hl := carriersStore_moves s
  refine ⟨?_, fun p hp => ?_⟩
  · rw [hl.passDue nofun]
    exact (powerUpValues_passDue _ _).trans ((loadedStore_passDue s _).trans h.pass)
  · have hpanel : (s.carriersStore.panel p).line ≠ .ready := by
      rw [Store.panel, hl.panels nofun]
      simp only [Store.powerUpValues, look_ofFn _ _ hp]
      split <;> exact nofun
    exact fun hr => absurd hr hpanel

theorem rested_jobEvent {f : Store → Store} (h : (f s.store).Rested) : (s.jobEvent f).store.Rested :=
  rested_finish (s := s.onStore f) h

theorem driveByte_rested (n : Nat) (b : Byte) (h : s.store.Rested) : (driveByte n s b).store.Rested := by
  rcases driveByte_cases n s b with hd | hd
  · rw [hd]
    exact rested_jobEvent (Store.eventEnd_rested (h.poised.of_panels (Store.driveByte_panels n _ b)))
  · rw [hd]
    exact h.of_eq rfl rfl rfl

theorem noticeWritten_rested {x : Store} (h : x.Rested) (n : Notice) : (x.noticeWritten n).Rested := by
  have hb (b : Nat) : (x.batchNoticeWritten b).Rested := by
    unfold Store.batchNoticeWritten
    split
    · exact h.of_eq rfl rfl rfl
    · exact h
    · exact h
  have ha (a : Nat) : (x.auditNoticeWritten a).eventEnd.Rested :=
    Store.eventEnd_rested (h.poised.of_panels ((Store.auditNoticeWritten_moves x a).panels (by simp)))
  unfold Store.noticeWritten
  split
  · split
    · exact hb _
    · exact h
  · split
    · exact ha _
    · exact h
  all_goals exact h

theorem reportWritten_rested (v : Half) (h : s.store.Rested) : (s.reportWritten v).store.Rested := by
  unfold State.reportWritten
  dsimp only
  split
  · exact noticeWritten_rested h _
  · exact h
  · exact h

theorem begunWork_rested (h : s.store.Rested) : s.begunWork.store.Rested := by
  unfold State.begunWork onStore setCondition
  dsimp only
  exact Store.startWork_rested h.poised _ _

theorem access_rested (h : s.Accesses t) (hs : s.store.Rested) : t.store.Rested := by
  cases h with
  | untaken => exact hs
  | retry => exact hs
  | passed a =>
    obtain ⟨cs, hc⟩ := passRead_only s a
    exact rested_finish (by rw [hc]; exact hs)
  | answered => exact rested_finish hs
  | written => exact rested_finish hs
  | consumed => exact rested_finish hs
  | refused => exact rested_finish (hs.of_eq rfl rfl rfl)

theorem powerUp_rested : Store.powerUp.Rested :=
  ⟨rfl, fun p _ => by rw [Store.powerUp_panel]; exact fun hr => nomatch hr⟩

/-- Nothing is left due after any command. -/
theorem Leads.rested (h : s.Leads t) (hs : s.store.Rested) : t.store.Rested := by
  cases h with
  | still => exact hs
  | powerUp => exact powerUp_rested
  | configuration =>
    obtain ⟨u, hu, cs, a, x, rfl, -⟩ := checkConfiguration_only s
    rw [hu]
    exact rested_finish (hs.of_eq rfl rfl rfl)
  | articles =>
    rw [loadArticles_eq]
    refine rested_finish ?_
    have hl := listAll_moves { s.store with articles := s.loadedArticles (s.headerMatches Config.offArticleHeader
      Config.articleFormat) } ((List.range 512).map ImageRecord.article)
    dsimp only
    exact hs.of_eq (hl.passDue nofun) (hl.panels nofun) (hl.same (g := Store.faces) fun _ _ _ hp m => by
      subst hp; cases m; exact Store.list_faces _ _)
  | carriers =>
    rw [loadCarriers_eq, claimStartWords_claims]
    refine rested_finish ?_
    dsimp only
    rw [carriersLoaded_store]
    exact carriersStore_rested hs
  | work => exact rested_finish (begunWork_rested hs)
  | linkReset =>
    rw [resetLink_eq, claimResetWords_claims]
    refine rested_finish ?_
    obtain ⟨ns, r, hr⟩ := returnNotice_only s
    have hret : s.returnNotice.store.Rested := by
      rw [hr]
      exact hs.of_eq rfl rfl rfl
    exact hret.of_eq rfl rfl rfl
  | passOnlyReset => exact rested_finish hs
  | access h => exact access_rested h hs
  | readReturned => exact rested_finish hs
  | freed => exact rested_finish hs
  | grant => exact rested_less (arbitrate_listsLess s) hs
  | postedWritten w ws b hp hw =>
    unfold State.postedWritten
    obtain ⟨cs, hc⟩ := claimRead_only _
    rw [hc]
    exact rested_finish hs
  | carried => exact rested_finish hs
  | entryTaken => exact rested_less ((intakeTake_listsLess s).trans (arbitrate_listsLess _)) hs
  | begun => exact rested_less ((reportBegin_listsLess s).trans (arbitrate_listsLess _)) hs
  | givenBack => exact rested_finish hs
  | handedOver => exact rested_finish hs
  | entryWritten => exact rested_finish hs
  | reportWritten v => exact rested_finish (reportWritten_rested v hs)
  | request isKind f hf => exact rested_finish (hf.rested _ _ hs)
  | floor f hf => exact rested_jobEvent (hf.rested hs)
  | drive n bs => exact driveBytes_induction (P := fun u => u.store.Rested) (fun u b hu => driveByte_rested n b hu) bs hs
  | gateLine => exact hs
  | gate n high f hf =>
    refine rested_jobEvent ?_
    dsimp only
    split
    · refine Store.eventEnd_rested (hs.poised.of_panels ?_)
      cases hf with
      | opens => exact Store.gateOpened_panels _ _
      | closes => exact Store.gateClosed_panels _ _
    · exact hs

end State

end Sys2Proof.Machine

end

section

open Sys2Proof Sys2Proof.Machine

/-- Settles O7: no row leaves a panel that is neither at rest nor about to be compared, and the end of an event brings
every poised panel to rest (R86, R88, R100). -/
theorem nothingIsLeftDue : Obligations.NothingIsLeftDue := by
  unfold Obligations.NothingIsLeftDue
  intro s t hatt hkeys hstep
  rw [← Store.rested_iff]
  have hs : s.store.Rested := (Store.rested_iff _).mpr ⟨hatt, hkeys⟩
  rcases step_leads hstep with rfl | ⟨cs, hleads⟩
  · exact hs
  · exact hleads.rested hs

end

/-! # LANE_ACCEPT (R146): the lane's weight and the order it may complete -/

section

namespace Sys2Proof.Machine

open Sys2Proof

namespace Store

variable {s t : Store}

/-! ## What stands of lanes, orders and batches -/

theorem lane_of_standing (h : t.standing = s.standing) (l : Nat) : t.lane l = s.lane l :=
  congrArg (fun u : Store => u.lane l) (a₁ := t.standing) (a₂ := s.standing) h

theorem batches_of_standing (h : t.standing = s.standing) : t.batches = s.batches :=
  congrArg Store.batches (a₁ := t.standing) (a₂ := s.standing) h

theorem standing_order (s : Store) (k : Nat) : s.standing.order k = (s.order k).map Order.standing :=
  look_map (Option.map Order.standing) s.orders none k

theorem order_of_standing (h : t.standing = s.standing) (k : Nat) :
    (t.order k).map Order.standing = (s.order k).map Order.standing := by
  rw [← standing_order, ← standing_order, h]

@[simp] theorem eventEnd_lane (s : Store) (l : Nat) : s.eventEnd.lane l = s.lane l :=
  lane_of_standing (standing_eventEnd s) l

@[simp] theorem eventEnd_batches (s : Store) : s.eventEnd.batches = s.batches :=
  batches_of_standing (standing_eventEnd s)

theorem eventEnd_order (s : Store) (k : Nat) :
    (s.eventEnd.order k).map Order.standing = (s.order k).map Order.standing := order_of_standing (standing_eventEnd s) k

theorem eventEnd_order_none {k : Nat} (h : s.order k = none) : s.eventEnd.order k = none :=
  Option.map_eq_none_iff.mp ((eventEnd_order s k).trans (by rw [h]; rfl))

theorem order_lt {k : Nat} {o : Order} (h : s.order k = some o) : k < 64 := by
  refine Nat.lt_of_not_le fun hk => ?_
  simp [order, look, Nat.not_lt_of_le hk] at h

theorem Raised.eventEnd {src : Source} {f : Half} (h : s.Raised src f) : s.eventEnd.Raised src f :=
  h.of_notices (eventEnd_notices s)

/-! ## The allocation pass serves the waiting lines only -/

/-- What the end of an event touches but the order `k` and the claims for it. -/
def endingBut (k : Nat) (p : Part) : Prop := Part.ending p ∧ p ≠ .order k ∧ ∀ l q, p ≠ .enter (.pick k l) q

theorem endingBut_of_claiming (k : Nat) : ∀ p, Part.claiming (fun c => ∀ l, c ≠ .pick k l) p → endingBut k p := by
  intro p h
  refine ⟨by cases p <;> simp_all, ?_, ?_⟩
  · rintro rfl
    exact h
  · rintro l q rfl
    exact h l rfl

/-- The end of an event leaves an order none of whose lines waits, and claims nothing for it. -/
theorem eventEnd_moves_but {k : Nat} (h : ∀ e ∈ s.waiting, e.1 ≠ k) : Moves (endingBut k) s s.eventEnd := by
  have halloc : Moves (endingBut k) s s.allocationPass := by
    refine allocationPass_moves (.any (endingBut_of_claiming k)) ⟨by simp, nofun, nofun⟩ (fun e he => ⟨?_, ?_⟩)
      fun _ => ⟨by simp, nofun, nofun⟩
    · exact fun l hl => h e he (Claim.pick.inj hl).1
    · exact ⟨by simp, fun hp => h e he (Part.order.inj hp), nofun⟩
  exact halloc.trans (agreeAll_moves (fun p => ⟨by simp, nofun, nofun⟩) _)

/-- An order none of whose lines waits is left by the end of the event. -/
theorem eventEnd_order_of_not_waiting {k : Nat} (h : ∀ e ∈ s.waiting, e.1 ≠ k) : s.eventEnd.order k = s.order k :=
  (eventEnd_moves_but h).order fun hk => hk.2.1 rfl

/-! ## The completion check (R109, R110) -/

/-- What completes an order, of the order. -/
def Completes (s : Store) (k l : Nat) (o : Order) : Prop :=
  s.order k = some o ∧ o.lane = some l ∧ o.state = .active ∧ (∀ y ∈ o.lines, y.filled = y.quantity) ∧
    (s.lane l).weight = some .matched

theorem isComplete_iff {k : Nat} : s.isComplete k = true ↔ ∃ o l, s.Completes k l o := by
  unfold isComplete Completes
  cases h : s.order k with
  | none => simp
  | some o =>
    have hlines : o.lines.all Line.isFilled = true ↔ ∀ y ∈ o.lines, y.filled = y.quantity := by
      simp [Line.isFilled]
    cases hl : o.lane with
    | none => simp [hl]
    | some l =>
      simp only [hl, Bool.and_eq_true, beq_iff_eq, hlines, Option.some.injEq]
      constructor
      · rintro ⟨⟨hst, hfill⟩, hw⟩
        exact ⟨o, l, rfl, hl, hst, hfill, hw⟩
      · rintro ⟨o', l', rfl, hl', hst, hfill, hw⟩
        cases hl.symm.trans hl'
        exact ⟨⟨hst, hfill⟩, hw⟩

/-- An order is completed, and its lane leaves ASSIGNED (R110). -/
def complete (s : Store) (k l : Nat) (o : Order) : Store :=
  ((((s.putOrder k (some { o with state := .complete })).leaveWaiting k).laneDone l).list (.order k)).raise (.order k)
    Flag.orderComplete

theorem completionCheck_complete {k l : Nat} {o : Order} (h : s.Completes k l o) :
    s.completionCheck k = s.complete k l o := by
  have hc : s.isComplete k = true := isComplete_iff.mpr ⟨o, l, h⟩
  obtain ⟨hk, hl, -⟩ := h
  simp only [completionCheck, hc, if_true, hk, hl, complete]

theorem completionCheck_incomplete {k : Nat} (h : ¬ ∃ o l, s.Completes k l o) : s.completionCheck k = s := by
  have hc : s.isComplete k = false := Bool.eq_false_iff.mpr fun hc => h (isComplete_iff.mp hc)
  rw [completionCheck, if_neg (by rw [hc]; exact Bool.false_ne_true)]

section

variable {k l : Nat} {o : Order}

theorem complete_order (hk : k < 64) : (s.complete k l o).order k = some { o with state := .complete } := by
  simp only [complete, laneDone, order, raise_orders, list_orders, putLane_orders, leaveWaiting]
  exact putOrder_order_self s hk _

theorem complete_lanes : (s.complete k l o).lanes = put s.lanes l { s.lane l with state := .done, weight := none } := by
  simp only [complete, laneDone, raise_lanes, list_lanes]
  rfl

theorem complete_lane_self (hl : l < 16) :
    (s.complete k l o).lane l = { s.lane l with state := .done, weight := none } := by
  rw [lane, complete_lanes, look_put_same _ _ _ _ hl]

theorem complete_lane_other {m : Nat} (h : m ≠ l) : (s.complete k l o).lane m = s.lane m := by
  rw [lane, complete_lanes, look_put_other _ _ _ _ _ h.symm]; rfl

theorem complete_not_waiting : ∀ e ∈ (s.complete k l o).waiting, e.1 ≠ k := by
  intro e he
  simp only [complete, laneDone, raise_waiting, list_waiting, putLane_waiting, leaveWaiting, List.mem_filter,
    bne_iff_ne] at he
  exact he.2

theorem complete_raised : (s.complete k l o).Raised (.order k) Flag.orderComplete := raise_raised _ _ _

theorem complete_listed : .order k ∈ (s.complete k l o).writeBack := by
  simp only [complete, raise_writeBack]
  exact mem_list_writeBack _ _

end

theorem matchReport_none {l : Nat} (h : (s.lane l).order = none) : s.matchReport l = s := by
  unfold matchReport
  rw [h]

theorem matchReport_some {l k : Nat} (h : (s.lane l).order = some k) : s.matchReport l = s.completionCheck k := by
  unfold matchReport
  rw [h]

theorem complete_moves {k l : Nat} {o : Order} (h : s.Completes k l o) : Moves Part.ordering s (s.complete k l o) := by
  rw [← completionCheck_complete h]
  exact completionCheck_moves s k

/-- A report of MATCH completes the lane's order, or does nothing (R109, R144). -/
theorem matchReport_cases (s : Store) (l : Nat) :
    (s.matchReport l = s ∧ ∀ k m o, (s.lane l).order = some k → ¬ s.Completes k m o) ∨
      ∃ k m o, (s.lane l).order = some k ∧ s.Completes k m o ∧ s.matchReport l = s.complete k m o := by
  cases hk : (s.lane l).order with
  | none => exact .inl ⟨matchReport_none hk, fun _ _ _ hn => nomatch hn⟩
  | some k =>
    rw [matchReport_some hk]
    by_cases hc : ∃ o m, s.Completes k m o
    · obtain ⟨o, m, hc⟩ := hc
      exact .inr ⟨k, m, o, rfl, hc, completionCheck_complete hc⟩
    · refine .inl ⟨completionCheck_incomplete hc, fun k' m o he hn => hc ?_⟩
      cases he
      exact ⟨o, m, hn⟩

/-! ## LANE_ACCEPT -/

/-- A lane with its settled reading taken as its expected weight. -/
def acceptedLane (x : Lane) (r : Int) : Lane := { x with expected := r, weight := some .matched, arrival := none }

/-- The lane takes the weight, before a report of MATCH. -/
def takeWeight (s : Store) (l : Nat) (r : Int) : Store :=
  if (s.lane l).weight = some .mismatch then
    (s.putLane l (acceptedLane (s.lane l) r)).raise (.lane l) Flag.laneMatchRestored
  else s.putLane l (acceptedLane (s.lane l) r)

theorem takeWeight_alike (s : Store) (l : Nat) (r : Int) :
    (s.takeWeight l r).Alike (s.putLane l (acceptedLane (s.lane l) r)) := by
  unfold takeWeight
  split
  · exact .raise _ _ _
  · exact .refl _

theorem takeWeight_lane_self {l : Nat} (hl : l < 16) (s : Store) (r : Int) :
    (s.takeWeight l r).lane l = acceptedLane (s.lane l) r := by
  rw [show s.takeWeight l r = _ from takeWeight_alike s l r]
  exact putLane_lane_self s hl _

theorem takeWeight_lane_other {l m : Nat} (h : m ≠ l) (s : Store) (r : Int) : (s.takeWeight l r).lane m = s.lane m := by
  rw [show s.takeWeight l r = _ from takeWeight_alike s l r]
  exact putLane_lane_other s h _

theorem takeWeight_lane_order (s : Store) (l : Nat) (r : Int) :
    ((s.takeWeight l r).lane l).order = (s.lane l).order := by
  rw [show s.takeWeight l r = _ from takeWeight_alike s l r]
  show ((s.putLane l (acceptedLane (s.lane l) r)).lane l).order = _
  rcases Nat.lt_or_ge l 16 with hl | hl
  · rw [putLane_lane_self s hl]; rfl
  · rw [lane, putLane_lanes, put_outside _ _ _ hl]; rfl

theorem takeWeight_order (s : Store) (l k : Nat) (r : Int) : (s.takeWeight l r).order k = s.order k := by
  rw [show s.takeWeight l r = _ from takeWeight_alike s l r]
  rfl

theorem takeWeight_raised {l : Nat} (h : (s.lane l).weight = some .mismatch) (r : Int) :
    (s.takeWeight l r).Raised (.lane l) Flag.laneMatchRestored := by
  rw [takeWeight, if_pos h]
  exact raise_raised _ _ _

theorem acceptLane_eq (s : Store) (l : Nat) (r : Int) : Owner.acceptLane s l r =
    (if (s.lane l).weight = some .matched then s.takeWeight l r else (s.takeWeight l r).matchReport l).list (.lane l) :=
  rfl

/-- What LANE_ACCEPT does beyond taking the weight: it completes the lane's order, or nothing (R109, R144, R146). -/
theorem acceptLane_cases (s : Store) (l : Nat) (r : Int) :
    (Owner.acceptLane s l r = (s.takeWeight l r).list (.lane l) ∧
      ∀ k m o, (s.lane l).weight ≠ some .matched → (s.lane l).order = some k → ¬ (s.takeWeight l r).Completes k m o) ∨
    ∃ k m o, (s.lane l).weight ≠ some .matched ∧ (s.lane l).order = some k ∧ (s.takeWeight l r).Completes k m o ∧
      Owner.acceptLane s l r = ((s.takeWeight l r).complete k m o).list (.lane l) := by
  rw [acceptLane_eq]
  by_cases hw : (s.lane l).weight = some .matched
  · exact .inl ⟨by rw [if_pos hw], fun _ _ _ hn => absurd hw hn⟩
  · rw [if_neg hw]
    rcases matchReport_cases (s.takeWeight l r) l with ⟨he, hn⟩ | ⟨k, m, o, hk, hc, he⟩
    · rw [he]
      exact .inl ⟨rfl, fun k m o _ hk => hn k m o ((takeWeight_lane_order s l r).trans hk)⟩
    · rw [he]
      exact .inr ⟨k, m, o, hw, (takeWeight_lane_order s l r).symm.trans hk, hc, rfl⟩

end Store

namespace Owner

variable {ws : List Word} {s : Store}

theorem laneFitted_iff {l : Nat} : laneFitted s l = true ↔ l ≤ 15 ∧ (s.cfg.lane l).fitted = true := by
  simp [laneFitted]

/-- A lane that LANE_ACCEPT takes (R146, check 1). -/
def Acceptable (s : Store) (l : Nat) : Prop :=
  l ≤ 15 ∧ (s.cfg.lane l).fitted = true ∧ (s.lane l).state = .assigned

theorem laneAccept_refused (h : ¬ Acceptable s (Req.whole ws 2)) : laneAccept ws s = .refuse s .wrongState := by
  refine if_pos ?_
  by_cases hf : laneFitted s (Req.whole ws 2) = true
  · obtain ⟨hl, hfit⟩ := laneFitted_iff.mp hf
    exact .inr fun hs => h ⟨hl, hfit, hs⟩
  · exact .inl (Bool.not_eq_true _ ▸ hf)

theorem laneAccept_acceptable (h : Acceptable s (Req.whole ws 2)) : laneAccept ws s =
    match (s.lane (Req.whole ws 2)).settled with
    | none => .refuse s .unsettled
    | some r => .accept (acceptLane s (Req.whole ws 2) r) .accepted [dataWord (Req.whole ws 2), signedWord r] := by
  obtain ⟨hl, hfit, hs⟩ := h
  refine if_neg fun hn => hn.elim (fun hf => ?_) fun hn => hn hs
  rw [laneFitted_iff.mpr ⟨hl, hfit⟩] at hf
  exact nomatch hf

theorem laneAccept_unsettled (h : Acceptable s (Req.whole ws 2)) (hr : (s.lane (Req.whole ws 2)).settled = none) :
    laneAccept ws s = .refuse s .unsettled := by
  rw [laneAccept_acceptable h, hr]

theorem laneAccept_taken (h : Acceptable s (Req.whole ws 2)) {r : Int}
    (hr : (s.lane (Req.whole ws 2)).settled = some r) : laneAccept ws s =
      .accept (acceptLane s (Req.whole ws 2) r) .accepted [dataWord (Req.whole ws 2), signedWord r] := by
  rw [laneAccept_acceptable h, hr]

/-- What LANE_ACCEPT makes of its lane. -/
theorem acceptLane_lane {l : Nat} (hl : l < 16) (r : Int) :
    let t := acceptLane s l r
    (t.lane l).expected = r ∧ (t.lane l).arrival = none ∧ (t.lane l).tolerance = (s.lane l).tolerance ∧
      (((t.lane l).state = (s.lane l).state ∧ (t.lane l).weight = some .matched) ∨
        ((t.lane l).state = .done ∧ (t.lane l).weight = none)) := by
  have hu := Store.takeWeight_lane_self hl s r
  dsimp only
  rcases Store.acceptLane_cases s l r with ⟨he, -⟩ | ⟨k, m, o, -, -, -, he⟩
  · rw [he, Store.lane, Store.list_lanes, ← Store.lane, hu]
    exact ⟨rfl, rfl, rfl, .inl ⟨rfl, rfl⟩⟩
  · rw [he, Store.lane, Store.list_lanes, ← Store.lane]
    by_cases e : l = m
    · subst e
      rw [Store.complete_lane_self hl, hu]
      exact ⟨rfl, rfl, rfl, .inr ⟨rfl, rfl⟩⟩
    · rw [Store.complete_lane_other e, hu]
      exact ⟨rfl, rfl, rfl, .inl ⟨rfl, rfl⟩⟩

theorem acceptLane_lane_other {l m : Nat} (r : Int)
    (h : ∀ k o, (s.lane l).order = some k → s.order k = some o → o.lane = some l) (hm : m ≠ l) :
    (acceptLane s l r).lane m = s.lane m := by
  have hu := Store.takeWeight_lane_other hm s r
  rcases Store.acceptLane_cases s l r with ⟨he, -⟩ | ⟨k, m', o, -, hk, hc, he⟩
  · rw [he, Store.lane, Store.list_lanes, ← Store.lane, hu]
  · obtain ⟨ho, hlane, -⟩ := hc
    rw [Store.takeWeight_order] at ho
    cases hlane.symm.trans (h k o hk ho)
    rw [he, Store.lane, Store.list_lanes, ← Store.lane, Store.complete_lane_other hm, hu]

theorem acceptLane_raised {l : Nat} (h : (s.lane l).weight = some .mismatch) (r : Int) :
    (acceptLane s l r).Raised (.lane l) Flag.laneMatchRestored := by
  have hu := Store.takeWeight_raised h r
  rcases Store.acceptLane_cases s l r with ⟨he, -⟩ | ⟨k, m, o, -, -, hc, he⟩
  · rw [he]
    exact hu.of_notices (by simp)
  · rw [he]
    exact ((Store.complete_moves hc).raised hu).of_notices (by simp)

/-- Whether LANE_ACCEPT completes the order of its lane. -/
def AcceptEnds (s : Store) (l : Nat) (o : Order) : Prop :=
  (s.lane l).weight ≠ some .matched ∧ o.state = .active ∧ ∀ y ∈ o.lines, y.filled = y.quantity

section

variable {l k : Nat} {o : Order} (hl : l < 16) (hk : (s.lane l).order = some k) (ho : s.order k = some o)
  (hlane : o.lane = some l) (r : Int)

include hl ho hlane in
theorem completes_of_acceptEnds (h : AcceptEnds s l o) : (s.takeWeight l r).Completes k l o :=
  ⟨(Store.takeWeight_order s l k r).trans ho, hlane, h.2.1, h.2.2, by rw [Store.takeWeight_lane_self hl]; rfl⟩

include hl hk ho hlane in
theorem acceptLane_ends (h : AcceptEnds s l o) :
    acceptLane s l r = ((s.takeWeight l r).complete k l o).list (.lane l) := by
  have hc := completes_of_acceptEnds hl ho hlane r h
  rw [Store.acceptLane_eq, if_neg h.1, Store.matchReport_some (by rw [Store.takeWeight_lane_order, hk]),
    Store.completionCheck_complete hc]

include hk ho in
theorem acceptLane_goes_on (h : ¬ AcceptEnds s l o) : acceptLane s l r = (s.takeWeight l r).list (.lane l) := by
  rcases Store.acceptLane_cases s l r with ⟨he, -⟩ | ⟨k', m, o', hw, hk', ⟨ho', -, hst, hfill, -⟩, -⟩
  · exact he
  · cases hk.symm.trans hk'
    cases ho.symm.trans ((Store.takeWeight_order s l k r).symm.trans ho')
    exact absurd ⟨hw, hst, hfill⟩ h

/-- What the end of the event leaves of an order that LANE_ACCEPT completes. -/
theorem acceptLane_completed {l k : Nat} {o : Order} (hl : l < 16) (hk : k < 64) {r : Int}
    (h : acceptLane s l r = ((s.takeWeight l r).complete k l o).list (.lane l)) :
    let t := (acceptLane s l r).eventEnd
    t.order k = some { o with state := .complete } ∧ (t.lane l).state = .done ∧ .order k ∈ t.writeBack ∧
      t.Raised (.order k) Flag.orderComplete := by
  have hwait : ∀ e ∈ (acceptLane s l r).waiting, e.1 ≠ k := by
    rw [h, Store.list_waiting]
    exact Store.complete_not_waiting
  dsimp only
  refine ⟨?_, ?_, Store.eventEnd_keeps_listed _ ?_, Store.Raised.eventEnd ?_⟩
  · rw [Store.eventEnd_order_of_not_waiting hwait, h, Store.order, Store.list_orders]
    exact Store.complete_order hk
  · rw [Store.eventEnd_lane, h, Store.lane, Store.list_lanes]
    exact congrArg Lane.state (Store.complete_lane_self hl)
  · rw [h]
    exact Store.mem_list_writeBack_of_mem Store.complete_listed _
  · rw [h]
    exact (Store.complete_raised (s := s.takeWeight l r) (k := k) (l := l) (o := o)).of_notices (by simp)

theorem acceptLane_stays {l k : Nat} {o : Order} (hl : l < 16) (hs : (s.lane l).state = .assigned)
    (ho : s.order k = some o) {r : Int} (h : acceptLane s l r = (s.takeWeight l r).list (.lane l)) :
    ((acceptLane s l r).lane l).state = .assigned ∧
      ((acceptLane s l r).order k).map Order.standing = some o.standing := by
  rw [h, Store.lane, Store.list_lanes, Store.order, Store.list_orders]
  refine ⟨(congrArg Lane.state (Store.takeWeight_lane_self hl s r)).trans hs, ?_⟩
  exact (congrArg (Option.map Order.standing) (Store.takeWeight_order s l k r)).trans (by rw [ho]; rfl)

end

end Owner

end Sys2Proof.Machine

end

section

open Sys2Proof Sys2Proof.Machine

/-- Settles O44: the lane takes its settled reading as its expected weight and reports MATCH, which completes its order
where every line is filled; a completed order waits for nothing, so the end of the event leaves it. -/
theorem laneAcceptTakesTheWeight : Obligations.LaneAcceptTakesTheWeight := by
  intro s e h l x good
  have hrow : exec .laneAccept s = .next (s.requestRow (· == Code.laneAccept) Owner.laneAccept) := rfl
  have hkind : (Code.laneAccept == Code.laneAccept) = true := beq_self_eq_true _
  refine ⟨fun hg => h.refuses hrow hkind (Owner.laneAccept_refused hg), fun hg hn => ?_, fun r hg hr => ?_⟩
  · exact h.refuses hrow hkind (Owner.laneAccept_unsettled hg hn)
  · have hl : l < 16 := Nat.lt_succ_of_le hg.1
    obtain ⟨hexp, harr, htol, hstate⟩ := Owner.acceptLane_lane (s := s.store) hl r
    refine h.accepts hrow hkind (Owner.laneAccept_taken hg hr) ⟨?_, ?_, ?_, ?_, fun hw => ?_, ?_, ?_, ?_, ?_⟩
    · exact (congrArg Lane.expected (Store.eventEnd_lane _ l)).trans hexp
    · exact (congrArg Lane.arrival (Store.eventEnd_lane _ l)).trans harr
    · exact (congrArg Lane.tolerance (Store.eventEnd_lane _ l)).trans htol
    · rw [Store.eventEnd_lane]
      exact hstate.imp_left fun ⟨hst, hw⟩ => ⟨hst.trans hg.2.2, hw⟩
    · exact (Owner.acceptLane_raised hw r).eventEnd
    · exact Store.eventEnd_keeps_listed _ (Store.mem_list_writeBack _ _)
    · exact (Store.eventEnd_batches _).trans ((Owner.acceptLane_moves s.store l r).batches (by simp))
    · intro hbound m hm
      exact (Store.eventEnd_lane _ m).trans (Owner.acceptLane_lane_other r hbound hm)
    · intro k o hk ho hlane ends
      refine ⟨fun he => ?_, fun he => ?_⟩
      · have hends := Owner.acceptLane_ends hl hk ho hlane r he
        exact Owner.acceptLane_completed hl (Store.order_lt ho) hends
      · have hgoes := Owner.acceptLane_goes_on hk ho r he
        rw [Store.eventEnd_lane, Store.eventEnd_order]
        exact Owner.acceptLane_stays hl hg.2.2 ho hgoes

end

/-! # Admission passes, and LANE_RELEASE (R96 to R98, R147) -/

section

namespace Sys2Proof.Machine

open Sys2Proof

namespace Store

variable {s t : Store}

end Store

/-- A lane has the scale values of lane `y`. -/
structure Lane.Weighs (x y : Lane) : Prop where
  tare : x.tare = y.tare
  samples : x.samples = y.samples
  settled : x.settled = y.settled
  scale : x.scale = y.scale
  scan : x.scan = y.scan

theorem Lane.Weighs.refl (x : Lane) : x.Weighs x := ⟨rfl, rfl, rfl, rfl, rfl⟩

theorem Lane.Weighs.trans {x y z : Lane} (h : x.Weighs y) (k : y.Weighs z) : x.Weighs z :=
  ⟨h.tare.trans k.tare, h.samples.trans k.samples, h.settled.trans k.settled, h.scale.trans k.scale,
    h.scan.trans k.scan⟩

namespace Store

variable {s t : Store}

/-! ## What an admission pass keeps -/

theorem laneFor_lt {total l : Nat} (h : s.laneFor total = some l) : l < 16 := by
  simpa [laneFor, firstBelow] using List.mem_of_find?_eq_some h

/-- What every admission of an order of the list and every pass-over keeps, the walk keeps. -/
theorem admissionWalk_keeps {P : Store → Prop} {A : List Nat}
    (enrol : ∀ s k l o, k ∈ A → s.order k = some o → l < 16 → P s → P (s.admitTo k l))
    (pass : ∀ s k, P s → P (s.passOver k)) :
    ∀ (ks ahead : List Nat) (s : Store) (any : Bool), (∀ k ∈ ks, k ∈ A) → P s → P (admissionWalk ks ahead s any).1
  | [], _, _, _, _, hs => hs
  | k :: ks, ahead, s, any, hks, hs => by
    have hrest : ∀ j ∈ ks, j ∈ A := fun j hj => hks j (.tail _ hj)
    have hfold : ∀ (xs : List Nat) (u : Store), P u → P (xs.foldl passOver u) := by
      intro xs
      induction xs with
      | nil => exact fun _ hu => hu
      | cons x xs ih => exact fun u hu => ih _ (pass u x hu)
    unfold admissionWalk
    split
    · split
      · exact hs
      · exact admissionWalk_keeps enrol pass ks _ s any hrest hs
    · next l hl =>
      obtain ⟨o, ho, hfor⟩ := Option.bind_eq_some_iff.mp hl
      have hadm := hfold ahead _ (enrol s k l o (hks k (.head _)) ho (laneFor_lt hfor) hs)
      dsimp only
      split
      · exact hadm
      · exact admissionWalk_keeps enrol pass ks ahead _ true hrest hadm

theorem admissionPass_keeps {P : Store → Prop}
    (enrol : ∀ u k l o, k ∈ s.admission → u.order k = some o → l < 16 → P u → P (u.admitTo k l))
    (pass : ∀ s k, P s → P (s.passOver k)) (trigger : ∀ s, P s → P s.triggerPass) (hs : P s) : P s.admissionPass := by
  have hw := admissionWalk_keeps enrol pass s.admission [] s false (fun _ h => h) hs
  simp only [admissionPass]
  split
  · exact trigger _ hw
  · exact hw

/-! ## What the admission of an order does -/

/-- An order's record bound to a lane. -/
def boundOrder (s : Store) (o : Order) (l : Nat) : Order :=
  { o with state := .active, lane := some l, admissionSequence := some s.admissionCounter }

/-- The lane an order is bound to. -/
def boundLane (s : Store) (k l : Nat) : Lane :=
  Lane.weighAfresh s.cfg.arrivalWindow { s.lane l with
    state := .assigned, order := some k, expected := 0, tolerance := s.cfg.emptyThreshold }

/-- The order table and the lane once an order is bound (R98, R140), before a report of MATCH. -/
def bound (s : Store) (k l : Nat) (o : Order) : Store :=
  (({ s.putOrder k (some (s.boundOrder o l)) with
      admission := s.admission.filter (· != k)
      admissionCounter := s.admissionCounter + 1
      admitted := s.admitted ++ [k] } : Store).putLane l (s.boundLane k l)).list (.lane l)

/-- The lines of an order join the waiting-lines list, and the admission is told. -/
def welcomed (s : Store) (k : Nat) (o : Order) : Store :=
  (((List.range o.lines.length).foldl (fun s j => s.joinWaiting (k, j)) s).list (.order k)).raise (.order k)
    Flag.orderAdmitted

theorem admitTo_eq {k : Nat} {o : Order} (h : s.order k = some o) (l : Nat) : s.admitTo k l =
    (if (s.boundLane k l).weight = some .matched then (s.bound k l o).matchReport l else s.bound k l o).welcomed k o := by
  have hadmit : s.admitTo k l =
      (withReport (s.bound k l o, (s.boundLane k l).weight == some .matched) l).welcomed k o := by
    unfold admitTo
    rw [h]
    rfl
  rw [hadmit, withReport]
  by_cases hm : (s.boundLane k l).weight = some .matched
  · rw [if_pos (beq_iff_eq.mpr hm), if_pos hm]
  · rw [if_neg (mt beq_iff_eq.mp hm), if_neg hm]

theorem boundLane_order (s : Store) (k l : Nat) : (s.boundLane k l).order = some k := by
  unfold boundLane Lane.weighAfresh
  split <;> rfl

theorem boundLane_scale (s : Store) (k l : Nat) : (s.boundLane k l).Weighs (s.lane l) := by
  unfold boundLane Lane.weighAfresh
  split <;> exact ⟨rfl, rfl, rfl, rfl, rfl⟩

theorem bound_lane_self {l : Nat} (hl : l < 16) (k : Nat) (o : Order) : (s.bound k l o).lane l = s.boundLane k l := by
  rw [bound, lane, list_lanes]
  exact putLane_lane_self _ hl _

theorem bound_lane_other {l m : Nat} (h : m ≠ l) (k : Nat) (o : Order) : (s.bound k l o).lane m = s.lane m := by
  rw [bound, lane, list_lanes]
  exact putLane_lane_other _ h _

theorem bound_order_self {k : Nat} (hk : k < 64) (l : Nat) (o : Order) :
    (s.bound k l o).order k = some (s.boundOrder o l) := by
  rw [bound, order, list_orders]
  exact putOrder_order_self s hk _

theorem bound_order_other {j k : Nat} (h : j ≠ k) (l : Nat) (o : Order) : (s.bound k l o).order j = s.order j := by
  rw [bound, order, list_orders]
  exact putOrder_order_other s h _

theorem welcomed_moves (s : Store) (k : Nat) (o : Order) :
    Moves (fun p => p = .waiting ∨ p = .listing ∨ p = .notice) s (s.welcomed k o) :=
  .after (raise_moves (.inr (.inr rfl)) _ _ _) (.after (list_moves (.inr (.inl rfl)) _ _)
    (Moves.foldl _ (fun s _ => joinWaiting_moves (.inl rfl) s _) _ _))

theorem welcomed_lane (s : Store) (k l : Nat) (o : Order) : (s.welcomed k o).lane l = s.lane l :=
  (welcomed_moves s k o).lane (by simp)

theorem welcomed_order (s : Store) (j k : Nat) (o : Order) : (s.welcomed k o).order j = s.order j :=
  (welcomed_moves s k o).order (by simp)

/-- What an admission makes of the order table and the lanes: the order and the lane are bound, and where the lane
matches at once the order may be complete (R98, R144). -/
theorem admitTo_cases {k l : Nat} {o : Order} (h : s.order k = some o) (hl : l < 16) :
    s.admitTo k l = (s.bound k l o).welcomed k o ∨
      s.admitTo k l = ((s.bound k l o).complete k l (s.boundOrder o l)).welcomed k o := by
  have hord : ((s.bound k l o).lane l).order = some k := by rw [bound_lane_self hl, boundLane_order]
  rw [admitTo_eq h]
  split
  · rw [matchReport_some hord]
    by_cases hc : ∃ o' m, (s.bound k l o).Completes k m o'
    · obtain ⟨o', m, hc⟩ := hc
      have ho' := hc.1.symm.trans (bound_order_self (order_lt h) l o)
      cases ho'
      cases hc.2.1
      exact .inr (by rw [completionCheck_complete hc])
    · exact .inl (by rw [completionCheck_incomplete hc])
  · exact .inl rfl

theorem admitTo_lane_other {k l m : Nat} {o : Order} (h : s.order k = some o) (hl : l < 16) (hm : m ≠ l) :
    (s.admitTo k l).lane m = s.lane m := by
  rcases admitTo_cases h hl with e | e
  · rw [e, welcomed_lane, bound_lane_other hm]
  · rw [e, welcomed_lane, complete_lane_other hm, bound_lane_other hm]

theorem admitTo_lane_self {k l : Nat} {o : Order} (h : s.order k = some o) (hl : l < 16) :
    ((s.admitTo k l).lane l).order = some k ∧ ((s.admitTo k l).lane l).Weighs (s.lane l) := by
  have hb : (s.boundLane k l).order = some k := boundLane_order s k l
  have hw := boundLane_scale s k l
  rcases admitTo_cases h hl with e | e
  · rw [e, welcomed_lane, bound_lane_self hl]
    exact ⟨hb, hw⟩
  · rw [e, welcomed_lane, complete_lane_self hl, bound_lane_self hl]
    exact ⟨hb, hw.tare, hw.samples, hw.settled, hw.scale, hw.scan⟩

theorem complete_order_other {j k l : Nat} {o : Order} (h : j ≠ k) : (s.complete k l o).order j = s.order j := by
  simp only [complete, laneDone, order, raise_orders, list_orders, putLane_orders, leaveWaiting]
  exact putOrder_order_other s h _

theorem admitTo_order_other {j k l : Nat} {o : Order} (h : s.order k = some o) (hl : l < 16) (hj : j ≠ k) :
    (s.admitTo k l).order j = s.order j := by
  rcases admitTo_cases h hl with e | e
  · rw [e, welcomed_order, bound_order_other hj]
  · rw [e, welcomed_order, complete_order_other hj, bound_order_other hj]

theorem passOver_moves_of (s : Store) (k : Nat) :
    Moves (fun p => s.order k ≠ none ∧ p = .order k ∨ p = .listing ∨ p = .notice) s (s.passOver k) := by
  unfold passOver
  split
  · exact .refl _
  · next o ho =>
    have hset (o' : Option Order) : Moves (fun p => s.order k ≠ none ∧ p = .order k ∨ p = .listing ∨ p = .notice) s
        (s.setOrder k o') :=
      .after (list_moves (.inr (.inl rfl)) _ _) (putOrder_moves (.inl ⟨by rw [ho]; exact nofun, rfl⟩) s o')
    split
    · dsimp only
      split
      · exact (hset _).trans (raise_moves (.inr (.inr rfl)) _ _ _)
      · exact hset _
    · exact .refl _

theorem passOver_lane (s : Store) (k l : Nat) : (s.passOver k).lane l = s.lane l := (passOver_moves_of s k).lane (by simp)

theorem passOver_order_none {j : Nat} (h : s.order j = none) (k : Nat) : (s.passOver k).order j = none :=
  ((passOver_moves_of s k).order (by
    rintro (⟨hk, e⟩ | e | e)
    · cases e; exact hk h
    · cases e
    · cases e)).trans h

/-! ## What an admission pass leaves of the free records and of a lane -/

theorem admissionPass_order_none {j : Nat} (h : s.order j = none) : s.admissionPass.order j = none := by
  refine admissionPass_keeps (P := fun u => u.order j = none) (fun u k l o _ ho hl hu => ?_)
    (fun u k hu => passOver_order_none hu k) (fun u hu => hu) h
  have hne : j ≠ k := by
    rintro rfl
    rw [hu] at ho
    exact nomatch ho
  rw [admitTo_order_other ho hl hne, hu]

/-- Lane `l` has the scale values of lane `x`, and is bound to no order but one of the list `A`. -/
def ScaledAs (s : Store) (A : List Nat) (l : Nat) (x : Lane) : Prop :=
  (s.lane l).Weighs x ∧ (s.lane l = x ∨ ∃ k ∈ A, (s.lane l).order = some k)

/-- An admission pass binds a lane to an order of the admission list, or leaves it; its scale goes on. -/
theorem admissionPass_lane (s : Store) (l : Nat) : s.admissionPass.ScaledAs s.admission l (s.lane l) := by
  refine admissionPass_keeps (P := fun u => u.ScaledAs s.admission l (s.lane l)) (fun u k m o hk ho hm hu => ?_)
    (fun u k hu => ?_) (fun u hu => hu) ⟨.refl _, .inl rfl⟩
  · obtain ⟨hw, hor⟩ := hu
    by_cases e : l = m
    · subst e
      obtain ⟨hord, hscale⟩ := admitTo_lane_self ho hm
      exact ⟨hscale.trans hw, .inr ⟨k, hk, hord⟩⟩
    · rw [ScaledAs, admitTo_lane_other ho hm e]
      exact ⟨hw, hor⟩
  · rw [ScaledAs, passOver_lane]
    exact hu

/-! ## A lane freed -/

theorem freeLane_empty {l : Nat} {r : Int} (hr : (s.lane l).settled = some r) (he : r ≤ s.cfg.emptyThreshold) :
    s.freeLane l false = s.putLane l (s.lane l).freed := by
  have hw : s.holdsWeight r = false := decide_eq_false (Int.not_lt.mpr he)
  simp only [freeLane, show (s.lane l).freed.settled = some r from hr, hw, Bool.false_eq_true, if_false]

/-- The order whose lane is released becomes free (R147, step 2). -/
def freeOf (s : Store) (k : Option Nat) : Store :=
  match k with
  | some k => s.freeOrder k
  | none => s

theorem freeOrder_order_self (s : Store) (k : Nat) : (s.freeOrder k).order k = none := by
  rcases Nat.lt_or_ge k 64 with hk | hk
  · simp only [freeOrder, setOrder, order, raise_orders, list_orders]
    exact putOrder_order_self s hk _
  · simp [order, look, Nat.not_lt_of_le hk]

end Store

namespace Owner

variable {ws : List Word} {s : Store}

/-- A lane that LANE_RELEASE takes (R147, check 1). -/
def Releasable (s : Store) (l : Nat) : Prop :=
  l ≤ 15 ∧ (s.cfg.lane l).fitted = true ∧
    ((s.lane l).state = .occupied ∨ (s.lane l).state = .done ∨ (s.lane l).state = .abandoned)

theorem releasable_iff {x : LaneState} : releasable x = true ↔ x = .occupied ∨ x = .done ∨ x = .abandoned := by
  cases x <;> simp [releasable]

theorem laneRelease_refused (h : ¬ Releasable s (Req.whole ws 2)) : laneRelease ws s = .refuse s .wrongState := by
  refine if_pos ?_
  by_cases hf : laneFitted s (Req.whole ws 2) = true
  · obtain ⟨hl, hfit⟩ := laneFitted_iff.mp hf
    exact .inr (Bool.eq_false_iff.mpr fun hs => h ⟨hl, hfit, releasable_iff.mp hs⟩)
  · exact .inl (Bool.not_eq_true _ ▸ hf)

theorem laneRelease_releasable (h : Releasable s (Req.whole ws 2)) : laneRelease ws s =
    match (s.lane (Req.whole ws 2)).settled with
    | none => .refuse s .unsettled
    | some r =>
      if s.holdsWeight r then .refuse s .notEmpty
      else .accept (releaseLane s (Req.whole ws 2) r) .accepted [dataWord (Req.whole ws 2),
        signedWord (newTare (s.lane (Req.whole ws 2)) r),
        dataWord (Code.byteOr (freedOrder (s.lane (Req.whole ws 2))))] := by
  obtain ⟨hl, hfit, hs⟩ := h
  refine if_neg fun hn => ?_
  rw [laneFitted_iff.mpr ⟨hl, hfit⟩, releasable_iff.mpr hs] at hn
  exact hn.elim nofun nofun

theorem laneRelease_unsettled (h : Releasable s (Req.whole ws 2)) (hr : (s.lane (Req.whole ws 2)).settled = none) :
    laneRelease ws s = .refuse s .unsettled := by
  rw [laneRelease_releasable h, hr]

theorem laneRelease_notEmpty (h : Releasable s (Req.whole ws 2)) {r : Int}
    (hr : (s.lane (Req.whole ws 2)).settled = some r) (he : ¬ r ≤ s.cfg.emptyThreshold) :
    laneRelease ws s = .refuse s .notEmpty := by
  rw [laneRelease_releasable h, hr]
  exact if_pos (decide_eq_true (Int.not_le.mp he))

theorem laneRelease_taken (h : Releasable s (Req.whole ws 2)) {r : Int}
    (hr : (s.lane (Req.whole ws 2)).settled = some r) (he : r ≤ s.cfg.emptyThreshold) : laneRelease ws s =
      .accept (releaseLane s (Req.whole ws 2) r) .accepted [dataWord (Req.whole ws 2),
        signedWord (newTare (s.lane (Req.whole ws 2)) r),
        dataWord (Code.byteOr (freedOrder (s.lane (Req.whole ws 2))))] := by
  rw [laneRelease_releasable h, hr]
  exact if_neg (by simpa [Store.holdsWeight] using he)

/-- The order table and the lane once the lane is released, before the admission pass. -/
def laneCleared (s : Store) (l : Nat) (r : Int) : Store :=
  ((s.putLane l (retare (s.lane l) r)).freeOf (freedOrder (s.lane l))).freeLane l false

theorem releaseLane_eq (s : Store) (l : Nat) (r : Int) :
    releaseLane s l r = (laneCleared s l r).admissionPass.list (.lane l) := rfl

/-- The tare moves by no more than the settled reading, so what is left does not hold weight. -/
theorem retare_empty {x : Lane} {r : Int} {threshold : Nat} (h : r ≤ threshold) (hlo : -32768 ≤ x.tare)
    (hhi : x.tare ≤ 32767) : r - (newTare x r - x.tare) ≤ threshold := by
  simp only [newTare, clampHalf]
  omega

/-- A released lane, free of its order. -/
def releasedLane (x : Lane) (r : Int) : Lane := (retare x r).freed

section

variable {l : Nat} {r : Int} (hl : l < 16) (he : r ≤ s.cfg.emptyThreshold) (hlo : -32768 ≤ (s.lane l).tare)
  (hhi : (s.lane l).tare ≤ 32767)

theorem freeOf_moves (s : Store) (k : Option Nat) : Moves Part.ordering s (s.freeOf k) := by
  cases k with
  | none => exact .refl s
  | some k => exact Store.freeOrder_moves s k

theorem freeOf_lane (s : Store) (k : Option Nat) (l : Nat) : (s.freeOf k).lane l = s.lane l := by
  cases k with
  | none => rfl
  | some k => simp only [Store.freeOf, Store.freeOrder, Store.lane, Store.raise_lanes, Store.setOrder_lanes]

include hl he hlo hhi in
theorem laneCleared_eq : laneCleared s l r =
    ((s.putLane l (retare (s.lane l) r)).freeOf (freedOrder (s.lane l))).putLane l (releasedLane (s.lane l) r) := by
  have hlane : ((s.putLane l (retare (s.lane l) r)).freeOf (freedOrder (s.lane l))).lane l = retare (s.lane l) r :=
    (freeOf_lane _ _ _).trans (Store.putLane_lane_self s hl _)
  have hcfg : ((s.putLane l (retare (s.lane l) r)).freeOf (freedOrder (s.lane l))).cfg = s.cfg := (freeOf_moves _ _).cfg
  rw [laneCleared, Store.freeLane_empty (congrArg Lane.settled hlane), hlane]
  · rfl
  · rw [hcfg]
    exact retare_empty he hlo hhi

include hl he hlo hhi in
theorem laneCleared_lane : (laneCleared s l r).lane l = releasedLane (s.lane l) r := by
  rw [laneCleared_eq hl he hlo hhi]
  exact Store.putLane_lane_self _ hl _

include hl he hlo hhi in
theorem laneCleared_admission : (laneCleared s l r).admission = s.admission := by
  rw [laneCleared_eq hl he hlo hhi, Store.putLane_admission]
  cases freedOrder (s.lane l) with
  | none => rfl
  | some k => simp only [Store.freeOf, Store.freeOrder, Store.raise_admission, Store.setOrder_admission]; rfl

include hl he hlo hhi in
theorem laneCleared_order {k : Nat} (hk : freedOrder (s.lane l) = some k) : (laneCleared s l r).order k = none := by
  rw [laneCleared_eq hl he hlo hhi, Store.order, Store.putLane_orders, hk]
  exact Store.freeOrder_order_self _ k

include hl he hlo hhi in
theorem laneCleared_raised {k : Nat} (hk : freedOrder (s.lane l) = some k) :
    (laneCleared s l r).Raised (.order k) Flag.orderFreed := by
  have h : ((s.putLane l (retare (s.lane l) r)).freeOrder k).Raised (.order k) Flag.orderFreed :=
    Store.raise_raised ((s.putLane l (retare (s.lane l) r)).setOrder k none) _ _
  rw [laneCleared_eq hl he hlo hhi, hk]
  exact h.of_notices rfl

include hl he hlo hhi in
theorem releaseLane_lane : (releaseLane s l r).ScaledAs s.admission l (releasedLane (s.lane l) r) := by
  have h := Store.admissionPass_lane (laneCleared s l r) l
  rw [laneCleared_lane hl he hlo hhi, laneCleared_admission hl he hlo hhi] at h
  rw [releaseLane_eq, Store.ScaledAs, Store.lane, Store.list_lanes]
  exact h

include hl he hlo hhi in
theorem releaseLane_freed {k : Nat} (hk : freedOrder (s.lane l) = some k) :
    (releaseLane s l r).order k = none ∧ (releaseLane s l r).Raised (.order k) Flag.orderFreed := by
  rw [releaseLane_eq, Store.order, Store.list_orders]
  refine ⟨Store.admissionPass_order_none (laneCleared_order hl he hlo hhi hk), ?_⟩
  exact ((Store.admissionPass_moves _).raised (laneCleared_raised hl he hlo hhi hk)).of_notices (by simp)

end

/-- The order freed with a lane that LANE_RELEASE takes. -/
theorem freedOrder_eq {x : Lane} (h : x.state = .occupied ∨ x.state = .done ∨ x.state = .abandoned) :
    freedOrder x = if x.state = .occupied then none else x.order := by
  rcases h with h | h | h <;> simp [freedOrder, h]

end Owner

end Sys2Proof.Machine

end

section

open Sys2Proof Sys2Proof.Machine

/-- Settles O45: the retared lane does not hold weight, so it becomes free with its order, and the admission pass that
follows may bind it to an order of the admission list, its scale going on. -/
theorem laneReleaseTaresTheLane : Obligations.LaneReleaseTaresTheLane := by
  intro s e h l x good empty
  have hrow : exec .laneRelease s = .next (s.requestRow (· == Code.laneRelease) Owner.laneRelease) := rfl
  have hkind : (Code.laneRelease == Code.laneRelease) = true := beq_self_eq_true _
  refine ⟨fun hg => h.refuses hrow hkind (Owner.laneRelease_refused hg),
    fun hg hn => h.refuses hrow hkind (Owner.laneRelease_unsettled hg hn),
    fun r hg hr he => h.refuses hrow hkind (Owner.laneRelease_notEmpty hg hr he), fun r hg hr he hlo hhi => ?_⟩
  have hl : l < 16 := Nat.lt_succ_of_le hg.1
  have hfreed := Owner.freedOrder_eq hg.2.2
  have hlane : (Owner.releaseLane s.store l r).eventEnd.ScaledAs s.store.admission l (Owner.releasedLane x r) := by
    rw [Store.ScaledAs, Store.eventEnd_lane]
    exact Owner.releaseLane_lane hl he hlo hhi
  obtain ⟨hscale, hbound⟩ := hlane
  refine h.accepts hrow hkind ((Owner.laneRelease_taken hg hr he).trans (congrArg (fun k =>
    Answer.accept (Owner.releaseLane s.store l r) .accepted
      [dataWord l, signedWord (Owner.newTare x r), dataWord (Code.byteOr k)]) hfreed))
    ⟨hscale.tare, hscale.settled, hscale.samples, hbound.imp_left fun hx => by rw [hx]; rfl, fun k hk => ?_, ?_, ?_⟩
  · obtain ⟨hnone, hraised⟩ := Owner.releaseLane_freed hl he hlo hhi (hfreed.trans hk)
    exact ⟨Store.eventEnd_order_none hnone, hraised.eventEnd⟩
  · exact Store.eventEnd_keeps_listed _ (Store.mem_list_writeBack _ _)
  · exact (Store.eventEnd_batches _).trans ((Owner.releaseLane_moves s.store l r).batches (by simp))

end

/-! # A sample reaches a lane (R134 to R141, R144) -/

section

namespace Sys2Proof.Machine

open Sys2Proof

theorem exec_scanTimer (l : Fin 16) (raw : Half) (valid : Bool) (s : State) :
    exec (.scanTimer l raw valid) s = .next (s.floorEvent fun st =>
      if (st.cfg.lane l.val).fitted && (st.lane l.val).scan.isSome then (st.scan l.val raw.toInt valid).eventEnd
      else st) := rfl

/-! ## Readings -/

theorem joinSample_eq {xs : List Int} (h : xs.length ≤ 3) (r : Int) :
    joinSample xs r = if xs.length = 3 then xs.drop 1 ++ [r] else xs ++ [r] := by
  simp only [joinSample, List.length_append, List.length_singleton]
  split
  · rw [if_pos (by omega), List.drop_append_of_le_length (by omega)]
  · rw [if_neg (by omega)]

theorem settledOf_short {band : Nat} {xs : List Int} (h : xs.length < 3) : settledOf band xs = none := by
  match xs, h with
  | [], _ => rfl
  | [_], _ => rfl
  | [_, _], _ => rfl

theorem settledOf_within {band : Nat} {a b c : Int} (h : max a (max b c) - min a (min b c) ≤ band) :
    settledOf band [a, b, c] = some (a + b + c - max a (max b c) - min a (min b c)) := by
  rw [settledOf, if_pos h, middle]
  congr 1
  omega

theorem settledOf_beyond {band : Nat} {a b c : Int} (h : band < max a (max b c) - min a (min b c)) :
    settledOf band [a, b, c] = none := if_neg (Int.not_le.mpr h)

theorem agrees_iff {r e : Int} {t : Nat} : agrees r e t = true ↔ (r - e).natAbs ≤ t := decide_eq_true_iff

namespace Store

variable {s t : Store} {l : Nat}

theorem Alike.putLane {x y : Store} (h : x.Alike y) (l : Nat) (c : Lane) : (x.putLane l c).Alike (y.putLane l c) := by
  unfold Alike at *
  rw [h]; rfl

theorem putLane_putLane (s : Store) (l : Nat) (x y : Lane) : (s.putLane l x).putLane l y = s.putLane l y := by
  simp only [putLane, put_put]

theorem setLane_listed {x : Lane} (h : laneStatus (s.lane l) ≠ laneStatus x) : .lane l ∈ (s.setLane l x).writeBack := by
  simp only [setLane, if_neg h]
  exact mem_list_writeBack _ _

/-! ## The scan timer restarted (R135) -/

/-- The scan timer restarted. -/
def rescanned (s : Store) (l : Nat) : Store := s.setLane l { s.lane l with scan := some s.cfg.scanInterval }

theorem scan_eq (s : Store) (l : Nat) (raw : Int) (valid : Bool) : s.scan l raw valid =
    if valid then (s.rescanned l).validSample l raw else (s.rescanned l).invalidSample l := rfl

theorem rescanned_lane (hl : l < 16) : (s.rescanned l).lane l = { s.lane l with scan := some s.cfg.scanInterval } :=
  setLane_lane_self s hl _

theorem rescanned_putLane (s : Store) (l : Nat) (y : Lane) : ((s.rescanned l).putLane l y).Alike (s.putLane l y) := by
  have h := (Alike.setLane s l { s.lane l with scan := some s.cfg.scanInterval }).putLane l y
  rwa [putLane_putLane] at h

/-! ## An invalid sample (R136) -/

/-- A lane after an invalid sample. -/
def faultyLane (x : Lane) : Lane := { x with samples := [], settled := none, scale := .fault }

theorem invalidSample_alike (s : Store) (l : Nat) : (s.invalidSample l).Alike (s.putLane l (faultyLane (s.lane l))) := by
  simp only [invalidSample]
  split
  · exact (Alike.raise _ _ _).trans (.setLane _ _ _)
  · exact .setLane _ _ _

theorem invalidSample_good (h : (s.lane l).scale = .good) :
    (s.invalidSample l).Raised (.lane l) Flag.laneScaleFault ∧ .lane l ∈ (s.invalidSample l).writeBack := by
  have he : s.invalidSample l = (s.setLane l (faultyLane (s.lane l))).raise (.lane l) Flag.laneScaleFault := if_pos h
  rw [he, raise_writeBack]
  refine ⟨raise_raised _ _ _, setLane_listed fun hstatus => ?_⟩
  have hscale := congrArg LaneStatus.scale hstatus
  exact nomatch h.symm.trans hscale

/-! ## A valid sample (R135, R137) -/

/-- A lane once a reading has joined its samples. -/
def sampledLane (x : Lane) (band : Nat) (raw : Int) : Lane :=
  { x with
    samples := joinSample x.samples (clampHalf (raw - x.tare))
    settled := settledOf band (joinSample x.samples (clampHalf (raw - x.tare))) }

theorem joinReading_eq (s : Store) (l : Nat) (raw : Int) :
    s.joinReading l raw = s.setLane l (sampledLane (s.lane l) s.cfg.settleBand raw) := rfl

theorem joinReading_lane (hl : l < 16) (raw : Int) :
    (s.joinReading l raw).lane l = sampledLane (s.lane l) s.cfg.settleBand raw := setLane_lane_self s hl _

theorem joinReading_listed {raw : Int} (h : (sampledLane (s.lane l) s.cfg.settleBand raw).settled ≠ (s.lane l).settled) :
    .lane l ∈ (s.joinReading l raw).writeBack :=
  setLane_listed fun hstatus => h (congrArg LaneStatus.settled hstatus).symm

theorem restoreScale_alike (s : Store) (l : Nat) :
    (s.restoreScale l).Alike (s.putLane l { s.lane l with scale := .good }) := by
  simp only [restoreScale]
  split
  · exact (Alike.raise _ _ _).trans (.setLane _ _ _)
  · next h =>
    have hg : (s.lane l).scale = .good := by
      cases hs : (s.lane l).scale with
      | good => rfl
      | fault => exact absurd hs h
    have hsame : ({ s.lane l with scale := .good } : Lane) = s.lane l := by rw [← hg]
    rw [hsame, putLane, lane, put_look]
    exact .refl _

theorem restoreScale_lane (hl : l < 16) : (s.restoreScale l).lane l = { s.lane l with scale := .good } := by
  rw [show s.restoreScale l = _ from restoreScale_alike s l]
  exact putLane_lane_self s hl _

theorem restoreScale_fault (h : (s.lane l).scale = .fault) :
    (s.restoreScale l).Raised (.lane l) Flag.laneScaleRestored ∧ .lane l ∈ (s.restoreScale l).writeBack := by
  have he : s.restoreScale l = (s.setLane l { s.lane l with scale := .good }).raise (.lane l) Flag.laneScaleRestored :=
    if_pos h
  rw [he, raise_writeBack]
  refine ⟨raise_raised _ _ _, setLane_listed fun hstatus => ?_⟩
  have hscale := congrArg LaneStatus.scale hstatus
  exact nomatch h.symm.trans hscale

/-- A settled reading of a sample reaches the lane (R138). -/
def settleLane (s : Store) (l : Nat) : Store :=
  match (s.lane l).settled with
  | some r => s.settledEvent l r
  | none => s

theorem validSample_eq (s : Store) (l : Nat) (raw : Int) :
    s.validSample l raw = ((s.joinReading l raw).settleLane l).restoreScale l := rfl

/-! ## A settled reading reaches the lane (R138 to R141) -/

theorem settledEvent_occupies {r : Int} (h : (s.lane l).state = .unsettled ∨ (s.lane l).state = .free)
    (hr : (s.cfg.emptyThreshold : Int) < r) : s.settledEvent l r = s.occupyLane l := by
  have hw : s.holdsWeight r = true := decide_eq_true hr
  rcases h with h | h
  all_goals simp only [settledEvent, h, hw, if_true]

/-- A reading below the threshold frees a lane that has not settled (R139). -/
theorem settledEvent_frees {r : Int} (h : (s.lane l).state = .unsettled) (hr : r ≤ s.cfg.emptyThreshold)
    (hs : (s.lane l).settled = some r) : s.settledEvent l r =
      (((s.putLane l (s.lane l).freed).raise (.lane l) Flag.laneFree).list (.lane l)).admissionPass := by
  have hw : s.holdsWeight r = false := decide_eq_false (Int.not_lt.mpr hr)
  have hf : s.freeLane l true = (s.putLane l (s.lane l).freed).raise (.lane l) Flag.laneFree := by
    simp only [freeLane, show (s.lane l).freed.settled = some r from hs, hw, Bool.false_eq_true, if_false, if_true]
  simp only [settledEvent, h, hw, Bool.false_eq_true, if_false, hf]

theorem settledEvent_assigned (h : (s.lane l).state = .assigned) (r : Int) :
    s.settledEvent l r = withReport (s.weighLane l r) l := by
  unfold settledEvent
  rw [h]

/-- A lane in MATCH that no longer agrees is ARRIVING again (R141). -/
theorem settledEvent_leaves_match {r : Int} (h : (s.lane l).state = .assigned) (hw : (s.lane l).weight = some .matched)
    (ha : ¬ (r - (s.lane l).expected).natAbs ≤ (s.lane l).tolerance) : s.settledEvent l r =
      s.setLane l { s.lane l with weight := some .arriving, arrival := some s.cfg.arrivalWindow } := by
  rw [settledEvent_assigned h]
  unfold weighLane
  dsimp only
  rw [if_neg (mt agrees_iff.mp ha), hw]
  rfl

/-- A lane whose reading agrees with its expected weight. -/
def matchedLane (x : Lane) : Lane := { x with weight := some .matched, arrival := none }

/-- The lane enters MATCH, before it is reported. -/
def enterMatch (s : Store) (l : Nat) : Store :=
  if (s.lane l).weight = some .mismatch then
    (s.setLane l (matchedLane (s.lane l))).raise (.lane l) Flag.laneMatchRestored
  else s.setLane l (matchedLane (s.lane l))

theorem settledEvent_enters_match {r : Int} (h : (s.lane l).state = .assigned)
    (hw : (s.lane l).weight = some .arriving ∨ (s.lane l).weight = some .mismatch)
    (ha : (r - (s.lane l).expected).natAbs ≤ (s.lane l).tolerance) :
    s.settledEvent l r = (s.enterMatch l).matchReport l := by
  rw [settledEvent_assigned h]
  unfold weighLane enterMatch
  dsimp only
  rw [if_pos (agrees_iff.mpr ha)]
  rcases hw with hw | hw
  · rw [hw, if_neg (by decide)]; rfl
  · rw [hw, if_pos rfl]; rfl

theorem weighLane_still {r : Int} (h : if (r - (s.lane l).expected).natAbs ≤ (s.lane l).tolerance then
    (s.lane l).weight = some .matched else (s.lane l).weight ≠ some .matched) : s.weighLane l r = (s, false) := by
  unfold weighLane
  dsimp only
  by_cases ha : (r - (s.lane l).expected).natAbs ≤ (s.lane l).tolerance
  · rw [if_pos ha] at h
    rw [if_pos (agrees_iff.mpr ha), h]
  · rw [if_neg ha] at h
    rw [if_neg (mt agrees_iff.mp ha)]
    split
    · next hm => exact absurd hm h
    all_goals rfl

/-- What a settled reading does not concern (R138, R139, R141). -/
theorem settledEvent_still {r : Int} (h : (s.lane l).state = .occupied ∨ (s.lane l).state = .done ∨
    (s.lane l).state = .abandoned ∨ ((s.lane l).state = .free ∧ r ≤ s.cfg.emptyThreshold) ∨
    ((s.lane l).state = .assigned ∧ (if (r - (s.lane l).expected).natAbs ≤ (s.lane l).tolerance then
      (s.lane l).weight = some .matched else (s.lane l).weight ≠ some .matched))) : s.settledEvent l r = s := by
  rcases h with h | h | h | ⟨h, hr⟩ | ⟨h, hm⟩
  · unfold settledEvent; rw [h]
  · unfold settledEvent; rw [h]
  · unfold settledEvent; rw [h]
  · have hw : ¬ s.holdsWeight r = true := fun hh => absurd (of_decide_eq_true hh) (Int.not_lt.mpr hr)
    unfold settledEvent
    rw [h]
    exact if_neg hw
  · rw [settledEvent_assigned h, weighLane_still hm]
    rfl

/-! ## What a settled reading leaves of the lane's scale -/

theorem setLane_weighs (hl : l < 16) {y : Lane} (h : y.Weighs (s.lane l)) :
    ((s.setLane l y).lane l).Weighs (s.lane l) := by
  rw [setLane_lane_self s hl]
  exact h

theorem matchReport_weighs (hl : l < 16) : ((s.matchReport l).lane l).Weighs (s.lane l) := by
  rcases matchReport_cases s l with ⟨he, -⟩ | ⟨k, m, o, -, -, he⟩
  · rw [he]
    exact .refl _
  · rw [he]
    by_cases e : l = m
    · subst e
      rw [complete_lane_self hl]
      exact ⟨rfl, rfl, rfl, rfl, rfl⟩
    · rw [complete_lane_other e]
      exact .refl _

theorem weighLane_weighs (hl : l < 16) (r : Int) : ((s.weighLane l r).1.lane l).Weighs (s.lane l) := by
  have h (w : Option WeightState) (a : Option Nat) :=
    setLane_weighs (s := s) hl (y := { s.lane l with weight := w, arrival := a }) ⟨rfl, rfl, rfl, rfl, rfl⟩
  simp only [weighLane]
  split
  · split
    · exact .refl _
    · exact h _ _
    · exact h _ _
    · exact .refl _
  · split
    · exact h _ _
    · exact .refl _
    · exact .refl _
    · exact .refl _

theorem occupyLane_lane (hl : l < 16) : (s.occupyLane l).lane l = { s.lane l with state := .occupied } :=
  setLane_lane_self s hl _

theorem freeLane_weighs (hl : l < 16) (b : Bool) : ((s.freeLane l b).lane l).Weighs (s.lane l) := by
  have hput (y : Lane) (h : y.Weighs (s.lane l)) : ((s.putLane l y).lane l).Weighs (s.lane l) := by
    rw [putLane_lane_self s hl]
    exact h
  have hfree : ((s.putLane l (s.lane l).freed).lane l).Weighs (s.lane l) := hput _ ⟨rfl, rfl, rfl, rfl, rfl⟩
  simp only [freeLane]
  split
  · split
    · exact hput _ ⟨rfl, rfl, rfl, rfl, rfl⟩
    · split
      · exact hfree
      · exact hfree
  · split
    · exact hfree
    · exact hfree

theorem settledEvent_weighs (hl : l < 16) (r : Int) : ((s.settledEvent l r).lane l).Weighs (s.lane l) := by
  have hoccupy : ((s.occupyLane l).lane l).Weighs (s.lane l) := by
    rw [occupyLane_lane hl]
    exact ⟨rfl, rfl, rfl, rfl, rfl⟩
  unfold settledEvent
  split
  · split
    · exact hoccupy
    · have hpass := (admissionPass_lane ((s.freeLane l true).list (.lane l)) l).1
      rw [lane, lane, list_lanes] at hpass
      exact hpass.trans (freeLane_weighs hl true)
  · split
    · exact hoccupy
    · exact .refl _
  · exact .refl _
  · unfold withReport
    split
    · exact (matchReport_weighs hl).trans (weighLane_weighs hl r)
    · exact weighLane_weighs hl r
  · exact .refl _
  · exact .refl _

/-! ## The lane that enters MATCH (R141, R144) -/

theorem enterMatch_alike (s : Store) (l : Nat) :
    (s.enterMatch l).Alike (s.putLane l (matchedLane (s.lane l))) := by
  unfold enterMatch
  split
  · exact (Alike.raise _ _ _).trans (.setLane _ _ _)
  · exact .setLane _ _ _

theorem enterMatch_lane (hl : l < 16) : (s.enterMatch l).lane l = matchedLane (s.lane l) := by
  rw [show s.enterMatch l = _ from enterMatch_alike s l]
  exact putLane_lane_self s hl _

theorem enterMatch_order (s : Store) (l k : Nat) : (s.enterMatch l).order k = s.order k := by
  rw [show s.enterMatch l = _ from enterMatch_alike s l]
  rfl

theorem enterMatch_raised (h : (s.lane l).weight = some .mismatch) :
    (s.enterMatch l).Raised (.lane l) Flag.laneMatchRestored := by
  rw [enterMatch, if_pos h]
  exact raise_raised _ _ _

theorem matchReport_lane (hl : l < 16) : (s.matchReport l).lane l = s.lane l ∨
    (s.matchReport l).lane l = { s.lane l with state := .done, weight := none } := by
  rcases matchReport_cases s l with ⟨he, -⟩ | ⟨k, m, o, -, -, he⟩
  · exact .inl (by rw [he])
  · by_cases e : l = m
    · subst e
      exact .inr (by rw [he, complete_lane_self hl])
    · exact .inl (by rw [he, complete_lane_other e])

end Store

namespace Moves

variable {K : Part → Prop} {s t : Store}

theorem carriers (h : Moves K s t) (hm : ∀ r, ¬ K (.mark r)) (hs : ∀ r, ¬ K (.stock r)) (hc : ∀ r, ¬ K (.count r)) :
    t.carriers = s.carriers :=
  h.same (g := Store.carriers) fun _ _ _ hp m => by
    cases m <;> first | exact absurd hp (hm _) | exact absurd hp (hs _) | exact absurd hp (hc _) | simp

end Moves

end Sys2Proof.Machine

end

/-! # SCAN_TIMER: what a sample makes of the lane and of its order -/

section

namespace Sys2Proof.Machine

open Sys2Proof

theorem State.JobsAre.carriers {t : State} {x : Store} (h : t.JobsAre x) : t.store.carriers = x.carriers := by
  rw [h]

namespace Store

variable {s : Store} {l : Nat}

/-! ## The lane with the new sample -/

/-- A lane with a valid sample, its timer restarted. -/
def newLane (s : Store) (l : Nat) (raw : Int) : Lane :=
  sampledLane { s.lane l with scan := some s.cfg.scanInterval } s.cfg.settleBand raw

/-- The store with a valid sample, before a settled reading reaches the lane. -/
def sampled (s : Store) (l : Nat) (raw : Int) : Store := (s.rescanned l).joinReading l raw

theorem rescanned_cfg (s : Store) (l : Nat) : (s.rescanned l).cfg = s.cfg := setLane_cfg _ _ _

theorem sampled_eq (hl : l < 16) (raw : Int) : s.sampled l raw = (s.rescanned l).setLane l (s.newLane l raw) := by
  rw [sampled, joinReading_eq, rescanned_lane hl, rescanned_cfg]
  rfl

theorem sampled_alike (hl : l < 16) (raw : Int) : (s.sampled l raw).Alike (s.putLane l (s.newLane l raw)) := by
  rw [sampled_eq hl]
  exact (Alike.setLane _ _ _).trans (rescanned_putLane _ _ _)

theorem sampled_lane (hl : l < 16) (raw : Int) : (s.sampled l raw).lane l = s.newLane l raw := by
  rw [show s.sampled l raw = _ from sampled_alike hl raw]
  exact putLane_lane_self s hl _

theorem sampled_order (hl : l < 16) (k : Nat) (raw : Int) : (s.sampled l raw).order k = s.order k := by
  rw [show s.sampled l raw = _ from sampled_alike hl raw]
  rfl

theorem sampled_admission (hl : l < 16) (raw : Int) : (s.sampled l raw).admission = s.admission := by
  rw [show s.sampled l raw = _ from sampled_alike hl raw]
  rfl

theorem sampled_cfg (hl : l < 16) (raw : Int) : (s.sampled l raw).cfg = s.cfg := by
  rw [show s.sampled l raw = _ from sampled_alike hl raw]
  rfl

theorem sampled_listed (hl : l < 16) {raw : Int} (h : (s.newLane l raw).settled ≠ (s.lane l).settled) :
    .lane l ∈ (s.sampled l raw).writeBack := by
  rw [sampled_eq hl]
  refine setLane_listed fun hstatus => h ?_
  rw [rescanned_lane hl] at hstatus
  exact (congrArg LaneStatus.settled hstatus).symm

/-! ## An invalid sample -/

theorem scan_invalid_alike (hl : l < 16) (raw : Int) : (s.scan l raw false).Alike
    (s.putLane l (faultyLane { s.lane l with scan := some s.cfg.scanInterval })) := by
  have h := invalidSample_alike (s.rescanned l) l
  rw [rescanned_lane hl] at h
  exact h.trans (rescanned_putLane _ _ _)

theorem scan_invalid_still (hl : l < 16) (raw : Int) (h : s.Attended) :
    (s.scan l raw false).eventEnd = s.scan l raw false :=
  eventEnd_still ((scan_invalid_alike hl raw).attended ⟨h.pass, h.displays⟩)

theorem scan_invalid_good (hl : l < 16) (raw : Int) (h : (s.lane l).scale = .good) :
    (s.scan l raw false).Raised (.lane l) Flag.laneScaleFault ∧ .lane l ∈ (s.scan l raw false).writeBack :=
  invalidSample_good (s := s.rescanned l) (by rw [rescanned_lane hl]; exact h)

/-! ## The settled reading -/

/-- The store once the settled reading, if there is one, has reached the lane. -/
def weighed (s : Store) (l : Nat) (raw : Int) : Store := (s.sampled l raw).settleLane l

theorem scan_valid (s : Store) (l : Nat) (raw : Int) : s.scan l raw true = (s.weighed l raw).restoreScale l := rfl

theorem weighed_none (hl : l < 16) {raw : Int} (h : (s.newLane l raw).settled = none) :
    s.weighed l raw = s.sampled l raw := by
  rw [weighed, settleLane, sampled_lane hl, h]

theorem weighed_some (hl : l < 16) {raw r : Int} (h : (s.newLane l raw).settled = some r) :
    s.weighed l raw = (s.sampled l raw).settledEvent l r := by
  rw [weighed, settleLane, sampled_lane hl, h]

theorem settleLane_moves (s : Store) (l : Nat) : Moves Part.ordering s (s.settleLane l) := by
  unfold settleLane
  split
  · exact settledEvent_moves _ _ _
  · exact .refl _

theorem weighed_weighs (hl : l < 16) (raw : Int) : ((s.weighed l raw).lane l).Weighs (s.newLane l raw) := by
  have hs := sampled_lane (s := s) hl raw
  cases hr : (s.newLane l raw).settled with
  | none =>
    rw [weighed_none hl hr, hs]
    exact .refl _
  | some r =>
    have h := settledEvent_weighs (s := s.sampled l raw) hl r
    rwa [weighed_some hl hr, ← hs]

/-! ## From there to the end of the event -/

/-- The end of the event of a sample, once the scale is GOOD. -/
def afterScan (s : Store) (l : Nat) : Store := (s.restoreScale l).eventEnd

theorem afterScan_lane (hl : l < 16) : (s.afterScan l).lane l = { s.lane l with scale := .good } := by
  rw [afterScan, eventEnd_lane, restoreScale_lane hl]

theorem afterScan_raised {src : Source} {f : Half} (h : s.Raised src f) : (s.afterScan l).Raised src f :=
  ((restoreScale_moves s l).raised h).eventEnd

theorem afterScan_listed {r : ImageRecord} (h : r ∈ s.writeBack) : r ∈ (s.afterScan l).writeBack :=
  eventEnd_keeps_listed _ ((restoreScale_moves s l).listed h)

theorem restoreScale_order (s : Store) (l k : Nat) : (s.restoreScale l).order k = s.order k := by
  rw [show s.restoreScale l = _ from restoreScale_alike s l]
  rfl

theorem restoreScale_waiting (s : Store) (l : Nat) : (s.restoreScale l).waiting = s.waiting := by
  rw [show s.restoreScale l = _ from restoreScale_alike s l]
  rfl

theorem afterScan_order (s : Store) (l k : Nat) :
    ((s.afterScan l).order k).map Order.standing = (s.order k).map Order.standing := by
  rw [afterScan, eventEnd_order, restoreScale_order]

theorem afterScan_order_of_not_waiting {k : Nat} (h : ∀ e ∈ s.waiting, e.1 ≠ k) :
    (s.afterScan l).order k = s.order k := by
  rw [afterScan, eventEnd_order_of_not_waiting (by rw [restoreScale_waiting]; exact h), restoreScale_order]

theorem standing_carriers (s : Store) : s.standing.carriers = s.carriers.map Carrier.standing := rfl

theorem scan_frame (s : Store) (l : Nat) (raw : Int) (v : Bool) :
    (s.scan l raw v).eventEnd.articles = s.articles ∧ (s.scan l raw v).eventEnd.batches = s.batches ∧
      (s.scan l raw v).eventEnd.carriers.map Carrier.standing = s.carriers.map Carrier.standing := by
  have h := scan_moves s l raw v
  refine ⟨(eventEnd_articles _).trans (h.articles (by simp)), (eventEnd_batches _).trans (h.batches (by simp)), ?_⟩
  rw [← standing_carriers, standing_eventEnd, standing_carriers, h.carriers (by simp) (by simp) (by simp)]

/-! ## What a settled reading does to its lane (R138 to R141) -/

section

variable {raw r : Int} (hl : l < 16) (hr : (s.newLane l raw).settled = some r)

include hl hr in
theorem weighed_occupies (h : (s.lane l).state = .unsettled ∨ (s.lane l).state = .free)
    (hlim : (s.cfg.emptyThreshold : Int) < r) :
    ((s.weighed l raw).lane l).state = .occupied ∧ (s.weighed l raw).Raised (.lane l) Flag.laneOccupied := by
  have hlane := sampled_lane (s := s) hl raw
  rw [weighed_some hl hr, settledEvent_occupies (by rw [hlane]; exact h) (by rw [sampled_cfg hl]; exact hlim),
    occupyLane_lane hl]
  exact ⟨rfl, raise_raised _ _ _⟩

include hl hr in
theorem weighed_frees (h : (s.lane l).state = .unsettled) (hlim : r ≤ s.cfg.emptyThreshold) :
    (s.weighed l raw).Raised (.lane l) Flag.laneFree ∧
      (((s.weighed l raw).lane l).state = .free ∨ ∃ k ∈ s.admission, ((s.weighed l raw).lane l).order = some k) := by
  have hlane := sampled_lane (s := s) hl raw
  have hraised : (((s.sampled l raw).putLane l ((s.sampled l raw).lane l).freed).raise (.lane l)
      Flag.laneFree).Raised (.lane l) Flag.laneFree := raise_raised _ _ _
  rw [weighed_some hl hr, settledEvent_frees (by rw [hlane]; exact h) (by rw [sampled_cfg hl]; exact hlim)
    (by rw [hlane]; exact hr)]
  refine ⟨(admissionPass_moves _).raised (hraised.of_notices (by simp)), ?_⟩
  refine (admissionPass_lane _ l).2.imp (fun he => ?_) fun ⟨k, hk, he⟩ => ⟨k, ?_, he⟩
  · rw [he, lane, list_lanes]
    exact congrArg Lane.state (putLane_lane_self (s.sampled l raw) hl _)
  · rw [list_admission] at hk
    rw [← sampled_admission hl raw]
    exact hk

include hl hr in
theorem weighed_leaves_match (h : (s.lane l).state = .assigned) (hw : (s.lane l).weight = some .matched)
    (ha : ¬ (r - (s.lane l).expected).natAbs ≤ (s.lane l).tolerance) : (s.weighed l raw).lane l =
      { s.newLane l raw with weight := some .arriving, arrival := some s.cfg.arrivalWindow } := by
  have hlane := sampled_lane (s := s) hl raw
  rw [weighed_some hl hr, settledEvent_leaves_match (by rw [hlane]; exact h) (by rw [hlane]; exact hw)
    (by rw [hlane]; exact ha), setLane_lane_self _ hl, hlane, sampled_cfg hl]

include hl hr in
theorem weighed_enters_match (h : (s.lane l).state = .assigned)
    (hw : (s.lane l).weight = some .arriving ∨ (s.lane l).weight = some .mismatch)
    (ha : (r - (s.lane l).expected).natAbs ≤ (s.lane l).tolerance) :
    s.weighed l raw = ((s.sampled l raw).enterMatch l).matchReport l := by
  have hlane := sampled_lane (s := s) hl raw
  rw [weighed_some hl hr, settledEvent_enters_match (by rw [hlane]; exact h) (by rw [hlane]; exact hw)
    (by rw [hlane]; exact ha)]

include hl hr in
theorem weighed_still (h : (s.lane l).state = .occupied ∨ (s.lane l).state = .done ∨
    (s.lane l).state = .abandoned ∨ ((s.lane l).state = .free ∧ r ≤ s.cfg.emptyThreshold) ∨
    ((s.lane l).state = .assigned ∧ (if (r - (s.lane l).expected).natAbs ≤ (s.lane l).tolerance then
      (s.lane l).weight = some .matched else (s.lane l).weight ≠ some .matched))) :
    (s.weighed l raw).lane l = s.newLane l raw := by
  have hlane := sampled_lane (s := s) hl raw
  rw [weighed_some hl hr, settledEvent_still (by rw [hlane, sampled_cfg hl]; exact h), hlane]

end

/-! ## The lane that enters MATCH, and its order -/

/-- The lane with its sample, in MATCH. -/
def matching (s : Store) (l : Nat) (raw : Int) : Store := (s.sampled l raw).enterMatch l

theorem matching_lane (hl : l < 16) (raw : Int) : (s.matching l raw).lane l = matchedLane (s.newLane l raw) := by
  rw [matching, enterMatch_lane hl, sampled_lane hl]

theorem matching_order (hl : l < 16) (k : Nat) (raw : Int) : (s.matching l raw).order k = s.order k := by
  rw [matching, enterMatch_order, sampled_order hl]

theorem matching_raised (hl : l < 16) (h : (s.lane l).weight = some .mismatch) (raw : Int) :
    ((s.matching l raw).matchReport l).Raised (.lane l) Flag.laneMatchRestored :=
  (matchReport_moves _ _).raised (enterMatch_raised (by rw [sampled_lane hl]; exact h))

section

variable {k : Nat} {o : Order} (hl : l < 16) (hk : (s.lane l).order = some k) (ho : s.order k = some o) (raw : Int)

include hl hk ho in
theorem matching_completes (hlane : o.lane = some l) (hst : o.state = .active)
    (hfill : ∀ z ∈ o.lines, z.filled = z.quantity) :
    (s.matching l raw).matchReport l = (s.matching l raw).complete k l o := by
  have hc : (s.matching l raw).Completes k l o :=
    ⟨(matching_order hl k raw).trans ho, hlane, hst, hfill, by rw [matching_lane hl]; rfl⟩
  rw [matchReport_some (by rw [matching_lane hl]; exact hk), completionCheck_complete hc]

include hl hk ho in
theorem matching_goes_on (h : ¬ (o.state = .active ∧ ∀ z ∈ o.lines, z.filled = z.quantity)) :
    (s.matching l raw).matchReport l = s.matching l raw := by
  rcases matchReport_cases (s.matching l raw) l with ⟨he, -⟩ | ⟨k', m, o', hk', ⟨ho', -, hst, hfill, -⟩, -⟩
  · exact he
  · rw [matching_lane hl] at hk'
    cases hk.symm.trans hk'
    cases ho.symm.trans ((matching_order hl k raw).symm.trans ho')
    exact absurd ⟨hst, hfill⟩ h

end

/-- What the end of the event leaves of a completed order. -/
theorem afterScan_complete {u : Store} {k : Nat} {o : Order} (hl : l < 16) (hk : k < 64) :
    ((u.complete k l o).afterScan l).order k = some { o with state := .complete } ∧
      (((u.complete k l o).afterScan l).lane l).state = .done ∧
      ((u.complete k l o).afterScan l).Raised (.order k) Flag.orderComplete := by
  refine ⟨?_, ?_, afterScan_raised complete_raised⟩
  · rw [afterScan_order_of_not_waiting complete_not_waiting, complete_order hk]
  · rw [afterScan_lane hl, complete_lane_self hl]

end Store

end Sys2Proof.Machine

end

section

open Sys2Proof Sys2Proof.Machine

/-- Settles O59: the sample joins the lane, a settled reading reaches it as its state asks, a lane that enters MATCH
may complete its order, and the scale is GOOD again. -/
theorem sampleSettlesTheLane : Obligations.SampleSettlesTheLane := by
  intro s l raw hworking hatt hfit hscan hlen x limit reading samples
  have hl : l.val < 16 := l.isLt
  have hon (v : Bool) : (if (s.store.cfg.lane l.val).fitted && (s.store.lane l.val).scan.isSome then
      (s.store.scan l.val raw.toInt v).eventEnd else s.store) = (s.store.scan l.val raw.toInt v).eventEnd :=
    if_pos (by rw [hfit, Option.isSome_iff_ne_none.mpr hscan]; rfl)
  refine ⟨(State.floorEvent_ends (exec_scanTimer l raw false s) hworking _ (hon false)).imp
    fun t ⟨hjobs, hsettles⟩ => ?_,
    (State.floorEvent_ends (exec_scanTimer l raw true s) hworking _ (hon true)).imp fun t ⟨hjobs, hsettles⟩ => ?_⟩
  · have hstill := Store.scan_invalid_still hl raw.toInt hatt
    rw [hstill] at hjobs hsettles
    refine ⟨hjobs.alike (Store.scan_invalid_alike hl raw.toInt), fun hg => ?_⟩
    obtain ⟨hraised, hlisted⟩ := Store.scan_invalid_good hl raw.toInt hg
    exact ⟨hsettles.told_of hraised, hsettles.renewed_of hlisted⟩
  · have htold {src : Source} {f : Half} (h : (s.store.weighed l.val raw.toInt).Raised src f) : t.told src f :=
      hsettles.told_of (Store.afterScan_raised h)
    have hlane : t.store.lane l.val = { (s.store.weighed l.val raw.toInt).lane l.val with scale := .good } :=
      (hjobs.lane l.val).trans (Store.afterScan_lane hl)
    have hscale := Store.weighed_weighs (s := s.store) hl raw.toInt
    have hsamples : (s.store.newLane l.val raw.toInt).samples = samples := joinSample_eq hlen reading
    have hsettled : (t.store.lane l.val).settled = settledOf s.store.cfg.settleBand samples := by
      rw [hlane]
      exact hscale.settled.trans (congrArg (settledOf s.store.cfg.settleBand) hsamples)
    have hnew : (s.store.newLane l.val raw.toInt).settled = (t.store.lane l.val).settled := by
      rw [hlane]
      exact hscale.settled.symm
    obtain ⟨harticles, hbatches, hcarriers⟩ := Store.scan_frame s.store l.val raw.toInt true
    refine ⟨?_, ?_, ?_, ?_, fun hf => ?_, fun hshort => ?_, fun a b c habc => ⟨fun hin => ?_, fun hout => ?_⟩,
      fun hne => ?_, fun hnone => ?_, fun r hr => ⟨fun hst hlim => ?_, fun hst hlim => ?_, fun hst hw hag => ?_,
      fun hst hw hag => ?_, fun hst => ?_⟩, hjobs.articles.trans harticles, hjobs.batches.trans hbatches,
      (congrArg (Vector.map Carrier.standing) hjobs.carriers).trans hcarriers⟩
    · rw [hlane]
      exact hscale.samples.trans hsamples
    · rw [hlane]
      exact hscale.tare
    · rw [hlane]
    · rw [hlane]
      exact hscale.scan
    · obtain ⟨hraised, hlisted⟩ := Store.restoreScale_fault (hscale.scale.trans hf)
      exact ⟨hsettles.told_of hraised.eventEnd, hsettles.renewed_of (Store.eventEnd_keeps_listed _ hlisted)⟩
    · exact hsettled.trans (settledOf_short hshort)
    · rw [hsettled, habc]
      exact settledOf_within hin
    · rw [hsettled, habc]
      exact settledOf_beyond hout
    · have hlisted := Store.sampled_listed (s := s.store) hl (raw := raw.toInt) (by rw [hnew]; exact hne)
      exact hsettles.renewed_of (Store.afterScan_listed ((Store.settleLane_moves _ _).listed hlisted))
    · rw [hlane, Store.weighed_none hl (hnew.trans hnone), Store.sampled_lane hl]
      exact ⟨rfl, rfl, rfl, rfl⟩
    · obtain ⟨hocc, hraised⟩ := Store.weighed_occupies hl (hnew.trans hr) hst hlim
      exact ⟨by rw [hlane]; exact hocc, htold hraised⟩
    · obtain ⟨hraised, hfree⟩ := Store.weighed_frees hl (hnew.trans hr) hst hlim
      exact ⟨htold hraised, by rw [hlane]; exact hfree⟩
    · rw [hlane, Store.weighed_leaves_match hl (hnew.trans hr) hst hw hag]
      exact ⟨hst, rfl, rfl⟩
    · have henters := Store.weighed_enters_match hl (hnew.trans hr) hst hw hag
      have hmatching := Store.matching_lane (s := s.store) hl raw.toInt
      have hstate := Store.matchReport_lane (s := s.store.matching l.val raw.toInt) hl
      rw [show s.store.weighed l.val raw.toInt = (s.store.matching l.val raw.toInt).matchReport l.val from henters]
        at hlane htold
      rw [hlane]
      refine ⟨?_, hstate.imp (fun he => ?_) fun he => ?_, fun hm => htold (Store.matching_raised hl hm _),
        fun k o hk ho hol => ?_⟩
      · rcases hstate with he | he
        · rw [he, hmatching]; rfl
        · rw [he, hmatching]; rfl
      · rw [he, hmatching]
        exact ⟨hst, rfl⟩
      · rw [he]
        exact ⟨rfl, rfl⟩
      · intro ends
        refine ⟨fun he => ?_, fun he => ?_⟩
        · have hcomp := Store.matching_completes hl hk ho raw.toInt hol he.1 he.2
          obtain ⟨hord, hdone, -⟩ := Store.afterScan_complete (u := s.store.matching l.val raw.toInt) (o := o) hl
            (Store.order_lt ho)
          have hall : (s.store.scan l.val raw.toInt true).eventEnd =
              ((s.store.matching l.val raw.toInt).complete k l.val o).afterScan l.val := by
            rw [← hcomp]
            exact congrArg (Store.afterScan · l.val) henters
          rw [hcomp] at htold
          refine ⟨(hjobs.order k).trans (by rw [hall]; exact hord), ?_, htold Store.complete_raised⟩
          rw [hcomp, Store.complete_lane_self hl]
        · have hsame := Store.matching_goes_on hl hk ho raw.toInt he
          rw [hsame, hmatching]
          refine ⟨hst, ?_⟩
          rw [hjobs.order k]
          refine (Store.afterScan_order (s.store.weighed l.val raw.toInt) l.val k).trans ?_
          rw [henters]
          exact (congrArg (Option.map Order.standing) ((congrArg (Store.order · k) hsame).trans
            ((Store.matching_order hl k raw.toInt).trans ho)))
    · rw [hlane, Store.weighed_still hl (hnew.trans hr) hst]
      exact ⟨rfl, rfl, rfl, rfl⟩

end

/-! # Keys at the face, and the comparison of a display (R61, R70, R86, R88) -/

section

namespace Sys2Proof.Machine

open Sys2Proof

theorem exec_bayKeyMake (p : Fin 8) (s : State) : exec (.bayKeyMake p) s =
    .next (s.floorEvent fun st => st.takeKeyIf p.val fun e => (keyBay e.key).isSome && e.make) := rfl

theorem exec_bayKeyBreak (p : Fin 8) (s : State) : exec (.bayKeyBreak p) s =
    .next (s.floorEvent fun st => st.takeKeyIf p.val fun e => (keyBay e.key).isSome && !e.make) := rfl

theorem exec_plusMinusBreak (p : Fin 8) (s : State) : exec (.plusMinusBreak p) s =
    .next (s.floorEvent fun st => st.takeKeyIf p.val fun e => (keyBay e.key).isNone && !e.make) := rfl

theorem exec_plus (p : Fin 8) (s : State) : exec (.plus p) s =
    .next (s.floorEvent fun st => st.takeKeyIf p.val fun e => e.key == Key.plus && e.make) := rfl

theorem exec_minus (p : Fin 8) (s : State) : exec (.minus p) s =
    .next (s.floorEvent fun st => st.takeKeyIf p.val fun e => e.key == Key.minus && e.make) := rfl

theorem exec_displayAgreement (p : Fin 8) (s : State) : exec (.displayAgreement p) s =
    .next (s.floorEvent fun st => st.agreePanel p.val) := rfl

theorem look_ext {α : Type} {n : Nat} {x y : Vector α n} (d : α) (h : ∀ i, i < n → look x d i = look y d i) : x = y := by
  ext i hi
  have := h i hi
  simpa [look, hi] using this

theorem Panel.agree_same {x : Panel} {d : Display}
    (h : x.line = .ready → x.outstanding = none → x.shown = none ∨ x.shown = some d) : x.agree d = x := by
  unfold Panel.agree
  split
  · next hr =>
    rcases h hr.1 hr.2 with hs | hs
    · rw [hs]; rfl
    · rw [hs, Option.bind_some, firstDifference_self]
  · rfl

/-- A panel that shows another display is sent the first difference (R86). -/
theorem Panel.agree_sends {x : Panel} {d e : Display} {c : PanelCommand} (hl : x.line = .ready)
    (ho : x.outstanding = none) (hs : x.shown = some e) (hd : firstDifference e d = some c) : x.agree d = x.send c 1 := by
  rw [Panel.agree, if_pos ⟨hl, ho⟩, hs, Option.bind_some, hd]

namespace Store

variable {s t : Store} {p : Nat}

/-! ## The end of an event with one panel to compare -/

/-- Nothing is left to send to any panel but one. -/
def ShownBut (s : Store) (p : Nat) : Prop := ∀ q, q < 8 → q ≠ p → (s.panel q).line = .ready →
  (s.panel q).outstanding = none → (s.panel q).shown = none ∨ (s.panel q).shown = some (s.face q).desired

theorem ShownBut.attended (h : s.ShownBut p) (hd : s.passDue = false) (hp : (s.panel p).line = .ready →
    (s.panel p).outstanding = none → (s.panel p).shown = none ∨ (s.panel p).shown = some (s.face p).desired) :
    s.Attended where
  pass := hd
  displays q hq := by
    by_cases e : q = p
    · subst e
      exact hp
    · exact h q hq e

theorem Attended.shownBut (h : s.Attended) (p : Nat) : s.ShownBut p := fun q hq _ => h.displays q hq

theorem ShownBut.of_others (h : s.ShownBut p) (hp : ∀ q, q ≠ p → t.panel q = s.panel q)
    (hf : ∀ q, q ≠ p → (t.face q).desired = (s.face q).desired) : t.ShownBut p := fun q hq hne => by
  rw [hp q hne, hf q hne]
  exact h q hq hne

/-- With no pass due and one panel to compare, the end of an event is that comparison. -/
theorem eventEnd_one (h : s.ShownBut p) (hd : s.passDue = false) (hp : p < 8) :
    s.eventEnd = s.putPanel p ((s.panel p).agree (s.face p).desired) := by
  obtain ⟨ps, hps⟩ := eventEnd_panels_only hd
  have hface (q : Nat) : s.eventEnd.face q = s.face q := by rw [hps]; rfl
  have hpanels : s.eventEnd.panels = (s.putPanel p ((s.panel p).agree (s.face p).desired)).panels := by
    refine look_ext Panel.unfitted fun q hq => ?_
    show s.eventEnd.panel q = (s.putPanel p _).panel q
    rw [eventEnd_panel s hq, hface]
    by_cases e : q = p
    · subst e
      rw [putPanel_panel_self _ hq]
    · rw [putPanel_panel_other _ e, Panel.agree_same (h q hq e)]
  rw [hps] at hpanels ⊢
  show ({ s with panels := ps } : Store) = { s with panels := put s.panels p _ }
  exact congrArg (fun ps => ({ s with panels := ps } : Store)) hpanels

/-! ## A key event taken (R88) -/

theorem takeKeyIf_takes {e : KeyEvent} {kind : KeyEvent → Bool} (ht : s.takesKeys p) (hh : (s.panel p).holder = some e)
    (hk : kind e = true) : s.takeKeyIf p kind = ((s.emptyHolder p).actKey p e).eventEnd := by
  simp only [takeKeyIf, hh]
  rw [if_pos (by rw [hk, Bool.and_true]; exact (mayTake_iff s p).mpr ht)]

theorem emptyHolder_face (s : Store) (p i : Nat) : (s.emptyHolder p).face i = s.face i := rfl

theorem emptyHolder_panel_other {q : Nat} (h : q ≠ p) (s : Store) : (s.emptyHolder p).panel q = s.panel q :=
  putPanel_panel_other s h _

theorem emptyHolder_attended (hd : s.passDue = false) (h : s.ShownBut p) (ht : s.takesKeys p) :
    (s.emptyHolder p).Attended := by
  have hbut : (s.emptyHolder p).ShownBut p := h.of_others (fun q hq => emptyHolder_panel_other hq s) fun _ _ => rfl
  refine hbut.attended hd fun _ _ => ?_
  by_cases hp : p < 8
  · rw [emptyHolder, putPanel_panel_self _ hp]
    exact .inr ht.2.2
  · exact .inl (by rw [panel_outside hp]; rfl)

theorem actKey_not_presenting {i : Nat} (h : (s.face i).state ≠ .presenting) (e : KeyEvent) : s.actKey i e = s := if_neg h

theorem actKey_bay {i b : Nat} {e : KeyEvent} (h : (s.face i).state = .presenting) (hb : keyBay e.key = some b) :
    s.actKey i e = if e.make then s.bayMake i b else s.bayBreak i b := by
  rw [actKey, if_pos h, hb]

theorem actKey_adjust {i : Nat} {e : KeyEvent} (h : (s.face i).state = .presenting) (hb : keyBay e.key = none) :
    s.actKey i e = if e.make then s.adjust i (e.key == Key.plus) else s := by
  rw [actKey, if_pos h, hb]

/-! ## PLUS and MINUS (R61) -/

/-- What a face displays at most of an item. -/
def topOf (it : Item) : Nat :=
  match it.ref with
  | .count _ => 99
  | _ => it.expected.getD 0

theorem adjusted_eq (it : Item) (up : Bool) : adjusted it up =
    if up then (if it.displayed < topOf it then it.displayed + 1 else it.displayed) else it.displayed - 1 := by
  obtain ⟨ref, expected, displayed⟩ := it
  cases ref <;> rfl

theorem adjusted_of_bound {it : Item} {up : Bool} (h : if up then topOf it ≤ it.displayed else it.displayed = 0) :
    adjusted it up = it.displayed := by
  rw [adjusted_eq]
  cases up with
  | true => rw [if_pos rfl] at h ⊢; exact if_neg (Nat.not_lt.mpr h)
  | false => rw [if_neg Bool.false_ne_true] at h ⊢; rw [h]

theorem adjusted_of_free {it : Item} {up : Bool} (h : if up then it.displayed < topOf it else 0 < it.displayed) :
    adjusted it up = (if up then it.displayed + 1 else it.displayed - 1) ∧ adjusted it up ≠ it.displayed := by
  rw [adjusted_eq]
  cases up with
  | true =>
    rw [if_pos rfl] at h
    simp only [if_true, if_pos h]
    exact ⟨trivial, Nat.succ_ne_self _⟩
  | false =>
    rw [if_neg Bool.false_ne_true] at h
    simp only [Bool.false_eq_true, if_false]
    exact ⟨trivial, by omega⟩

theorem adjust_still {i : Nat} {up : Bool} (h : (s.face i).selected = none ∨
    ∃ b, (s.face i).selected = some b ∧ (look (s.face i).bays [] b = [] ∨
      ∃ it rest, look (s.face i).bays [] b = it :: rest ∧ adjusted it up = it.displayed)) : s.adjust i up = s := by
  unfold adjust
  rcases h with h | ⟨b, h, hb | ⟨it, rest, hb, ha⟩⟩
  · simp only [h]
  · simp only [h, hb]
  · simp only [h, hb, if_pos ha]

/-- A face with the head of a bay's list displayed as another quantity. -/
def withDisplayed (f : Face) (b : Nat) (it : Item) (rest : List Item) (j : Nat) : Face :=
  { f with bays := put f.bays b ({ it with displayed := j } :: rest) }

theorem adjust_changes {i b : Nat} {up : Bool} {it : Item} {rest : List Item} (h : (s.face i).selected = some b)
    (hb : look (s.face i).bays [] b = it :: rest) (ha : adjusted it up ≠ it.displayed) : s.adjust i up =
      ((s.putFace i (withDisplayed (s.face i) b it rest (adjusted it up))).derive i).list (.status (4 + i)) := by
  unfold adjust withDisplayed
  simp only [h, hb, if_neg ha]

theorem bayDisplayOf_quantity (s : Store) (it : Item) (rest : List Item) :
    (s.bayDisplayOf (it :: rest)).quantity = it.displayed := by
  simp only [bayDisplayOf, List.head?_cons]
  split <;> rfl

theorem desiredOf_bay {i b : Nat} (h : (s.face i).state = .presenting) (hb : b < 3) :
    look (s.desiredOf i).bays BayDisplay.off b = s.bayDisplayOf (look (s.face i).bays [] b) := by
  match b, hb with
  | 0, _ => simp [desiredOf, h, look]
  | 1, _ => simp [desiredOf, h, look]
  | 2, _ => simp [desiredOf, h, look]

/-- A face after PLUS or MINUS: its bay list and its display (R61, R70). -/
def adjustedFace (s : Store) (i b : Nat) (it : Item) (rest : List Item) (j : Nat) : Face :=
  { withDisplayed (s.face i) b it rest j with
    desired := (s.putFace i (withDisplayed (s.face i) b it rest j)).desiredOf i }

theorem putFace_putFace (s : Store) (i : Nat) (f g : Face) : (s.putFace i f).putFace i g = s.putFace i g := by
  simp only [putFace, put_put]

theorem adjust_alike {i b : Nat} {up : Bool} {it : Item} {rest : List Item} (hi : i < 8)
    (h : (s.face i).selected = some b) (hb : look (s.face i).bays [] b = it :: rest)
    (ha : adjusted it up ≠ it.displayed) :
    (s.adjust i up).Alike (s.putFace i (s.adjustedFace i b it rest (adjusted it up))) := by
  rw [adjust_changes h hb ha]
  refine (Alike.list _ _).trans ((Alike.setFace _ _ _).trans ?_)
  rw [putFace_face_self s hi, putFace_putFace]
  exact .refl _

theorem adjust_listed {i b : Nat} {up : Bool} {it : Item} {rest : List Item} (h : (s.face i).selected = some b)
    (hb : look (s.face i).bays [] b = it :: rest) (ha : adjusted it up ≠ it.displayed) :
    .status (4 + i) ∈ (s.adjust i up).writeBack := by
  rw [adjust_changes h hb ha]
  exact mem_list_writeBack _ _

theorem adjustedFace_quantity {i b : Nat} {it : Item} {rest : List Item} {j : Nat} (hi : i < 8) (hb : b < 3)
    (hp : (s.face i).state = .presenting) :
    (look (s.adjustedFace i b it rest j).desired.bays BayDisplay.off b).quantity = j := by
  have hface := putFace_face_self s hi (withDisplayed (s.face i) b it rest j)
  have hstate : ((s.putFace i (withDisplayed (s.face i) b it rest j)).face i).state = .presenting := by
    rw [hface]
    exact hp
  have hbays : look ((s.putFace i (withDisplayed (s.face i) b it rest j)).face i).bays [] b =
      { it with displayed := j } :: rest := by
    rw [hface]
    exact look_put_same _ _ _ _ hb
  rw [adjustedFace, desiredOf_bay hstate hb, hbays, bayDisplayOf_quantity]

/-! ## A bay key made (R61) -/

theorem bayMake_alike (s : Store) (i b : Nat) : (s.bayMake i b).Alike
    (s.putFace i { s.face i with held := (s.face i).held.filter (· != b) ++ [b], selected := some b }) :=
  .setFace _ _ _

theorem bayMake_attended (h : s.Attended) (i b : Nat) : (s.bayMake i b).Attended := by
  refine h.of_eq (setFace_passDue _ _ _) (setFace_panels _ _ _) fun p hp => ?_
  by_cases e : p = i
  · subst e
    rw [bayMake, setFace_face_self s hp]
  · rw [bayMake, setFace_face_other s e]

/-! ## The comparison of one display (R86) -/

theorem firstDifference_enabled {d e : Display} (h : d.enabled ≠ e.enabled) :
    firstDifference d e = some (if e.enabled then .enable else .halt) := if_pos h

theorem firstDifference_bay {d e : Display} (he : d.enabled = e.enabled) {b : Nat} (hb : b < 3)
    (hsame : ∀ b', b' < b → look d.bays BayDisplay.off b' = look e.bays BayDisplay.off b')
    (hne : look d.bays BayDisplay.off b ≠ look e.bays BayDisplay.off b) :
    firstDifference d e = some (.showBay b (look e.bays BayDisplay.off b)) := by
  unfold firstDifference
  dsimp only
  rw [if_neg (Classical.not_not.mpr he)]
  match b, hb with
  | 0, _ => rw [if_pos (bne_iff_ne.mpr hne)]
  | 1, _ =>
    rw [if_neg (by simpa using hsame 0 (by decide)), if_pos (bne_iff_ne.mpr hne)]
  | 2, _ =>
    rw [if_neg (by simpa using hsame 0 (by decide)), if_neg (by simpa using hsame 1 (by decide)),
      if_pos (bne_iff_ne.mpr hne)]

theorem firstDifference_note {d e : Display} (he : d.enabled = e.enabled)
    (hsame : ∀ b, b < 3 → look d.bays BayDisplay.off b = look e.bays BayDisplay.off b) (hn : d.note ≠ e.note) :
    firstDifference d e = some (.note e.note) := by
  unfold firstDifference
  dsimp only
  rw [if_neg (Classical.not_not.mpr he), if_neg (by simpa using hsame 0 (by decide)),
    if_neg (by simpa using hsame 1 (by decide)), if_neg (by simpa using hsame 2 (by decide)), if_pos hn]

/-! ## The event of PLUS or MINUS -/

theorem Alike.putPanel {x y : Store} (h : x.Alike y) (p : Nat) (c : Panel) :
    (x.putPanel p c).Alike (y.putPanel p c) := by
  unfold Alike at *
  rw [h]; rfl

/-- A holder emptied leaves no trace under another panel. -/
theorem putFace_putPanel_emptyHolder (s : Store) (p i : Nat) (f : Face) (x : Panel) :
    ((s.emptyHolder p).putFace i f).putPanel p x = (s.putPanel p x).putFace i f := by
  simp only [emptyHolder, putPanel, putFace, put_put]

/-- A change of a face that touches nothing else ends with the comparison of its panel. -/
theorem Alike.eventEnd_face {x y : Store} {f : Face} (h : x.Alike (y.putFace p f)) (hy : y.Attended) (hp : p < 8) :
    x.eventEnd.Alike ((y.putFace p f).putPanel p ((y.panel p).agree f.desired)) := by
  have hbut : x.ShownBut p := (hy.shownBut p).of_others (fun q _ => by rw [h]; rfl) fun q hq => by
    rw [h]
    exact congrArg Face.desired (putFace_face_other y hq f)
  have hface : x.face p = f := by
    rw [h]
    exact putFace_face_self y hp f
  have hpanel : x.panel p = y.panel p := by
    rw [h]; rfl
  rw [eventEnd_one hbut (by rw [h]; exact hy.pass) hp, hface, hpanel]
  exact h.putPanel _ _

end Store

/-- The rows of PLUS and MINUS take the key that they are named after. -/
theorem exec_adjust {s : State} {p : Fin 8} {k : Key} {i : Instr} {up : Bool}
    (h : k = .plus ∧ i = Instr.plus p ∧ up = true ∨ k = .minus ∧ i = .minus p ∧ up = false) :
    ∃ kind : KeyEvent → Bool, exec i s = .next (s.floorEvent fun st => st.takeKeyIf p.val kind) ∧
      kind ⟨k, true⟩ = true ∧ keyBay k = none ∧ (k == Key.plus) = up := by
  rcases h with ⟨rfl, rfl, rfl⟩ | ⟨rfl, rfl, rfl⟩
  · exact ⟨_, exec_plus p s, rfl, rfl, rfl⟩
  · exact ⟨_, exec_minus p s, rfl, rfl, rfl⟩

/-- A bay key has its bay. -/
theorem keyBay_of_mem {k : Key} {b : Nat} (h : (k, b) ∈ [(Key.bay0, 0), (.bay1, 1), (.bay2, 2)]) :
    keyBay k = some b ∧ b < 3 := by
  simp only [List.mem_cons, Prod.mk.injEq, List.not_mem_nil, or_false] at h
  rcases h with ⟨rfl, rfl⟩ | ⟨rfl, rfl⟩ | ⟨rfl, rfl⟩
  all_goals exact ⟨rfl, by decide⟩

end Sys2Proof.Machine

end

section

open Sys2Proof Sys2Proof.Machine

/-- Settles O57: a key taken acts at its face, at most one display changes, and the comparison sends its first
difference. -/
theorem keysActAtTheFace : Obligations.KeysActAtTheFace := by
  intro s p hworking hpass hbut x f taken
  have hp : p.val < 8 := p.isLt
  have hshown : s.store.ShownBut p.val := hbut
  refine ⟨fun k make ht hh => ?_, fun d hl ho hs => ?_⟩
  · have htaken : taken.Attended := Store.emptyHolder_attended hpass hshown ht
    have hstill {c : Instr} {kind : KeyEvent → Bool} (hrow : exec c s = .next (s.floorEvent fun st =>
        st.takeKeyIf p.val kind)) (hk : kind ⟨k, make⟩ = true) (hact : taken.actKey p.val ⟨k, make⟩ = taken) :
        s.Ends c fun t => t.JobsAre taken ∧ s.AddsNothing t := by
      have hx : s.store.takeKeyIf p.val kind = taken :=
        (Store.takeKeyIf_takes ht hh hk).trans ((congrArg Store.eventEnd hact).trans (Store.eventEnd_still htaken))
      exact (State.floorEvent_ends hrow hworking _ hx).imp fun t ⟨hjobs, hsettles⟩ =>
        ⟨hjobs, hsettles.addsNothing rfl rfl⟩
    refine ⟨fun b i hb hm hi => ?_, fun hk hm => ?_, fun i up hm hi => ?_⟩
    · obtain ⟨hkey, -⟩ := keyBay_of_mem hb
      subst hm hi
      have hkind : ((keyBay k).isSome && true) = true := by rw [hkey]; rfl
      refine ⟨fun hf => hstill (exec_bayKeyMake p s) hkind (Store.actKey_not_presenting (s := taken) hf _), fun hf => ?_⟩
      have hact : taken.actKey p.val ⟨k, true⟩ = taken.bayMake p.val b :=
        (Store.actKey_bay (s := taken) hf hkey).trans (if_pos rfl)
      have hx : s.store.takeKeyIf p.val (fun e => (keyBay e.key).isSome && e.make) = taken.bayMake p.val b :=
        (Store.takeKeyIf_takes ht hh hkind).trans ((congrArg Store.eventEnd hact).trans
          (Store.eventEnd_still (Store.bayMake_attended htaken _ _)))
      exact (State.floorEvent_ends (exec_bayKeyMake p s) hworking _ hx).imp fun t ⟨hjobs, _⟩ =>
        hjobs.alike (Store.bayMake_alike taken p.val b)
    · subst hm
      have hkey : keyBay k = none := by rcases hk with rfl | rfl <;> rfl
      refine hstill (exec_plusMinusBreak p s) (by rw [hkey]; rfl) ?_
      by_cases hf : f.state = .presenting
      · exact (Store.actKey_adjust (s := taken) hf hkey).trans (if_neg Bool.false_ne_true)
      · exact Store.actKey_not_presenting (s := taken) hf _
    · subst hm
      obtain ⟨kind, hrow, hkind, hkey, hup⟩ := exec_adjust (s := s) hi
      have hact (hf : f.state = .presenting) : taken.actKey p.val ⟨k, true⟩ = taken.adjust p.val up :=
        (Store.actKey_adjust (s := taken) hf hkey).trans ((if_pos rfl).trans (by rw [hup]))
      refine ⟨fun hnone => ?_, fun b it rest hf hsel hb hbay => ?_⟩
      · refine hstill hrow hkind ?_
        by_cases hf : f.state = .presenting
        · refine (hact hf).trans (Store.adjust_still ?_)
          rcases hnone with hn | hn | ⟨b, hsel, hbay⟩
          · exact absurd hf hn
          · exact .inl hn
          · exact .inr ⟨b, hsel, .inl hbay⟩
        · exact Store.actKey_not_presenting (s := taken) hf _
      · intro top j
        refine ⟨fun hbound => hstill hrow hkind ?_, fun hfree => ?_⟩
        · exact (hact hf).trans (Store.adjust_still (.inr ⟨b, hsel, .inr ⟨it, rest, hbay,
            Store.adjusted_of_bound hbound⟩⟩))
        · obtain ⟨hj, hne⟩ := Store.adjusted_of_free hfree
          have hlisted := Store.adjust_listed (s := taken) (up := up) hsel hbay hne
          have hend := (Store.adjust_alike (s := taken) (up := up) hp hsel hbay hne).eventEnd_face htaken hp
          have hx : s.store.takeKeyIf p.val kind = (taken.adjust p.val up).eventEnd :=
            (Store.takeKeyIf_takes ht hh hkind).trans (congrArg Store.eventEnd (hact hf))
          rw [hj] at hend
          refine (State.floorEvent_ends hrow hworking _ hx).imp fun t ⟨hjobs, hsettles⟩ => ?_
          have hall := hjobs.alike hend
          have hface := (hall.face p.val).trans (Store.putFace_face_self taken hp _)
          have hpanel := (hall.panel p.val).trans (Store.putPanel_panel_self _ hp _)
          have hquantity := Store.adjustedFace_quantity (s := taken) (it := it) (rest := rest) (j := j) hp hb hf
          refine ⟨congrArg Face.bays hface, by rw [hface]; rfl, by rw [hface]; rfl, ?_,
            hsettles.renewed_of (Store.eventEnd_keeps_listed _ hlisted), ?_⟩
          · rw [hface]
            exact hquantity
          · rw [hface, hpanel]
            rw [← Store.putFace_putPanel_emptyHolder s.store p.val p.val]
            exact hall
  · have hsend {c : PanelCommand} (hc : firstDifference d f.desired = some c) :
        s.Ends (.displayAgreement p) fun t => t.JobsAre (s.store.putPanel p.val (x.send c 1)) := by
      have hx : s.store.agreePanel p.val = s.store.putPanel p.val (x.send c 1) := by
        rw [Store.agreePanel_put]
        exact congrArg (s.store.putPanel p.val) (Panel.agree_sends hl ho hs hc)
      exact (State.floorEvent_ends (exec_displayAgreement p s) hworking _ hx).imp fun t ⟨hjobs, _⟩ => hjobs
    refine ⟨fun hd => hsend (Store.firstDifference_enabled hd), fun b hb he hsame hne => hsend ?_,
      fun he hsame hn => hsend (Store.firstDifference_note he hsame hn), fun hd => ?_⟩
    · exact Store.firstDifference_bay he hb hsame hne
    · refine State.floorEvent_ignores (exec_displayAgreement p s) hworking ?_
      rw [Store.agreePanel_put, Panel.agree_same fun _ _ => .inr (hs.trans (congrArg some hd)),
        Store.putPanel_panel_same]

end

/-! # What a panel's bytes do (R79, R80, R83 to R88) -/

section

namespace Sys2Proof.Machine

open Sys2Proof

theorem exec_ack (p : Fin 8) (s : State) :
    exec (.ack p) s = .next (s.floorEvent fun st => st.panelMessage p.val [Code.byteAck]) := rfl

theorem exec_nak (p : Fin 8) (s : State) :
    exec (.nak p) s = .next (s.floorEvent fun st => st.panelMessage p.val [Code.byteNak]) := rfl

theorem exec_ident (p : Fin 8) (part : MessagePart) (type : Byte) (s : State) : exec (.ident p part type) s =
    .next (s.floorEvent fun st => st.panelMessage p.val (partBytes part Code.byteIdent type)) := rfl

theorem exec_keyMake (p : Fin 8) (k : Key) (s : State) :
    exec (.keyMake p k) s = .next (s.floorEvent fun st => st.panelMessage p.val [keyByte k]) := rfl

theorem exec_keyBreak (p : Fin 8) (part : MessagePart) (k : Key) (s : State) : exec (.keyBreak p part k) s =
    .next (s.floorEvent fun st => st.panelMessage p.val (partBytes part Code.byteBreak (keyByte k))) := rfl

theorem exec_messageAbandoned (p : Fin 8) (b : Byte) (s : State) :
    exec (.messageAbandoned p b) s = .next (s.floorEvent fun st => st.panelMessage p.val [b]) := rfl

/-- Events of a working part that leave the same store end in the same state. -/
theorem State.floorEvent_congr {s : State} {x : Store} {f g : Store → Store} (hw : s.path.condition = .working)
    (h : f s.store = g x) : s.floorEvent f = ({ s with store := x } : State).floorEvent g := by
  have hs : s.working = true := by simp [working, hw]
  have hx : ({ s with store := x } : State).working = true := by simp [working, hw]
  rw [floorEvent, floorEvent, if_pos hs, if_pos hx, jobEvent, jobEvent, onStore, onStore, h]

namespace Store

variable {s t : Store} {p : Nat}

/-! ## One byte -/

theorem panelByte_offline (h : (s.panel p).line = .offline) (b : Byte) : panelByte p s b = s := if_pos h

theorem panelByte_fresh (hl : (s.panel p).line ≠ .offline) (hr : (s.panel p).received = .none) (b : Byte) :
    panelByte p s b = s.freshByte p b := by
  simp only [panelByte, if_neg hl, hr]

theorem panelByte_break (hl : (s.panel p).line ≠ .offline) (hr : (s.panel p).received = .breakPrefix) {b : Byte}
    {k : Key} (hk : Code.keyOf b = some k) : panelByte p s b = (s.setReceived p .none).takeEvent p ⟨k, false⟩ := by
  simp only [panelByte, if_neg hl, hr, hk]

theorem panelByte_break_dropped (hl : (s.panel p).line ≠ .offline) (hr : (s.panel p).received = .breakPrefix)
    {b : Byte} (hk : Code.keyOf b = none) : panelByte p s b = (s.setReceived p .none).freshByte p b := by
  simp only [panelByte, if_neg hl, hr, hk]

theorem panelByte_ident (hl : (s.panel p).line ≠ .offline) (hr : (s.panel p).received = .ident) {b : Byte}
    (hb : b.toNat ≤ 0xBF) : panelByte p s b = (s.setReceived p .none).takeIdent p b := by
  have hp : Code.isParameter b = true := decide_eq_true hb
  simp only [panelByte, if_neg hl, hr, hp, if_true]

theorem panelByte_ident_dropped (hl : (s.panel p).line ≠ .offline) (hr : (s.panel p).received = .ident) {b : Byte}
    (hb : 0xBF < b.toNat) : panelByte p s b = (s.setReceived p .none).freshByte p b := by
  have hp : Code.isParameter b = false := decide_eq_false (Nat.not_le.mpr hb)
  simp only [panelByte, if_neg hl, hr, hp, Bool.false_eq_true, if_false]

theorem keyOf_keyByte (k : Key) : Code.keyOf (keyByte k) = some k := by cases k <;> rfl

theorem freshByte_ack (s : Store) (p : Nat) : s.freshByte p Code.byteAck = s.takeAck p := rfl

theorem freshByte_nak (s : Store) (p : Nat) : s.freshByte p Code.byteNak = s.takeNak p := rfl

theorem freshByte_ident (s : Store) (p : Nat) : s.freshByte p Code.byteIdent = s.setReceived p .ident := rfl

theorem freshByte_break (s : Store) (p : Nat) : s.freshByte p Code.byteBreak = s.setReceived p .breakPrefix := rfl

theorem freshByte_key (s : Store) (p : Nat) (k : Key) : s.freshByte p (keyByte k) = s.takeEvent p ⟨k, true⟩ := by
  cases k <;> rfl

/-- A byte that begins nothing is dropped. -/
theorem freshByte_other (s : Store) (p : Nat) {b : Byte}
    (hb : b ∉ ([0xE0, 0xE1, 0xE2, 0xF0, 1, 2, 3, 4, 5] : List Byte)) :
    s.freshByte p b = s ∧ Code.keyOf b = none := by
  simp only [List.mem_cons, List.not_mem_nil, or_false, not_or] at hb
  obtain ⟨h0, h1, h2, h3, k1, k2, k3, k4, k5⟩ := hb
  have hk : Code.keyOf b = none := by simp only [Code.keyOf, k1, k2, k3, k4, k5, if_false]
  refine ⟨?_, hk⟩
  unfold freshByte
  rw [if_neg (show ¬ b = Code.byteAck from h0), if_neg (show ¬ b = Code.byteNak from h1),
    if_neg (show ¬ b = Code.byteIdent from h2), if_neg (show ¬ b = Code.byteBreak from h3), hk]

theorem setReceived_panel (hp : p < 8) (m : PendingMessage) :
    (s.setReceived p m).panel p = { s.panel p with received := m } := putPanel_panel_self s hp _

theorem setReceived_same (h : (s.panel p).received = .none) : s.setReceived p .none = s := by
  rw [setReceived, ← h]
  exact putPanel_panel_same s p

theorem setReceived_setReceived (hp : p < 8) (m n : PendingMessage) :
    (s.setReceived p m).setReceived p n = s.setReceived p n := by
  rw [setReceived, setReceived_panel hp, setReceived, putPanel_putPanel, setReceived]

/-! ## What follows the bytes (R86, R88) -/

theorem takeKey_still (h : ∀ e, (s.panel p).holder = some e → ¬ s.takesKeys p) : s.takeKey p = s := by
  simp only [takeKey, takeKeyIf]
  split
  · rfl
  · next e he =>
    rw [if_neg]
    rw [Bool.and_true]
    exact fun hm => h e he ((mayTake_iff s p).mp hm)

/-- Bytes that change nothing that the display or the keys turn on. -/
theorem panelMessage_put {bs : List Byte} {y : Panel} (hp : p < 8) (ha : s.Attended) (hk : s.KeysTaken)
    (hb : bs.foldl (panelByte p) s = s.putPanel p y)
    (hy : y.line = (s.panel p).line ∧ y.outstanding = (s.panel p).outstanding ∧ y.shown = (s.panel p).shown ∧
      y.holder = (s.panel p).holder) : s.panelMessage p bs = s.putPanel p y := by
  obtain ⟨hl, ho, hs, hh⟩ := hy
  have hput : (s.putPanel p y).Attended := ha.putPanel (by rw [hl, ho, hs]; exact ha.displays p hp)
  rw [panelMessage, hb, eventEnd_still hput]
  refine takeKey_still fun e he ht => ?_
  rw [putPanel_panel_self _ hp, hh] at he
  rw [takesKeys, putPanel_panel_self _ hp, hl, ho, hs] at ht
  rw [hk p hp ht] at he
  exact nomatch he

/-! ## A key event (R87) -/

/-- A panel with a key event taken into its holder. -/
def holding (x : Panel) (e : KeyEvent) : Panel := { x with received := .none, holder := some e, inhibit := true }

theorem takeEvent_ready (hl : (s.panel p).line = .ready) (hh : (s.panel p).holder = none) (e : KeyEvent) :
    s.takeEvent p e = s.putPanel p { s.panel p with holder := some e, inhibit := true } := by
  unfold takeEvent
  dsimp only
  rw [if_pos hl]
  split
  · rfl
  · next h => rw [hh] at h; exact nomatch h

theorem takeEvent_full (hl : (s.panel p).line = .ready) (hh : (s.panel p).holder ≠ none) (e : KeyEvent) :
    s.takeEvent p e = s.setPanel p { s.panel p with overrun := true } := by
  unfold takeEvent
  dsimp only
  rw [if_pos hl]
  split
  · next h => exact absurd h hh
  · rfl

/-- A key event of a panel that holds none is taken into the holder. -/
theorem received_takeEvent (hp : p < 8) (hl : (s.panel p).line = .ready) (hh : (s.panel p).holder = none)
    (e : KeyEvent) : (s.setReceived p .none).takeEvent p e = s.putPanel p (holding (s.panel p) e) := by
  have hpanel := setReceived_panel (s := s) hp .none
  rw [takeEvent_ready (by rw [hpanel]; exact hl) (by rw [hpanel]; exact hh), hpanel, setReceived, putPanel_putPanel]
  rfl

/-- A panel that has lost a key event (R87). -/
def overrunPanel (x : Panel) : Panel := { x with received := .none, overrun := true }

theorem Alike.setPanel (x : Store) (p : Nat) (c : Panel) : (x.setPanel p c).Alike (x.putPanel p c) := by
  obtain ⟨rs, hrs⟩ := setPanel_writeBack_only x p c
  rw [hrs]
  rfl

theorem overrun_alike (s : Store) (p : Nat) : ((s.setReceived p .none).setPanel p (overrunPanel (s.panel p))).Alike
    (s.putPanel p (overrunPanel (s.panel p))) := by
  have h := Alike.setPanel (s.setReceived p .none) p (overrunPanel (s.panel p))
  rwa [setReceived, putPanel_putPanel] at h

/-- A key event of a panel that holds one is lost, and OVERRUN is set. -/
theorem received_overrun (hp : p < 8) (hl : (s.panel p).line = .ready) (hh : (s.panel p).holder ≠ none)
    (e : KeyEvent) : (s.setReceived p .none).takeEvent p e =
      (s.setReceived p .none).setPanel p (overrunPanel (s.panel p)) := by
  have hpanel := setReceived_panel (s := s) hp .none
  rw [takeEvent_full (by rw [hpanel]; exact hl) (by rw [hpanel]; exact hh), hpanel]
  rfl

theorem takeEvent_not_ready (h : (s.panel p).line ≠ .ready) (e : KeyEvent) : s.takeEvent p e = s := if_neg h

theorem takesKeys_putPanel (hp : p < 8) {y : Panel} (hl : y.line = (s.panel p).line)
    (ho : y.outstanding = (s.panel p).outstanding) (hs : y.shown = (s.panel p).shown) :
    (s.putPanel p y).takesKeys p ↔ s.takesKeys p := by
  rw [takesKeys, putPanel_panel_self _ hp, hl, ho, hs]
  rfl

section

variable {e : KeyEvent} {bs : List Byte} (hp : p < 8) (ha : s.Attended)
  (hb : bs.foldl (panelByte p) s = (s.setReceived p .none).takeEvent p e) (hl : (s.panel p).line = .ready)

include hp ha in
theorem holding_attended (e : KeyEvent) : (s.putPanel p (holding (s.panel p) e)).Attended :=
  ha.putPanel (ha.displays p hp)

include hp ha hb hl in
/-- A key event waits in the holder where the Face Controller may not take it. -/
theorem panelMessage_holds (hh : (s.panel p).holder = none) (ht : ¬ s.takesKeys p) :
    s.panelMessage p bs = s.putPanel p (holding (s.panel p) e) := by
  rw [panelMessage, hb, received_takeEvent hp hl hh, eventEnd_still (holding_attended hp ha e)]
  exact takeKey_still fun _ _ hn => ht ((takesKeys_putPanel (y := holding (s.panel p) e) hp rfl rfl rfl).mp hn)

include hp ha hb hl in
/-- A key event is taken at once where the Face Controller may take it. -/
theorem panelMessage_takes (hh : (s.panel p).holder = none) (ht : s.takesKeys p) : s.panelMessage p bs =
    (((s.putPanel p (holding (s.panel p) e)).emptyHolder p).actKey p e).eventEnd := by
  rw [panelMessage, hb, received_takeEvent hp hl hh, eventEnd_still (holding_attended hp ha e)]
  exact takeKeyIf_takes ((takesKeys_putPanel (y := holding (s.panel p) e) hp rfl rfl rfl).mpr ht)
    (congrArg Panel.holder (putPanel_panel_self s hp _)) rfl

include hp ha hb hl in
/-- A key event that finds the holder full sets OVERRUN (R87). -/
theorem panelMessage_overruns (hk : s.KeysTaken) (hh : (s.panel p).holder ≠ none) : s.panelMessage p bs =
    (s.setReceived p .none).setPanel p (overrunPanel (s.panel p)) := by
  have halike := overrun_alike s p
  have hput : (s.putPanel p (overrunPanel (s.panel p))).Attended := ha.putPanel (ha.displays p hp)
  rw [panelMessage, hb, received_overrun hp hl hh]
  rw [eventEnd_still (halike.attended hput)]
  refine takeKey_still fun _ _ ht => hh (hk p hp ?_)
  rw [show (s.setReceived p .none).setPanel p (overrunPanel (s.panel p)) = _ from halike] at ht
  exact (takesKeys_putPanel (y := overrunPanel (s.panel p)) hp rfl rfl rfl).mp ht

end

/-- The holder is emptied again. -/
theorem holding_emptyHolder (hp : p < 8) (e : KeyEvent) : (s.putPanel p (holding (s.panel p) e)).emptyHolder p =
    s.putPanel p { s.panel p with received := .none, holder := none, inhibit := false } := by
  rw [emptyHolder, putPanel_panel_self _ hp, putPanel_putPanel]
  rfl

end Store

/-- The rows of a key event: the bytes complete it. -/
theorem exec_keyEvent {s : State} {p : Fin 8} {k : Key} {i : Instr} {make : Bool}
    (hl : (s.store.panel p).line ≠ .offline)
    (h : i = .keyMake p k ∧ make = true ∧ (s.store.panel p).received = .none ∨
      i = .keyBreak p .whole k ∧ make = false ∧ (s.store.panel p).received = .none ∨
      i = .keyBreak p .closing k ∧ make = false ∧ (s.store.panel p).received = .breakPrefix) :
    ∃ bs, exec i s = .next (s.floorEvent fun st => st.panelMessage p.val bs) ∧
      bs.foldl (Store.panelByte p.val) s.store = (s.store.setReceived p.val .none).takeEvent p.val ⟨k, make⟩ := by
  have hp : p.val < 8 := p.isLt
  rcases h with ⟨rfl, rfl, hr⟩ | ⟨rfl, rfl, hr⟩ | ⟨rfl, rfl, hr⟩
  · refine ⟨_, exec_keyMake p k s, ?_⟩
    rw [List.foldl_cons, List.foldl_nil, Store.panelByte_fresh hl hr, Store.freshByte_key, Store.setReceived_same hr]
  · refine ⟨_, exec_keyBreak p .whole k s, ?_⟩
    have hbreak := Store.setReceived_panel (s := s.store) hp .breakPrefix
    rw [partBytes, List.foldl_cons, List.foldl_cons, List.foldl_nil, Store.panelByte_fresh hl hr, Store.freshByte_break,
      Store.panelByte_break (by rw [hbreak]; exact hl) (by rw [hbreak]) (Store.keyOf_keyByte k),
      Store.setReceived_setReceived hp]
  · refine ⟨_, exec_keyBreak p .closing k s, ?_⟩
    rw [partBytes, List.foldl_cons, List.foldl_nil, Store.panelByte_break hl hr (Store.keyOf_keyByte k)]

end Sys2Proof.Machine

end

section

open Sys2Proof Sys2Proof.Machine

/-- Settles O55: a completed key event is held, taken or lost as the holder and the display stand, and a byte that
completes none changes at most the pending message. -/
theorem keyEventsReachTheHolder : Obligations.KeyEventsReachTheHolder := by
  intro s p k hworking hatt hkeys x becomes holds bay event
  have hp : p.val < 8 := p.isLt
  have hput {c : Instr} {bs : List Byte} {y : Panel} (hrow : exec c s = .next (s.floorEvent fun st =>
      st.panelMessage p.val bs)) (hx : s.store.panelMessage p.val bs = s.store.putPanel p.val y) :
      s.Ends c (becomes y) := (State.floorEvent_ends hrow hworking _ hx).imp fun t ⟨hjobs, _⟩ => hjobs
  refine ⟨fun i make ⟨hl, hev⟩ => ?_, fun hr hl => ?_, fun hr hl => ?_, fun b hb hl hr => ?_⟩
  · obtain ⟨bs, hrow, hbytes⟩ := exec_keyEvent (by rw [hl]; exact nofun) hev
    refine ⟨fun hh ht => hput hrow (Store.panelMessage_holds hp hatt hbytes hl hh ht), fun hh ht => ?_, fun hh => ?_⟩
    · have htakes := Store.panelMessage_takes hp hatt hbytes hl hh ht
      have hheld : (s.store.putPanel p.val (Store.holding x ⟨k, make⟩)).takesKeys p.val :=
        (Store.takesKeys_putPanel (y := Store.holding x ⟨k, make⟩) hp rfl rfl rfl).mpr ht
      have hholder : ((s.store.putPanel p.val (Store.holding x ⟨k, make⟩)).panel p.val).holder = some ⟨k, make⟩ :=
        congrArg Panel.holder (Store.putPanel_panel_self s.store hp _)
      obtain ⟨t, hexec, -, -, hjobs, -⟩ := State.floorEvent_ends hrow hworking _ htakes
      have ht' : s.floorEvent (fun st => st.panelMessage p.val bs) = t := Host.Outcome.next.inj (hrow.symm.trans hexec)
      have hrun {c : Instr} {kind : KeyEvent → Bool} (hrow' : exec c (holds make) = .next ((holds make).floorEvent
          fun st => st.takeKeyIf p.val kind)) (hkind : kind ⟨k, make⟩ = true) : exec c (holds make) = .next t := by
        rw [hrow', ← ht']
        exact congrArg _ (State.floorEvent_congr hworking
          (htakes.trans (Store.takeKeyIf_takes hheld hholder hkind).symm)).symm
      have hbay (hb : bay) : (keyBay k).isSome = true := by rcases hb with rfl | rfl | rfl <;> rfl
      have hnobay (hb : ¬ bay) : (keyBay k).isNone = true := by
        cases k <;> first | rfl | exact absurd (by simp [bay]) hb
      refine ⟨t, hexec, ?_, fun hf => ?_, fun hf => ⟨fun hb hm => ?_, fun hb hm => ?_, fun hk hm => ?_,
        fun hk hm => ?_, fun hb hm => ?_⟩⟩
      · rw [hjobs.panel, Store.eventEnd_panel _ hp, Panel.agree_holder, Store.panel, Store.actKey_panels,
          Store.holding_emptyHolder hp]
        exact congrArg Panel.holder (Store.putPanel_panel_self s.store hp _)
      · have hstill : ((s.store.putPanel p.val (Store.holding x ⟨k, make⟩)).emptyHolder p.val).Attended := by
          rw [Store.holding_emptyHolder hp]
          exact hatt.putPanel (hatt.displays p hp)
        rw [Store.actKey_not_presenting (s := (s.store.putPanel p.val (Store.holding x ⟨k, make⟩)).emptyHolder p.val)
          hf, Store.eventEnd_still hstill, Store.holding_emptyHolder hp] at hjobs
        exact hjobs
      · exact hrun (exec_bayKeyMake p _) (by rw [hbay hb, hm]; rfl)
      · exact hrun (exec_bayKeyBreak p _) (by rw [hbay hb, hm]; rfl)
      · exact hrun (exec_plus p _) (by rw [hk, hm]; rfl)
      · exact hrun (exec_minus p _) (by rw [hk, hm]; rfl)
      · exact hrun (exec_plusMinusBreak p _) (by rw [hnobay hb, hm]; rfl)
    · have hx := Store.panelMessage_overruns hp hatt hbytes hl hkeys hh
      refine (State.floorEvent_ends hrow hworking _ hx).imp fun t ⟨hjobs, hsettles⟩ =>
        ⟨hjobs.alike (Store.overrun_alike _ _), fun ho => hsettles.renewed_of (Store.setPanel_listed fun hs => ?_)⟩
      rw [Store.setReceived_panel hp] at hs
      exact nomatch ho.symm.trans hs.2.1
  · have hon : (s.store.panel p.val).line ≠ .offline := by rw [hl]; exact nofun
    have hstill {c : Instr} {make : Bool} (h : c = .keyMake p k ∧ make = true ∧ x.received = .none ∨
        c = .keyBreak p .whole k ∧ make = false ∧ x.received = .none ∨
        c = .keyBreak p .closing k ∧ make = false ∧ x.received = .breakPrefix) : s.Ignores c := by
      obtain ⟨bs, hrow, hbytes⟩ := exec_keyEvent hon h
      have hready : (s.store.panel p.val).line ≠ .ready := by rw [hl]; exact nofun
      have hx : s.store.panelMessage p.val bs = s.store.putPanel p.val x := by
        refine Store.panelMessage_put hp hatt hkeys ?_ ⟨rfl, rfl, rfl, rfl⟩
        rw [hbytes, Store.setReceived_same hr, Store.takeEvent_not_ready hready, Store.putPanel_panel_same]
      exact State.floorEvent_ignores hrow hworking (hx.trans (Store.putPanel_panel_same _ _))
    exact ⟨hstill (.inl ⟨rfl, rfl, hr⟩), hstill (.inr (.inl ⟨rfl, rfl, hr⟩))⟩
  · refine hput (exec_keyBreak p .opening k s) (Store.panelMessage_put hp hatt hkeys ?_ ⟨rfl, rfl, rfl, rfl⟩)
    rw [partBytes, List.foldl_cons, List.foldl_nil, Store.panelByte_fresh hl hr, Store.freshByte_break]
    rfl
  · refine hput (exec_messageAbandoned p b s) (Store.panelMessage_put hp hatt hkeys ?_ ⟨rfl, rfl, rfl, rfl⟩)
    obtain ⟨hother, hkey⟩ := Store.freshByte_other (s.store.setReceived p.val .none) p.val hb
    rw [List.foldl_cons, List.foldl_nil]
    rcases hr with hr | ⟨hr, hbig⟩
    · rw [Store.panelByte_break_dropped hl hr hkey, hother]
      rfl
    · rw [Store.panelByte_ident_dropped hl hr hbig, hother]
      rfl

end

/-! # The answers of a panel (R79 to R81, R83, R86) -/

section

namespace Sys2Proof.Machine

open Sys2Proof

theorem exec_answerTimer (p : Fin 8) (s : State) : exec (.answerTimer p) s = .next (s.floorEvent fun st =>
    if (st.panel p.val).timer.isSome then ((st.expireAnswer p.val).eventEnd).takeKey p.val else st) := rfl

/-- What a face that resumes moves. -/
@[simp] def Part.resuming : Part → Prop
  | .notice => True
  | p => turning p

theorem Part.resuming_of_turning : ∀ p, turning p → resuming p := by
  intro p h
  cases p <;> simp_all

namespace Moves

variable {K : Part → Prop} {s t : Store}

/-- A face that is not HALTED stays so, whatever moves. -/
theorem not_halted (h : Moves K s t) {i : Nat} (hs : (s.face i).state ≠ .halted) : (t.face i).state ≠ .halted := by
  refine h.keeps (P := fun u => (u.face i).state ≠ .halted) (fun p u v hp m hu => ?_) hs
  rcases m.face_change i with e | e
  · rw [e]; exact hu
  · generalize v.face i = f at e
    cases e with
    | bays f hs => rw [hs.1]; exact hu
    | derive => exact hu
    | opens f _ hf => rw [hf]; exact nofun
    | reopens f _ hf => rw [hf]; exact nofun
    | closes => exact nofun

end Moves

namespace Store

variable {s t : Store} {p : Nat}

/-- What follows the bytes of a message: the end of the event, and the key that the holder may give (R86, R88). -/
def afterMessage (s : Store) (p : Nat) : Store := s.eventEnd.takeKey p

theorem panelMessage_eq (s : Store) (p : Nat) (bs : List Byte) :
    s.panelMessage p bs = (bs.foldl (panelByte p) s).afterMessage p := rfl

theorem afterMessage_not_ready (hp : p < 8) (h : (s.panel p).line ≠ .ready) : s.afterMessage p = s.eventEnd :=
  takeKey_still fun _ _ ht => h (by rw [← eventEnd_panel_not_ready hp h]; exact ht.1)

/-- A panel put OFFLINE, into its identification or into an exchange is left so. -/
theorem afterMessage_put (hp : p < 8) (ha : s.Attended) {y : Panel}
    (hy : y.line = .ready → y.outstanding ≠ none) : (s.putPanel p y).afterMessage p = s.putPanel p y := by
  have hput : (s.putPanel p y).Attended := ha.putPanel fun hl ho => absurd ho (hy hl)
  rw [afterMessage, eventEnd_still hput]
  refine takeKey_still fun _ _ ht => ?_
  obtain ⟨hl, ho, -⟩ := ht
  rw [putPanel_panel_self _ hp] at hl ho
  exact hy hl ho

/-- A panel that waits for no answer is compared, and gives its key where it agrees. -/
theorem afterMessage_compared (hp : p < 8) (ha : s.Attended) (y : Panel) : (s.putPanel p y).afterMessage p =
    (s.putPanel p (y.agree (s.face p).desired)).takeKey p := by
  have hbut : (s.putPanel p y).ShownBut p :=
    (ha.shownBut p).of_others (fun q hq => putPanel_panel_other s hq y) fun _ _ => rfl
  rw [afterMessage, eventEnd_one hbut ha.pass hp, putPanel_panel_self _ hp, putPanel_putPanel]
  rfl

/-! ## A panel goes OFFLINE (R81) -/

theorem goOffline_not_ready (h : (s.panel p).line ≠ .ready) :
    s.goOffline p = (s.putPanel p (s.panel p).offline).list (.status (4 + p)) := by
  simp only [goOffline, if_neg h]

theorem goOffline_ready (h : (s.panel p).line = .ready) :
    s.goOffline p = ((s.putPanel p (s.panel p).offline).panelLeft p).list (.status (4 + p)) := by
  simp only [goOffline, if_pos h]

theorem goOffline_panel (hp : p < 8) : (s.goOffline p).panel p = (s.panel p).offline := by
  by_cases h : (s.panel p).line = .ready
  · rw [goOffline_ready h, panel, list_panels]
    exact (panelLeft_panel _ _ _).trans (putPanel_panel_self s hp _)
  · rw [goOffline_not_ready h, panel, list_panels]
    exact putPanel_panel_self s hp _

theorem goOffline_listed (s : Store) (p : Nat) : .status (4 + p) ∈ (s.goOffline p).writeBack := mem_list_writeBack _ _

theorem goOffline_halted (hp : p < 8) (h : (s.panel p).line = .ready) : ((s.goOffline p).face p).state = .halted := by
  rw [goOffline_ready h, face, list_faces]
  exact panelLeft_halted _ hp

theorem goOffline_after (hp : p < 8) : (s.goOffline p).afterMessage p = (s.goOffline p).eventEnd :=
  afterMessage_not_ready hp (by rw [goOffline_panel hp]; exact nofun)

/-- Of a panel that was not READY nothing else changes. -/
theorem goOffline_alike (ha : s.Attended) (h : (s.panel p).line ≠ .ready) :
    (s.goOffline p).eventEnd.Alike (s.putPanel p (s.panel p).offline) := by
  have hput : (s.putPanel p (s.panel p).offline).Attended := ha.putPanel fun hl => nomatch hl
  rw [goOffline_not_ready h, eventEnd_still ((Alike.list _ _).attended hput)]
  exact .list _ _

/-! ## A panel enters READY (R68, R80) -/

theorem panelEntered_halted (h : (s.face p).state = .halted) : s.panelEntered p =
    ((((s.putFace p { s.face p with state := .idle }).tellWorking (p / 2) (p % 2)).raise (.face p)
      Flag.faceResumed).list (.status (4 + p))).derive p := by
  simp only [panelEntered, if_pos h]

theorem panelEntered_other (h : (s.face p).state ≠ .halted) : s.panelEntered p = s := if_neg h

theorem panelEntered_moves (h : (s.face p).state = .halted) :
    Moves Part.resuming (s.putFace p { s.face p with state := .idle }) (s.panelEntered p) := by
  rw [panelEntered_halted h]
  exact .after (derive_moves (by simp) (by simp) _) (.after (list_moves (by simp) _ _) (.after
    (raise_moves (by simp) _ _ _) ((tellWorking_moves _ _ _).mono Part.resuming_of_turning)))

/-- A face that was HALTED has resumed. -/
theorem panelEntered_resumed (hp : p < 8) (h : (s.face p).state = .halted) :
    ((s.panelEntered p).face p).state ≠ .halted ∧ (s.panelEntered p).Raised (.face p) Flag.faceResumed := by
  refine ⟨(panelEntered_moves h).not_halted ?_, ?_⟩
  · rw [putFace_face_self _ hp]
    exact nofun
  · rw [panelEntered_halted h]
    have hr := raise_raised ((s.putFace p { s.face p with state := .idle }).tellWorking (p / 2) (p % 2)) (.face p)
      Flag.faceResumed
    exact (derive_moves (K := Part.resuming) (by simp) (by simp) _).raised
      ((list_moves (K := Part.resuming) (by simp) _ _).raised hr)

/-- A panel that enters READY triggers no pass and touches no article or order. -/
theorem panelEntered_frame (s : Store) (p : Nat) : (s.panelEntered p).passDue = s.passDue ∧
    (s.panelEntered p).articles = s.articles ∧ (s.panelEntered p).orders = s.orders := by
  by_cases h : (s.face p).state = .halted
  · have hm := panelEntered_moves h
    exact ⟨hm.passDue (by simp), hm.articles (by simp), hm.orders (by simp)⟩
  · rw [panelEntered_other h]
    exact ⟨rfl, rfl, rfl⟩

/-! ## The exchange (R79, R80) -/

theorem takeAck_quiet (h : (s.panel p).outstanding = none) : s.takeAck p = s := by
  unfold takeAck
  dsimp only
  rw [h]

theorem failExchange_quiet (h : (s.panel p).outstanding = none) : s.failExchange p = s := by
  unfold failExchange
  dsimp only
  rw [h]

section

variable {c : PanelCommand} (h : (s.panel p).outstanding = some c)

include h in
theorem takeAck_identify (hs : (s.panel p).step = some .awaitAck) :
    s.takeAck p = s.putPanel p { s.panel p with step := some .awaitIdent, timer := some Config.answerTime } := by
  unfold takeAck
  dsimp only
  rw [h]
  dsimp only
  rw [hs]

include h in
theorem takeAck_awaiting (hs : (s.panel p).step = some .awaitIdent) : s.takeAck p = s := by
  unfold takeAck
  dsimp only
  rw [h]
  dsimp only
  rw [hs]

include h in
theorem takeAck_repeat (hs : (s.panel p).step = some .awaitRepeatAck) : s.takeAck p = s.enterReady p := by
  unfold takeAck
  dsimp only
  rw [h]
  dsimp only
  rw [hs]

include h in
theorem takeAck_display (hs : (s.panel p).step = none) : s.takeAck p =
    s.putPanel p { (s.panel p).quiet with shown := (s.panel p).shown.map fun d => d.acknowledge c } := by
  unfold takeAck
  dsimp only
  rw [h]
  dsimp only
  rw [hs]

end

/-- A panel whose exchange is tried again. -/
def retried (x : Panel) (c : PanelCommand) : Panel :=
  { x.send c 2 with step := if x.step = some .awaitIdent then some .awaitAck else x.step }

theorem failExchange_first {c : PanelCommand} (h : (s.panel p).outstanding = some c)
    (ha : (s.panel p).attempt = some 1) : s.failExchange p = s.putPanel p (retried (s.panel p) c) := by
  unfold failExchange
  dsimp only
  rw [h]
  exact if_pos ha

theorem failExchange_second {c : PanelCommand} (h : (s.panel p).outstanding = some c)
    (ha : (s.panel p).attempt = some 2) : s.failExchange p = s.goOffline p := by
  unfold failExchange
  dsimp only
  rw [h]
  exact if_neg (by rw [ha]; decide)

/-! ## Which bytes come to which operation -/

theorem panelMessage_ack (hl : (s.panel p).line ≠ .offline) (hr : (s.panel p).received = .none) :
    s.panelMessage p [Code.byteAck] = (s.takeAck p).afterMessage p := by
  rw [panelMessage_eq, List.foldl_cons, List.foldl_nil, panelByte_fresh hl hr, freshByte_ack]

theorem panelMessage_nak (hl : (s.panel p).line ≠ .offline) (hr : (s.panel p).received = .none) :
    s.panelMessage p [Code.byteNak] = (s.failExchange p).afterMessage p := by
  rw [panelMessage_eq, List.foldl_cons, List.foldl_nil, panelByte_fresh hl hr, freshByte_nak]
  rfl

/-- Bytes that leave the store as it is, and leave nothing to follow. -/
theorem panelMessage_still {bs : List Byte} (hp : p < 8) (ha : s.Attended) (hk : s.KeysTaken)
    (hb : bs.foldl (panelByte p) s = s) : s.panelMessage p bs = s := by
  have h := panelMessage_put (y := s.panel p) hp ha hk (by rw [hb, putPanel_panel_same]) ⟨rfl, rfl, rfl, rfl⟩
  rwa [putPanel_panel_same] at h

theorem panelMessage_offline {bs : List Byte} (hp : p < 8) (ha : s.Attended) (hk : s.KeysTaken)
    (hl : (s.panel p).line = .offline) : s.panelMessage p bs = s := by
  refine panelMessage_still hp ha hk ?_
  induction bs with
  | nil => rfl
  | cons b bs ih => rw [List.foldl_cons, panelByte_offline hl, ih]

/-- A byte that is no parameter and no key drops a pending message (R84). -/
theorem panelByte_drops (hl : (s.panel p).line ≠ .offline) {b : Byte} (hb : 0xBF < b.toNat)
    (hk : Code.keyOf b = none) : panelByte p s b = (s.setReceived p .none).freshByte p b := by
  cases hr : (s.panel p).received with
  | none => rw [panelByte_fresh hl hr, setReceived_same hr]
  | breakPrefix => exact panelByte_break_dropped hl hr hk
  | ident => exact panelByte_ident_dropped hl hr hb

/-- So the message that such a byte begins is the same with no message pending. -/
theorem panelMessage_drops (hp : p < 8) (hl : (s.panel p).line ≠ .offline) {b : Byte} (hb : 0xBF < b.toNat)
    (hk : Code.keyOf b = none) (bs : List Byte) :
    s.panelMessage p (b :: bs) = (s.setReceived p .none).panelMessage p (b :: bs) := by
  have hpanel := setReceived_panel (s := s) hp .none
  have hfresh : panelByte p (s.setReceived p .none) b = (s.setReceived p .none).freshByte p b :=
    panelByte_fresh (by rw [hpanel]; exact hl) (by rw [hpanel]) b
  rw [panelMessage_eq, panelMessage_eq, List.foldl_cons, List.foldl_cons, panelByte_drops hl hb hk, hfresh]

/-! ## IDENT (R80) -/

theorem takeIdent_known (hl : (s.panel p).line = .identifying) (hs : (s.panel p).step = some .awaitIdent) :
    s.takeIdent p 0x31 = s.putPanel p { (s.panel p).send (.repeatTiming s.cfg.repeatByte) 1 with
      shown := some Display.panelReset, step := some .awaitRepeatAck } := by
  simp only [takeIdent, hl, hs, and_self, if_true]
  rfl

theorem takeIdent_wrong (hl : (s.panel p).line = .identifying) (hs : (s.panel p).step = some .awaitIdent)
    {type : Byte} (ht : type ≠ 0x31) :
    s.takeIdent p type = (s.putPanel p { s.panel p with wrongType := true }).goOffline p := by
  unfold takeIdent
  dsimp only
  rw [if_pos ⟨hl, hs⟩, if_neg (show ¬ type = Code.threeBayType from ht)]

theorem takeIdent_other (h : ¬ ((s.panel p).line = .identifying ∧ (s.panel p).step = some .awaitIdent)) (type : Byte) :
    s.takeIdent p type = s := if_neg h

/-! ## An answer to a READY panel (R79, R86) -/

/-- A READY panel whose command has been acknowledged. -/
def answeredPanel (x : Panel) (d : Display) : Panel :=
  { x with shown := some d, outstanding := none, attempt := none, timer := none }

theorem takeAck_ready {c : PanelCommand} {d : Display} (ho : (s.panel p).outstanding = some c)
    (hs : (s.panel p).step = none) (hd : (s.panel p).shown = some d) :
    s.takeAck p = s.putPanel p (answeredPanel (s.panel p) (d.acknowledge c)) := by
  rw [takeAck_display ho hs, hd]
  rfl

theorem agree_shown_eq (x : Panel) (d : Display) : (x.agree d).shown = x.shown := by
  unfold Panel.agree
  split
  · split <;> rfl
  · rfl

theorem agree_line (x : Panel) (d : Display) : (x.agree d).line = x.line ∧ (x.agree d).step = x.step := by
  unfold Panel.agree
  split
  · split <;> exact ⟨rfl, rfl⟩
  · exact ⟨rfl, rfl⟩

/-- A panel that shows another display than its face wishes is sent a command. -/
theorem agree_differs {x : Panel} {d e : Display} (hl : x.line = .ready) (ho : x.outstanding = none)
    (hs : x.shown = some e) (hne : e ≠ d) : ∃ c, x.agree d = x.send c 1 := by
  cases hc : firstDifference e d with
  | none => exact absurd (firstDifference_none hc) hne
  | some c => exact ⟨c, Panel.agree_sends hl ho hs hc⟩

/-- The key that an answered panel holds waits for the exchange that its display still needs. -/
theorem takeKey_sent (hp : p < 8) {x : Panel} {c : PanelCommand} :
    (s.putPanel p (x.send c 1)).takeKey p = s.putPanel p (x.send c 1) := by
  refine takeKey_still fun _ _ ht => ?_
  have ho := ht.2.1
  rw [putPanel_panel_self _ hp] at ho
  exact nomatch ho

theorem takeKey_empty (hp : p < 8) {x : Panel} (hh : x.holder = none) :
    (s.putPanel p x).takeKey p = s.putPanel p x := by
  refine takeKey_still fun e he _ => ?_
  rw [putPanel_panel_self _ hp, hh] at he
  exact nomatch he

/-- An answered panel that agrees gives the key it holds. -/
theorem takeKey_answered (hp : p < 8) {x : Panel} {e : KeyEvent} {d : Display} (hl : x.line = .ready)
    (hh : x.holder = some e) (hd : d = (s.face p).desired) : (s.putPanel p (answeredPanel x d)).takesKeys p ∧
      ((s.putPanel p (answeredPanel x d)).panel p).holder = some e := by
  rw [takesKeys, putPanel_panel_self _ hp]
  exact ⟨⟨hl, rfl, congrArg some hd⟩, hh⟩

theorem emptyHolder_putPanel (hp : p < 8) (y : Panel) :
    (s.putPanel p y).emptyHolder p = s.putPanel p { y with holder := none, inhibit := false } := by
  rw [emptyHolder, putPanel_panel_self _ hp, putPanel_putPanel]

/-! ## The ACK of REPEAT (R80) -/

theorem enterReady_panel (hp : p < 8) :
    (s.enterReady p).panel p = { (s.panel p).quiet with line := .ready, step := none } := by
  rw [enterReady, panel, list_panels, panelEntered_panels]
  exact putPanel_panel_self s hp _

theorem enterReady_listed (s : Store) (p : Nat) : .status (4 + p) ∈ (s.enterReady p).writeBack := mem_list_writeBack _ _

theorem enterReady_frame (s : Store) (p : Nat) : (s.enterReady p).passDue = s.passDue ∧
    (s.enterReady p).articles = s.articles ∧ (s.enterReady p).orders = s.orders := by
  rw [enterReady, list_passDue, list_articles, list_orders]
  exact panelEntered_frame (s.putPanel p _) p

theorem enterReady_resumed (hp : p < 8) (h : (s.face p).state = .halted) :
    ((s.enterReady p).face p).state ≠ .halted ∧ (s.enterReady p).Raised (.face p) Flag.faceResumed := by
  obtain ⟨hs, hr⟩ := panelEntered_resumed (s := s.putPanel p { (s.panel p).quiet with line := .ready, step := none }) hp h
  rw [enterReady, face, list_faces]
  exact ⟨hs, hr.of_notices (by simp)⟩

/-- A panel that enters READY without a key event held: only its display is compared besides. -/
theorem enterReady_after (hp : p < 8) (hd : s.passDue = false) (hh : (s.panel p).holder = none) :
    ∃ ps, (s.enterReady p).afterMessage p = { s.enterReady p with panels := ps } ∧
      (((s.enterReady p).afterMessage p).panel p).line = .ready ∧
      (((s.enterReady p).afterMessage p).panel p).step = none := by
  have hpanel := eventEnd_panel (s.enterReady p) hp
  rw [enterReady_panel hp] at hpanel
  have hstill : (s.enterReady p).afterMessage p = (s.enterReady p).eventEnd := by
    refine takeKey_still fun e he _ => ?_
    rw [hpanel, Panel.agree_holder] at he
    exact nomatch hh.symm.trans he
  obtain ⟨ps, hps⟩ := eventEnd_panels_only ((enterReady_frame s p).1.trans hd)
  rw [hstill, hpanel, (agree_line _ _).1, (agree_line _ _).2]
  exact ⟨ps, hps, rfl, rfl⟩

end Store

/-- The rows of a complete IDENT. -/
theorem exec_identified {s : State} {p : Fin 8} {type : Byte} {i : Instr} (ht : type.toNat ≤ 0xBF)
    (hl : (s.store.panel p).line ≠ .offline)
    (h : i = .ident p .whole type ∧ (s.store.panel p).received = .none ∨
      i = .ident p .closing type ∧ (s.store.panel p).received = .ident) :
    ∃ bs, exec i s = .next (s.floorEvent fun st => st.panelMessage p.val bs) ∧
      bs.foldl (Store.panelByte p.val) s.store = (s.store.setReceived p.val .none).takeIdent p.val type := by
  have hp : p.val < 8 := p.isLt
  rcases h with ⟨rfl, hr⟩ | ⟨rfl, hr⟩
  · refine ⟨_, exec_ident p .whole type s, ?_⟩
    have hident := Store.setReceived_panel (s := s.store) hp .ident
    rw [partBytes, List.foldl_cons, List.foldl_cons, List.foldl_nil, Store.panelByte_fresh hl hr, Store.freshByte_ident,
      Store.panelByte_ident (by rw [hident]; exact hl) (by rw [hident]) ht, Store.setReceived_setReceived hp]
  · refine ⟨_, exec_ident p .closing type s, ?_⟩
    rw [partBytes, List.foldl_cons, List.foldl_nil, Store.panelByte_ident hl hr ht]

/-- The rows of a failed exchange (R79). -/
theorem exec_failure {s : State} {p : Fin 8} {i : Instr}
    (h : i = Instr.nak p ∧ (s.store.panel p).received = .none ∧ (s.store.panel p).line ≠ .offline ∨
      i = .answerTimer p ∧ (s.store.panel p).timer ≠ none) :
    ∃ f : Store → Store, exec i s = .next (s.floorEvent f) ∧
      f s.store = (s.store.failExchange p.val).afterMessage p.val := by
  rcases h with ⟨rfl, hr, hl⟩ | ⟨rfl, ht⟩
  · exact ⟨_, exec_nak p s, Store.panelMessage_nak hl hr⟩
  · refine ⟨_, exec_answerTimer p s, ?_⟩
    have hsome : (s.store.panel p.val).timer.isSome = true := Option.isSome_iff_ne_none.mpr ht
    simp only [hsome, if_true, Store.expireAnswer]
    rfl

/-- The rows that begin with an answer byte. -/
theorem exec_answering {p : Fin 8} {type : Byte} {i : Instr}
    (h : i ∈ [Instr.ack p, .nak p, .ident p .opening type, .ident p .whole type]) :
    ∃ b bs, (∀ s, exec i s = .next (s.floorEvent fun st => st.panelMessage p.val (b :: bs))) ∧ 0xBF < b.toNat ∧
      Code.keyOf b = none := by
  simp only [List.mem_cons, List.not_mem_nil, or_false] at h
  rcases h with rfl | rfl | rfl | rfl
  · exact ⟨_, _, exec_ack p, by decide, rfl⟩
  · exact ⟨_, _, exec_nak p, by decide, rfl⟩
  · exact ⟨_, _, exec_ident p .opening type, by decide, rfl⟩
  · exact ⟨_, _, exec_ident p .whole type, by decide, rfl⟩

/-- A panel whose exchange has failed for good has gone OFFLINE. -/
theorem State.goesOffline_of {s t : State} {p : Nat} {x : Panel} {w : Bool} {u : State} (hp : p < 8)
    (ha : s.store.Attended) (hl : x.line = (s.store.panel p).line)
    (hx : x.offline = { s.store.panel p with
      line := .offline, step := none, outstanding := none, attempt := none, timer := none, received := .none
      shown := none, holder := none, inhibit := false, wrongType := w })
    (hjobs : t.JobsAre (((s.store.putPanel p x).goOffline p).afterMessage p))
    (hsettles : ({ u with store := ((s.store.putPanel p x).goOffline p).afterMessage p } : State).Settles t) :
    s.GoesOffline p w t := by
  have hpanel := Store.putPanel_panel_self s.store hp x
  rw [Store.goOffline_after hp] at hjobs hsettles
  have hoff : t.store.panel p = x.offline := by
    rw [hjobs.panel, Store.eventEnd_panel_not_ready hp (by rw [Store.goOffline_panel hp]; exact nofun),
      Store.goOffline_panel hp, hpanel]
  refine ⟨hoff.trans hx, fun hr => ?_, fun hr => ?_, hsettles.renewed_of (Store.eventEnd_keeps_listed _
    (Store.goOffline_listed _ _))⟩
  · rw [hjobs.face]
    exact Store.eventEnd_halted (Store.goOffline_halted hp (by rw [hpanel, hl]; exact hr))
  · have hready : x.line ≠ .ready := by rw [hl]; exact hr
    have halike := Store.goOffline_alike (s := s.store.putPanel p x) (p := p) (ha.putPanel fun h => absurd h hready)
      (by rw [hpanel]; exact hready)
    rw [hpanel, Store.putPanel_putPanel] at halike
    rw [hoff]
    exact hjobs.alike halike

end Sys2Proof.Machine

end

section

open Sys2Proof Sys2Proof.Machine

/-- Settles O54: each answer comes to one operation on the panel, and what follows is the comparison of that panel's
display, and the key it holds where it agrees. -/
theorem answersDriveThePanelLine : Obligations.AnswersDriveThePanelLine := by
  intro s p hworking hatt hkeys x becomes
  have hp : p.val < 8 := p.isLt
  have hput {c : Instr} {f : Store → Store} {y : Panel} (hrow : exec c s = .next (s.floorEvent f))
      (hx : f s.store = s.store.putPanel p.val y) : s.Ends c (becomes y) :=
    (State.floorEvent_ends hrow hworking _ hx).imp fun t ⟨hjobs, _⟩ => hjobs
  have hoffline {c : Instr} {bs : List Byte} (hrow : exec c s = .next (s.floorEvent fun st =>
      st.panelMessage p.val bs)) (hl : x.line = .offline) : s.Ignores c :=
    State.floorEvent_ignores hrow hworking (Store.panelMessage_offline hp hatt hkeys hl)
  have hignores {c : Instr} {b : Byte} (hrow : exec c s = .next (s.floorEvent fun st =>
      st.panelMessage p.val [b])) (hr : x.received = .none) (hb : s.store.freshByte p.val b = s.store) :
      s.Ignores c := by
    by_cases hl : x.line = .offline
    · exact hoffline hrow hl
    · refine State.floorEvent_ignores hrow hworking (Store.panelMessage_still hp hatt hkeys ?_)
      rw [List.foldl_cons, List.foldl_nil, Store.panelByte_fresh hl hr, hb]
  refine ⟨fun hr ho => ⟨?_, ?_⟩, fun c hr hl ho => ⟨fun hs => ?_, fun hs => ?_, fun hs hh => ?_⟩,
    fun c d hr hl hs ho hd hh => ?_, fun c d k make hr hl hs ho hd hh => ?_, fun c ho i hi => ⟨fun ha => ?_, fun ha => ?_⟩,
    fun type i ht hl hi => ⟨fun hid hs htype => ?_, fun hid hs htype => ?_, fun hother => ?_⟩, fun type => ⟨fun hl hr => ?_,
      fun i hi => ⟨fun hl => ?_, fun hl => ?_⟩⟩⟩
  · exact hignores (exec_ack p s) hr (Store.takeAck_quiet ho)
  · exact hignores (exec_nak p s) hr (Store.failExchange_quiet ho)
  · have hon : x.line ≠ .offline := by rw [hl]; exact nofun
    refine hput (exec_ack p s) ?_
    rw [Store.panelMessage_ack hon hr, Store.takeAck_identify ho hs]
    exact Store.afterMessage_put hp hatt fun hready => nomatch hl.symm.trans hready
  · exact hignores (exec_ack p s) hr (Store.takeAck_awaiting ho hs)
  · have hon : x.line ≠ .offline := by rw [hl]; exact nofun
    have hx : s.store.panelMessage p.val [Code.byteAck] = (s.store.enterReady p.val).afterMessage p.val := by
      rw [Store.panelMessage_ack hon hr, Store.takeAck_repeat ho hs]
    obtain ⟨ps, hps, hline, hstep⟩ := Store.enterReady_after hp hatt.pass hh
    obtain ⟨-, harticles, horders⟩ := Store.enterReady_frame s.store p.val
    refine (State.floorEvent_ends (exec_ack p s) hworking _ hx).imp fun t ⟨hjobs, hsettles⟩ => ?_
    refine ⟨by rw [hjobs.panel]; exact hline, by rw [hjobs.panel]; exact hstep, ?_, fun hf => ?_, ?_, ?_⟩
    · exact hsettles.renewed_of (by rw [hps]; exact Store.enterReady_listed _ _)
    · obtain ⟨hstate, hraised⟩ := Store.enterReady_resumed hp hf
      refine ⟨?_, hsettles.told_of (by rw [hps]; exact hraised)⟩
      rw [hjobs.face, hps]
      exact hstate
    · rw [hjobs.articles, hps]
      exact harticles
    · rw [hjobs.orders, hps]
      exact horders
  · have hon : x.line ≠ .offline := by rw [hl]; exact nofun
    have hx : s.store.panelMessage p.val [Code.byteAck] = s.store.putPanel p.val
        ((Store.answeredPanel x (d.acknowledge c)).agree (s.store.face p.val).desired) := by
      rw [Store.panelMessage_ack hon hr, Store.takeAck_ready ho hs hd, Store.afterMessage_compared hp hatt]
      exact Store.takeKey_empty hp ((Panel.agree_holder _ _).trans hh)
    refine (State.floorEvent_ends (exec_ack p s) hworking _ hx).imp fun t ⟨hjobs, _⟩ => ?_
    have hpanel : t.store.panel p.val = (Store.answeredPanel x (d.acknowledge c)).agree (s.store.face p.val).desired :=
      (hjobs.panel _).trans (Store.putPanel_panel_self _ hp _)
    have hshown : (t.store.panel p.val).shown = some (d.acknowledge c) := by
      rw [hpanel, Store.agree_shown_eq]
      rfl
    refine ⟨hshown.trans (by cases c <;> rfl), fun heq => ?_, fun hne => ?_, by rw [hpanel]; exact hjobs⟩
    · rw [hshown] at heq ⊢
      rw [hpanel]
      exact Panel.agree_same fun _ _ => .inr heq
    · obtain ⟨c', hc'⟩ := Store.agree_differs (x := Store.answeredPanel x (d.acknowledge c)) hl rfl rfl
        fun he => hne (hshown.trans (congrArg some he))
      rw [hpanel, hc']
      exact ⟨nofun, rfl, rfl⟩
  · intro shows answered acts
    have hshows : shows = d.acknowledge c := by cases c <;> rfl
    have hon : x.line ≠ .offline := by rw [hl]; exact nofun
    have hcompared : s.store.panelMessage p.val [Code.byteAck] =
        (s.store.putPanel p.val (answered.agree (s.store.face p.val).desired)).takeKey p.val := by
      rw [Store.panelMessage_ack hon hr, Store.takeAck_ready ho hs hd, Store.afterMessage_compared hp hatt, ← hshows]
      rfl
    refine ⟨fun heq => ?_, fun hne => ?_⟩
    · have hsame : answered.agree (s.store.face p.val).desired = answered :=
        Panel.agree_same fun _ _ => .inr (congrArg some heq)
      rw [hsame] at hcompared
      have htaken : (s.store.putPanel p.val answered).takesKeys p.val ∧
          ((s.store.putPanel p.val answered).panel p.val).holder = some ⟨k, make⟩ :=
        Store.takeKey_answered hp hl hh heq
      obtain ⟨htakes, hholder⟩ := htaken
      refine ⟨fun hf => ?_, ?_⟩
      · refine hput (exec_ack p s) (hcompared.trans ?_)
        rw [Store.takeKey, Store.takeKeyIf_takes htakes hholder rfl, Store.emptyHolder_putPanel hp,
          Store.actKey_not_presenting (s := s.store.putPanel p.val _) hf]
        exact Store.eventEnd_still (hatt.putPanel fun _ _ => .inr (congrArg some heq))
      · have hacts : ∃ kind : KeyEvent → Bool, (∀ u, exec acts u = .next (u.floorEvent fun st =>
            st.takeKeyIf p.val kind)) ∧ kind ⟨k, make⟩ = true := by
          cases k <;> cases make <;> exact ⟨_, fun _ => rfl, rfl⟩
        obtain ⟨kind, hrow, hkind⟩ := hacts
        rw [exec_ack, hrow]
        refine congrArg _ (State.floorEvent_congr hworking (hcompared.trans ?_))
        rw [Store.takeKey, Store.takeKeyIf_takes htakes hholder rfl, Store.takeKeyIf_takes htakes hholder hkind]
    · obtain ⟨c', hc'⟩ := Store.agree_differs (x := answered) hl rfl rfl hne
      rw [hc', Store.takeKey_sent hp] at hcompared
      refine (State.floorEvent_ends (exec_ack p s) hworking _ hcompared).imp fun t ⟨hjobs, _⟩ => ?_
      have hpanel : t.store.panel p.val = answered.send c' 1 :=
        (hjobs.panel _).trans (Store.putPanel_panel_self _ hp _)
      rw [hpanel]
      exact ⟨nofun, rfl, hjobs⟩
  · obtain ⟨f, hrow, hf⟩ := exec_failure hi
    refine hput hrow (hf.trans ?_)
    have hsame : Store.retried x c = { x with
        attempt := some 2, timer := some 50, sentBytes := Code.panelBytes c
        step := if x.step = some .awaitIdent then some .awaitAck else x.step } := by
      rw [Store.retried, Panel.send, ← ho]
      rfl
    rw [Store.failExchange_first ho ha, ← hsame]
    exact Store.afterMessage_put hp hatt fun _ hn => nomatch hn
  · obtain ⟨f, hrow, hf⟩ := exec_failure hi
    have hx : f s.store = ((s.store.putPanel p.val x).goOffline p.val).afterMessage p.val := by
      rw [hf, Store.failExchange_second ho ha, Store.putPanel_panel_same]
    exact (State.floorEvent_ends hrow hworking _ hx).imp fun t ⟨hjobs, hsettles⟩ =>
      State.goesOffline_of (x := x) (w := x.wrongType) hp hatt rfl rfl hjobs hsettles
  · obtain ⟨bs, hrow, hbytes⟩ := exec_identified ht hl hi
    have hpanel := Store.setReceived_panel (s := s.store) hp .none
    subst htype
    refine hput hrow ?_
    rw [Store.panelMessage_eq, hbytes, Store.takeIdent_known (by rw [hpanel]; exact hid) (by rw [hpanel]; exact hs),
      hpanel, Store.setReceived, Store.putPanel_putPanel]
    exact Store.afterMessage_put hp hatt fun hready => nomatch hid.symm.trans hready
  · obtain ⟨bs, hrow, hbytes⟩ := exec_identified ht hl hi
    have hpanel := Store.setReceived_panel (s := s.store) hp .none
    have hx : s.store.panelMessage p.val bs = ((s.store.putPanel p.val { x with
        received := .none, wrongType := true }).goOffline p.val).afterMessage p.val := by
      rw [Store.panelMessage_eq, hbytes, Store.takeIdent_wrong (by rw [hpanel]; exact hid) (by rw [hpanel]; exact hs)
        htype, hpanel, Store.setReceived, Store.putPanel_putPanel]
    exact (State.floorEvent_ends hrow hworking _ hx).imp fun t ⟨hjobs, hsettles⟩ =>
      State.goesOffline_of (x := { x with received := .none, wrongType := true }) (w := true) hp hatt rfl rfl hjobs
        hsettles
  · obtain ⟨bs, hrow, hbytes⟩ := exec_identified ht hl hi
    have hpanel := Store.setReceived_panel (s := s.store) hp .none
    have hnot : ¬ (((s.store.setReceived p.val .none).panel p.val).line = .identifying ∧
        ((s.store.setReceived p.val .none).panel p.val).step = some .awaitIdent) := by
      rw [hpanel]
      rintro ⟨hid, hs⟩
      exact hother.elim (fun hready => nomatch hid.symm.trans hready) fun hne => hne hs
    have hx := Store.panelMessage_put (y := { x with received := .none }) hp hatt hkeys
      (hbytes.trans (Store.takeIdent_other hnot type)) ⟨rfl, rfl, rfl, rfl⟩
    exact (State.floorEvent_ends hrow hworking _ hx).imp fun t ⟨hjobs, hsettles⟩ =>
      ⟨hjobs, hsettles.addsNothing rfl rfl⟩
  · refine hput (exec_ident p .opening type s) (Store.panelMessage_put hp hatt hkeys ?_ ⟨rfl, rfl, rfl, rfl⟩)
    rw [partBytes, List.foldl_cons, List.foldl_nil, Store.panelByte_fresh hl hr, Store.freshByte_ident]
    rfl
  · obtain ⟨b, bs, hrow, -, -⟩ := exec_answering hi
    exact hoffline (hrow s) hl
  · obtain ⟨b, bs, hrow, hb, hk⟩ := exec_answering hi
    rw [hrow, hrow]
    exact congrArg _ (State.floorEvent_congr hworking (Store.panelMessage_drops hp hl hb hk bs))

end

/-! # ORDER_CANCEL (R111 to R115): what the releases of a cancellation leave of its order -/

section

namespace Sys2Proof.Machine

open Sys2Proof

/-- What the releases of a cancellation touch. -/
@[simp] def Part.cancelling : Part → Prop
  | .order _ => True
  | .leaving => True
  | .stock _ => True
  | p => withdrawing p

theorem Part.cancelling_of_withdrawing : ∀ p, withdrawing p → cancelling p := by
  intro p h
  cases p <;> simp_all

theorem Part.cancelling_of_motion : ∀ p, motion p → cancelling p := by
  intro p h
  cases p <;> simp_all

namespace Store

variable {s t : Store}

/-! ## One reservation released by its order's cancellation -/

/-- A reservation taken off the list and off its slot. -/
def untaken (s : Store) (num : Nat) (r : Reservation) : Store :=
  (s.dropReservation num).changeSlot r.slot (releaseSlot r)

/-- What follows the hand-back of a released reservation. -/
def withdrawn (s : Store) (r : Reservation) : Store := (s.withdraw r).1.drainedCheck (slotRecord r.slot)

theorem withdrawn_moves (s : Store) (r : Reservation) : Moves Part.withdrawing s (s.withdrawn r) :=
  (withdraw_moves s r).trans ((drainedCheck_moves_any _ _).mono Part.withdrawing_of_motion)

theorem releaseOne_some {x : Store × List Nat} {num : Nat} {r : Reservation} (h : x.1.reservation num = some r)
    (back : Store → Reservation → Store) :
    (releaseOne back x num).1 = (back (x.1.untaken num r) r).withdrawn r := by
  unfold releaseOne
  rw [h]
  rfl

theorem releaseOne_none {x : Store × List Nat} {num : Nat} (h : x.1.reservation num = none)
    (back : Store → Reservation → Store) : releaseOne back x num = x := by
  unfold releaseOne
  rw [h]

theorem handBackCancelled_pick {r : Reservation} {k l : Nat} (h : r.claim = .pick k l) (s : Store) :
    s.handBackCancelled r = s.lineLowered k l r.quantity := by
  unfold handBackCancelled
  rw [h]

theorem lineLowered_moves_cancelling (s : Store) (k l q : Nat) : Moves Part.cancelling s (s.lineLowered k l q) :=
  (putLine_moves (by simp) s l _).trans (list_moves (by simp) _ _)

theorem handBackCancelled_moves_cancelling (s : Store) (r : Reservation) :
    Moves Part.cancelling s (s.handBackCancelled r) := by
  unfold handBackCancelled
  split
  · exact lineLowered_moves_cancelling _ _ _ _
  · exact .refl _

theorem releaseOne_cancelling (x : Store × List Nat) (num : Nat) :
    Moves Part.cancelling x.1 (releaseOne handBackCancelled x num).1 := by
  cases h : x.1.reservation num with
  | none => rw [releaseOne_none h]; exact .refl _
  | some r =>
    rw [releaseOne_some h]
    exact ((taken_moves (by simp) (fun _ => by simp) (by simp) _ _ _).trans
      (handBackCancelled_moves_cancelling _ _)).trans ((withdrawn_moves _ _).mono Part.cancelling_of_withdrawing)

/-- The reservations released one after the other. -/
def releaseAll (back : Store → Reservation → Store) (x : Store × List Nat) (nums : List Nat) : Store × List Nat :=
  nums.foldl (releaseOne back) x

theorem releaseAll_cancelling (nums : List Nat) (x : Store × List Nat) :
    Moves Part.cancelling x.1 (releaseAll handBackCancelled x nums).1 := by
  induction nums generalizing x with
  | nil => exact .refl _
  | cons n ns ih => exact (releaseOne_cancelling x n).trans (ih _)

/-- What follows the releases of one claim. -/
theorem releaseMany_after (back : Store → Reservation → Store) (s : Store) (nums : List Nat) :
    Moves (fun p => p = .pass ∨ Part.motion p) (releaseAll back (s, []) nums).1 (releaseMany back s nums) := by
  unfold releaseMany
  split
  · next h => rw [h]; exact .refl _
  · exact (triggerPass_moves (.inl rfl) _).trans
      (Moves.foldl _ (fun s n => (afterRemoval_moves_any s n).mono fun p h => .inr h) _ _)

theorem releaseMany_cancelling (s : Store) (nums : List Nat) :
    Moves Part.cancelling s (releaseMany handBackCancelled s nums) :=
  (releaseAll_cancelling nums (s, [])).trans ((releaseMany_after _ s nums).mono fun p h => by
    rcases h with rfl | h
    · simp
    · exact Part.cancelling_of_motion p h)

/-! ## Which reservations are left -/

/-- The reservations for order `k` are PRESENTED, but those with numbers in `ns`. -/
def PresentedBut (s : Store) (k : Nat) (ns : List Nat) : Prop :=
  s.Distinct ∧ ∀ r ∈ s.reservations, ∀ l, r.claim = .pick k l → (∃ f, r.state = .presented f) ∨ r.number ∈ ns

theorem number_inj (h : s.Distinct) {r r' : Reservation} (hr : r ∈ s.reservations) (hr' : r' ∈ s.reservations)
    (e : r.number = r'.number) : r = r' := eq_of_nodup_map h hr hr' e

theorem mem_of_reservation {n : Nat} {r : Reservation} (h : s.reservation n = some r) :
    r ∈ s.reservations ∧ r.number = n := by
  exact ⟨List.mem_of_find?_eq_some h, by simpa using List.find?_some h⟩

theorem reservation_of_mem (h : s.Distinct) {r : Reservation} (hr : r ∈ s.reservations) :
    s.reservation r.number = some r := by
  cases hf : s.reservation r.number with
  | none => exact absurd (beq_self_eq_true r.number) (List.find?_eq_none.mp hf r hr)
  | some r' =>
    obtain ⟨hmem, hnum⟩ := mem_of_reservation hf
    rw [number_inj h hmem hr hnum]

theorem mem_setReservationState {n : Nat} {st : ReservationState} {r : Reservation}
    (h : r ∈ (s.setReservationState n st).reservations) :
    ∃ r₀ ∈ s.reservations, r = if r₀.number = n then { r₀ with state := st } else r₀ := by
  obtain ⟨r₀, hr₀, rfl⟩ := List.mem_map.mp h
  exact ⟨r₀, hr₀, by simp⟩

theorem PresentedBut.moves {K : Part → Prop} {k : Nat} {ns : List Nat} (h : s.PresentedBut k ns) (hm : Moves K s t)
    (hK : ¬ K .requeuing) (he : ∀ l q, ¬ K (.enter (.pick k l) q)) : t.PresentedBut k ns := by
  refine hm.keeps (P := fun u => u.PresentedBut k ns) (fun p u v hp m hu => ⟨(Moves.one hp m).distinct hu.1, ?_⟩) h
  obtain ⟨hd, hu⟩ := hu
  have hstate {n : Nat} {st : ReservationState} (hst : ∀ r₀ ∈ u.reservations, r₀.number = n →
      (∃ f, st = .presented f) ∨ ¬ ∃ f, r₀.state = .presented f) : ∀ r ∈ (u.setReservationState n st).reservations,
      ∀ l, r.claim = .pick k l → (∃ f, r.state = .presented f) ∨ r.number ∈ ns := by
    intro r hr l hc
    obtain ⟨r₀, hr₀, rfl⟩ := mem_setReservationState hr
    by_cases hn : r₀.number = n
    · rw [if_pos hn] at hc ⊢
      refine (hst r₀ hr₀ hn).imp id fun hnot => ?_
      exact (hu r₀ hr₀ l hc).resolve_left hnot
    · rw [if_neg hn] at hc ⊢
      exact hu r₀ hr₀ l hc
  have hsame (hv : v.reservations = u.reservations) :
      ∀ r ∈ v.reservations, ∀ l, r.claim = .pick k l → (∃ f, r.state = .presented f) ∨ r.number ∈ ns := hv ▸ hu
  cases m with
  | present _ n f => exact hstate fun _ _ _ => .inl ⟨f, rfl⟩
  | queue _ n f r h hr =>
    refine hstate fun r₀ hr₀ hn => .inr ?_
    have hlook := reservation_of_mem hd hr₀
    rw [hn, h] at hlook
    cases hlook
    rw [hr]
    exact nofun
  | requeue => exact absurd hp hK
  | enter _ r hr hn =>
    intro r' hr' l hc
    rcases List.mem_append.mp hr' with hr' | hr'
    · exact hu r' hr' l hc
    · rw [List.mem_singleton.mp hr'] at hc
      exact absurd (hc ▸ hp) (he l _)
  | leave _ n => exact fun r hr => hu r (List.mem_filter.mp hr).1
  | quantity _ n j =>
    intro r hr l hc
    obtain ⟨r₀, hr₀, rfl⟩ := List.mem_map.mp hr
    have hsame : ((if r₀.number == n then { r₀ with quantity := r₀.quantity + j } else r₀).claim = r₀.claim) ∧
        ((if r₀.number == n then { r₀ with quantity := r₀.quantity + j } else r₀).state = r₀.state) ∧
        ((if r₀.number == n then { r₀ with quantity := r₀.quantity + j } else r₀).number = r₀.number) := by
      split <;> exact ⟨rfl, rfl, rfl⟩
    obtain ⟨hclaim, hstate, hnum⟩ := hsame
    rw [hclaim] at hc
    rw [hstate, hnum]
    exact hu r₀ hr₀ l hc
  | _ => exact hsame (by simp)

/-- A reservation released is no more on the list. -/
theorem PresentedBut.released {k n : Nat} {ns : List Nat} (h : s.PresentedBut k (n :: ns)) :
    (s.dropReservation n).PresentedBut k ns := by
  refine ⟨(Moves.one (K := fun _ => True) trivial (.leave s n)).distinct h.1, fun r hr l hc => ?_⟩
  obtain ⟨hmem, hne⟩ := List.mem_filter.mp hr
  refine (h.2 r hmem l hc).imp id fun hn => (List.mem_cons.mp hn).resolve_left ?_
  simpa using hne

theorem PresentedBut.skipped {k n : Nat} {ns : List Nat} (h : s.PresentedBut k (n :: ns))
    (hn : s.reservation n = none) : s.PresentedBut k ns := by
  refine ⟨h.1, fun r hr l hc => (h.2 r hr l hc).imp id fun hm => (List.mem_cons.mp hm).resolve_left fun e => ?_⟩
  have hlook := reservation_of_mem h.1 hr
  rw [e, hn] at hlook
  exact nomatch hlook

theorem PresentedBut.all {k : Nat} (ns : List Nat) {x : Store × List Nat} (h : x.1.PresentedBut k ns) :
    (releaseAll handBackCancelled x ns).1.PresentedBut k [] := by
  induction ns generalizing x with
  | nil => exact h
  | cons n ns ih =>
    refine ih (x := releaseOne handBackCancelled x n) ?_
    cases hr : x.1.reservation n with
    | none =>
      rw [releaseOne_none hr]
      exact h.skipped hr
    | some r =>
      rw [releaseOne_some hr]
      have hdrop := h.released
      have hslot : Moves Part.cancelling (x.1.dropReservation n) (x.1.untaken n r) :=
        changeSlot_moves (releaseSlot_count r) (by simp) (by simp) _
      exact hdrop.moves ((hslot.trans (handBackCancelled_moves_cancelling _ _)).trans
        ((withdrawn_moves _ _).mono Part.cancelling_of_withdrawing)) (by simp) (by simp)

/-- What is left of an order's reservations once its cancellation has released all that are not PRESENTED. -/
theorem releaseMany_presented {k : Nat} {ns : List Nat} (h : s.PresentedBut k ns) :
    (releaseMany handBackCancelled s ns).PresentedBut k [] :=
  (PresentedBut.all ns (x := (s, [])) h).moves (releaseMany_after _ s ns) (by simp) (by simp)

end Store

namespace Moves

variable {K : Part → Prop} {s t : Store}

/-- The reservations but their states, where none leaves, enters or grows. -/
theorem claimed (h : Moves K s t) (hl : ¬ K .leaving) (hq : ¬ K .quantity) (he : ∀ c q, ¬ K (.enter c q)) :
    t.reservations.map Store.claimed = s.reservations.map Store.claimed :=
  h.same (g := fun s => s.reservations.map Store.claimed) fun _ _ _ hp m => by
    cases m <;> first
      | exact absurd hp hl | exact absurd hp hq | exact absurd hp (he _ _)
      | exact Store.claimed_setReservationState _ _ _ | simp

end Moves

/-! ## The lines of the order -/

/-- An order whose line `l` has `g l` less reserved for it. -/
structure Order.LoweredBy (g : Nat → Nat) (o o' : Order) : Prop where
  rest : o' = { o with lines := o'.lines }
  lines : ∀ l, o'.lines[l]? = o.lines[l]?.map fun y : Line => { y with reservedFor := y.reservedFor - g l }

namespace Order.LoweredBy

variable {g h : Nat → Nat} {o o' o'' : Order}

theorem refl (o : Order) : o.LoweredBy (fun _ => 0) o := ⟨rfl, fun l => by simp⟩

theorem trans (a : o.LoweredBy g o') (b : o'.LoweredBy h o'') : o.LoweredBy (fun l => g l + h l) o'' where
  rest := by rw [b.rest, a.rest]
  lines l := by
    rw [b.lines, a.lines, Option.map_map]
    congr 1
    funext y
    simp [Nat.sub_sub]

theorem congr (a : o.LoweredBy g o') (hg : ∀ l, h l = g l) : o.LoweredBy h o' := by
  rwa [show h = g from funext hg]

theorem state (a : o.LoweredBy g o') : o'.state = o.state := by rw [a.rest]

theorem lane (a : o.LoweredBy g o') : o'.lane = o.lane := by rw [a.rest]

/-- Nothing is reserved for the lines any more. -/
theorem cleared_iff (a : o.LoweredBy g o') : (∀ y ∈ o'.lines, y.reservedFor = 0) ↔
    ∀ l y, o.lines[l]? = some y → y.reservedFor ≤ g l := by
  constructor
  · intro hz l y hy
    have hl := a.lines l
    rw [hy] at hl
    exact Nat.sub_eq_zero_iff_le.mp (hz _ (List.mem_of_getElem? hl))
  · intro hc y hy
    obtain ⟨l, hl⟩ := List.mem_iff_getElem?.mp hy
    rw [a.lines] at hl
    obtain ⟨y₀, hy₀, rfl⟩ := Option.map_eq_some_iff.mp hl
    exact Nat.sub_eq_zero_iff_le.mpr (hc l y₀ hy₀)

theorem filled (a : o.LoweredBy g o') : o'.lines.map (fun y => y.filled) = o.lines.map fun y => y.filled := by
  refine List.ext_getElem? fun l => ?_
  rw [List.getElem?_map, List.getElem?_map, a.lines, Option.map_map]
  rfl

end Order.LoweredBy

/-- An order with less reserved for a line. -/
def Order.lowered (o : Order) (l q : Nat) : Order :=
  { o with lines := o.lines.modify l fun y => { y with reservedFor := y.reservedFor - q } }

theorem Order.lowered_by (o : Order) (l q : Nat) : o.LoweredBy (fun j => if j = l then q else 0) (o.lowered l q) where
  rest := rfl
  lines j := by
    simp only [Order.lowered, List.getElem?_modify]
    by_cases e : l = j
    · subst e
      simp
    · simp [e, Ne.symm e]

/-- What a list of reservations claims for a line. -/
def claimedFor (rs : List Reservation) (k l : Nat) : Nat :=
  ((rs.filter fun r => r.claim == .pick k l).map fun r => r.quantity).sum

theorem claimedFor_cons {r : Reservation} {k l : Nat} (h : r.claim = .pick k l) (rs : List Reservation) (j : Nat) :
    claimedFor (r :: rs) k j = (if j = l then r.quantity else 0) + claimedFor rs k j := by
  unfold claimedFor
  by_cases e : j = l
  · subst e
    rw [List.filter_cons_of_pos (by simp [h]), if_pos rfl]
    simp
  · rw [List.filter_cons_of_neg (by simpa [h] using Ne.symm e), if_neg e, Nat.zero_add]

namespace Store

variable {s t : Store} {k : Nat} {o : Order}

theorem lineLowered_order (h : s.order k = some o) (l q : Nat) : (s.lineLowered k l q).order k = some (o.lowered l q) := by
  have hp : (s.putLine k l fun x => { x with reservedFor := x.reservedFor - q }) =
      s.putOrder k (some (o.lowered l q)) := by
    unfold putLine
    rw [h]
    rfl
  rw [lineLowered, hp, order, list_orders]
  exact putOrder_order_self s (order_lt h) _

theorem untaken_order (s : Store) (n k : Nat) (r : Reservation) : (s.untaken n r).order k = s.order k :=
  (taken_moves (K := fun p => p = .leaving ∨ (∃ r, p = .stock r) ∨ p = .listing) (.inl rfl)
    (fun r => .inr (.inl ⟨r, rfl⟩)) (.inr (.inr rfl)) s n r).order (by simp)

theorem dropReservation_reservation {n m : Nat} (h : m ≠ n) (s : Store) :
    (s.dropReservation n).reservation m = s.reservation m := by
  unfold reservation dropReservation
  dsimp only
  rw [List.find?_filter]
  congr 1
  funext r
  by_cases e : r.number = m
  · simp [e, h]
  · simp [e]

/-- One release, of the order that it lowers and of the reservations that are still to be released. -/
theorem releaseOne_pick {x : Store × List Nat} {n l : Nat} {r : Reservation} (hr : x.1.reservation n = some r)
    (hc : r.claim = .pick k l) (ho : x.1.order k = some o) :
    (releaseOne handBackCancelled x n).1.order k = some (o.lowered l r.quantity) ∧
      ∀ m, m ≠ n → ((releaseOne handBackCancelled x n).1.reservation m).map claimed =
        (x.1.reservation m).map claimed := by
  rw [releaseOne_some hr, handBackCancelled_pick hc]
  have hw := withdrawn_moves ((x.1.untaken n r).lineLowered k l r.quantity) r
  refine ⟨?_, fun m hm => ?_⟩
  · rw [hw.order (by simp), lineLowered_order (by rw [untaken_order]; exact ho)]
  · have hlow := (lineLowered_moves (x.1.untaken n r) k l r.quantity).claimed (by simp) (by simp) (by simp)
    have hslot : (x.1.untaken n r).reservations = (x.1.dropReservation n).reservations := updCarrier_reservations _ _ _
    have hall := (hw.claimed (by simp) (by simp) (by simp)).trans (hlow.trans (by rw [hslot]))
    rw [reservation_claimed hall, dropReservation_reservation hm]

theorem releaseAll_order (rs : List Reservation) {x : Store × List Nat} (hd : (rs.map fun r => r.number).Nodup)
    (hfind : ∀ r ∈ rs, (x.1.reservation r.number).map claimed = some (claimed r))
    (hpick : ∀ r ∈ rs, ∃ l, r.claim = .pick k l) (ho : x.1.order k = some o) :
    ∃ o', (releaseAll handBackCancelled x (rs.map fun r => r.number)).1.order k = some o' ∧
      o.LoweredBy (claimedFor rs k) o' := by
  induction rs generalizing x o with
  | nil => exact ⟨o, ho, (Order.LoweredBy.refl o).congr fun _ => rfl⟩
  | cons r rs ih =>
    obtain ⟨hne, hd⟩ := List.nodup_cons.mp hd
    obtain ⟨r', hr', hsame⟩ := Option.map_eq_some_iff.mp (hfind r (.head _))
    obtain ⟨l, hl⟩ := hpick r (.head _)
    have hc : r'.claim = .pick k l := (congrArg Reservation.claim hsame).trans hl
    have hq : r'.quantity = r.quantity := congrArg Reservation.quantity (a₁ := claimed r') (a₂ := claimed r) hsame
    obtain ⟨hord, hrest⟩ := releaseOne_pick hr' hc ho
    have hfind' : ∀ y ∈ rs, ((releaseOne handBackCancelled x r.number).1.reservation y.number).map claimed =
        some (claimed y) := fun y hy =>
      (hrest y.number fun e => hne (List.mem_map.mpr ⟨y, hy, e⟩)).trans (hfind y (.tail _ hy))
    obtain ⟨o', ho', hlow⟩ := ih (x := releaseOne handBackCancelled x r.number) hd hfind'
      (fun y hy => hpick y (.tail _ hy)) hord
    refine ⟨o', ho', ((o.lowered_by l _).trans hlow).congr fun j => ?_⟩
    rw [claimedFor_cons hl, hq]

end Store

end Sys2Proof.Machine

end

/-! # ORDER_CANCEL (R111 to R115): the end of the cancellation -/

section

namespace Sys2Proof.Machine

open Sys2Proof

namespace Store

variable {s t : Store} {k : Nat} {o : Order}

/-! ## The waiting-lines list -/

theorem mem_joinWaiting {e x : Nat × Nat} (h : x ∈ (s.joinWaiting e).waiting) : x ∈ s.waiting ∨ x = e := by
  unfold joinWaiting at h
  split at h
  · exact .inl h
  · rcases List.mem_append.mp h with h | h
    · exact .inl (List.takeWhile_subset _ h)
    · rcases List.mem_cons.mp h with rfl | h
      · exact .inr rfl
      · exact .inl (List.dropWhile_subset _ h)

theorem lineClaimed_waiting (s : Store) (o l n : Nat) (w : Option Nat) :
    (s.lineClaimed o l n w).waiting ⊆ s.waiting := by
  have hp (f : Line → Line) : (s.putLine o l f).waiting = s.waiting :=
    (putLine_moves (K := fun p => p = .order o) rfl s l f).waitings (by simp)
  simp only [lineClaimed, list_waiting]
  split
  · exact fun e he => hp _ ▸ (List.mem_filter.mp he).1
  · exact fun e he => hp _ ▸ he

theorem claimPick_waiting (s : Store) (q o l a n : Nat) : (s.claimPick q o l a n).2.waiting = s.waiting :=
  (claimPick_moves (C := fun _ => True) (K := Part.claiming fun _ => True) (.any fun _ h => h) trivial q a n).waitings
    (by simp)

theorem serveLine_waiting (o l : Nat) (w : Option Nat) (n : Nat) (s : Store) :
    (serveLine o l w n s).1.waiting ⊆ s.waiting := by
  induction n generalizing s with
  | zero => exact fun _ h => h
  | succ n ih =>
    unfold serveLine
    split
    · exact fun _ h => h
    · split
      · exact fun _ h => h
      · split
        · exact fun _ h => h
        · rename_i x _ _ _ q _
          have hc := claimPick_waiting s q o l x.article (min (s.available q) x.need)
          dsimp only
          split <;> rename_i heq <;> rw [heq] at hc
          · exact fun e he => hc ▸ lineClaimed_waiting _ _ _ _ _ (ih _ he)
          · exact fun e he => hc ▸ he
          · exact fun e he => hc ▸ he

theorem serveEntry_waiting (s : Store) (e : Nat × Nat) : (s.serveEntry e).1.waiting ⊆ s.waiting := by
  unfold serveEntry
  split
  · exact fun _ h => h
  · split
    · split
      · exact serveLine_waiting _ _ _ _ _
      · split
        · exact serveLine_waiting _ _ _ _ _
        · exact fun _ h => h
    · exact serveLine_waiting _ _ _ _ _

theorem serveEntries_waiting (es : List (Nat × Nat)) (s : Store) : (serveEntries es s).waiting ⊆ s.waiting := by
  induction es generalizing s with
  | nil => exact fun _ h => h
  | cons e es ih =>
    simp only [serveEntries]
    split
    · exact serveEntry_waiting s e
    · exact fun x hx => serveEntry_waiting s e (ih _ hx)

/-- The end of an event takes lines off the waiting-lines list, and puts none on it. -/
theorem eventEnd_waiting (s : Store) : s.eventEnd.waiting ⊆ s.waiting := by
  have ha (u : Store) : u.agreeAll.waiting = u.waiting :=
    (agreeAll_moves (K := fun p => ∃ q, p = .panel q) (fun q => ⟨q, rfl⟩) u).waitings (by simp)
  rw [eventEnd, ha, allocationPass]
  split
  · exact serveEntries_waiting s.waiting { s with passDue := false }
  · exact fun _ h => h

/-! ## What an admission pass adds to the list -/

theorem mem_foldl_joinWaiting (js : List Nat) {x : Nat × Nat}
    (h : x ∈ (js.foldl (fun s j => s.joinWaiting (k, j)) s).waiting) : x ∈ s.waiting ∨ x.1 = k := by
  induction js generalizing s with
  | nil => exact .inl h
  | cons j js ih =>
    refine (ih h).elim (fun h => (mem_joinWaiting h).imp id fun e => ?_) .inr
    rw [e]

theorem mem_admitTo_waiting {l : Nat} (h : s.order k = some o) (hl : l < 16) {x : Nat × Nat}
    (hx : x ∈ (s.admitTo k l).waiting) : x ∈ s.waiting ∨ x.1 = k := by
  have hw (u : Store) (hu : x ∈ (u.welcomed k o).waiting) : x ∈ u.waiting ∨ x.1 = k := by
    simp only [welcomed, raise_waiting, list_waiting] at hu
    exact mem_foldl_joinWaiting _ hu
  have hb : (s.bound k l o).waiting = s.waiting := by
    simp only [bound, list_waiting, putLane_waiting]
    rfl
  rcases admitTo_cases h hl with e | e
  · rw [e] at hx
    exact (hw _ hx).imp (fun h => hb ▸ h) id
  · rw [e] at hx
    refine (hw _ hx).imp (fun h => hb ▸ ?_) id
    simp only [complete, laneDone, raise_waiting, list_waiting, putLane_waiting, leaveWaiting] at h
    exact (List.mem_filter.mp h).1

theorem passOver_waiting (s : Store) (j : Nat) : (s.passOver j).waiting = s.waiting :=
  (passOver_moves_of s j).waitings (by simp)

/-- An order that is not in use is not brought to wait by an admission pass. -/
theorem admissionPass_not_waiting (h : s.order k = none) (hw : ∀ l, (k, l) ∉ s.waiting) :
    s.admissionPass.order k = none ∧ ∀ l, (k, l) ∉ s.admissionPass.waiting := by
  refine admissionPass_keeps (P := fun u => u.order k = none ∧ ∀ l, (k, l) ∉ u.waiting)
    (fun u j m o _ ho hm ⟨hn, hu⟩ => ?_) (fun u j ⟨hn, hu⟩ => ⟨passOver_order_none hn j, ?_⟩) (fun u hu => hu) ⟨h, hw⟩
  · have hne : k ≠ j := by
      rintro rfl
      rw [hn] at ho
      exact nomatch ho
    refine ⟨by rw [admitTo_order_other ho hm hne, hn], fun l hl => ?_⟩
    exact (mem_admitTo_waiting ho hm hl).elim (hu l) hne
  · rw [passOver_waiting]
    exact hu

theorem admitTo_admission {l : Nat} (h : s.order k = some o) (hl : l < 16) :
    (s.admitTo k l).admission = s.admission.filter (· != k) := by
  have hw (u : Store) : (u.welcomed k o).admission = u.admission := (welcomed_moves u k o).admissions (by simp)
  have hb : (s.bound k l o).admission = s.admission.filter (· != k) := by
    simp only [bound, list_admission, putLane_admission]
  rcases admitTo_cases h hl with e | e
  · rw [e, hw, hb]
  · rw [e, hw, ← hb]
    simp only [complete, laneDone, raise_admission, list_admission, putLane_admission, leaveWaiting]
    rfl

/-- An admission pass puts no order on the admission list. -/
theorem admissionPass_admission (s : Store) : s.admissionPass.admission ⊆ s.admission := by
  refine admissionPass_keeps (P := fun u => u.admission ⊆ s.admission) (fun u j m o _ ho hm hu => ?_)
    (fun u j hu => ?_) (fun u hu => hu) fun _ h => h
  · rw [admitTo_admission ho hm]
    exact fun x hx => hu (List.mem_filter.mp hx).1
  · rw [(passOver_moves_of u j).admissions (by simp)]
    exact hu

/-! ## The end of a cancellation (R114) -/

theorem cancellationEnd_waits (h : s.order k = some o) (hn : ¬ ∀ y ∈ o.lines, y.reservedFor = 0) :
    s.cancellationEnd k = s := by
  have hall : ¬ o.lines.all (fun y => y.reservedFor == 0) = true := fun ha => hn (by simpa using ha)
  unfold cancellationEnd
  rw [h]
  exact if_neg fun hc => hall hc.2

/-- The lane of an abandoned order (R145). -/
def laneGone (s : Store) (lane : Option Nat) : Store :=
  match lane with
  | some l => s.laneAbandoned l
  | none => s

/-- The lane of an order that is freed (R145). -/
def laneGiven (s : Store) (lane : Option Nat) : Store :=
  match lane with
  | some l => (s.freeLane l true).list (.lane l)
  | none => s

/-- The end of a cancellation that leaves tyres filled. -/
def abandoned (s : Store) (k : Nat) (o : Order) : Store :=
  (((s.putOrder k (some { o with state := .abandoned })).laneGone o.lane).raise (.order k) Flag.orderAbandoned).list
    (.order k)

/-- The end of a cancellation that leaves none. -/
def givenUp (s : Store) (k : Nat) (o : Order) : Store := ((s.laneGiven o.lane).freeOrder k).admissionPass

theorem cancellationEnd_cleared (h : s.order k = some o) (hs : o.state = .cancelling)
    (hz : ∀ y ∈ o.lines, y.reservedFor = 0) :
    s.cancellationEnd k = if 0 < o.filledTotal then s.abandoned k o else s.givenUp k o := by
  have hall : o.lines.all (fun y => y.reservedFor == 0) = true := by simpa using hz
  unfold cancellationEnd
  rw [h]
  dsimp only
  rw [if_pos ⟨hs, hall⟩]
  unfold abandoned givenUp laneGone laneGiven
  cases o.lane with
  | none => rfl
  | some l => rfl

theorem laneGone_moves (s : Store) (lane : Option Nat) :
    Moves (fun p => (∃ l, p = .lane l) ∨ p = .listing) s (s.laneGone lane) := by
  unfold laneGone
  split
  · next l => exact laneAbandoned_moves (.inl ⟨l, rfl⟩) (.inr rfl) s
  · exact .refl _

theorem laneGiven_moves (s : Store) (lane : Option Nat) :
    Moves (fun p => (∃ l, p = .lane l) ∨ p = .listing ∨ p = .notice) s (s.laneGiven lane) := by
  unfold laneGiven
  split
  · next l => exact (freeLane_moves (.inl ⟨l, rfl⟩) (.inr (.inr rfl)) s true).trans (list_moves (.inr (.inl rfl)) _ _)
  · exact .refl _

/-! ### An order abandoned -/

theorem abandoned_moves (s : Store) (k : Nat) (o : Order) : Moves Part.ordering s (s.abandoned k o) :=
  .after (list_moves trivial _ _) (.after (raise_moves trivial _ _ _) (((putOrder_moves trivial s _)).trans
    ((laneGone_moves _ _).mono fun p h => by rcases h with ⟨l, rfl⟩ | rfl <;> trivial)))

theorem abandoned_order (hk : k < 64) : (s.abandoned k o).order k = some { o with state := .abandoned } := by
  rw [abandoned, order, list_orders, raise_orders]
  exact ((laneGone_moves _ _).order (by simp)).trans (putOrder_order_self s hk _)

theorem abandoned_raised (s : Store) (k : Nat) (o : Order) : (s.abandoned k o).Raised (.order k) Flag.orderAbandoned :=
  (list_moves (K := Part.ordering) trivial _ _).raised (raise_raised _ _ _)

theorem abandoned_waiting (s : Store) (k : Nat) (o : Order) : (s.abandoned k o).waiting = s.waiting := by
  rw [abandoned, list_waiting, raise_waiting]
  exact (laneGone_moves _ _).waitings (by simp)

theorem abandoned_lane {l : Nat} (hl : l < 16) (ho : o.lane = some l) :
    ((s.abandoned k o).lane l).state = .abandoned ∧ .lane l ∈ (s.abandoned k o).writeBack := by
  have hgone : (s.putOrder k (some { o with state := .abandoned })).laneGone o.lane =
      (s.putOrder k (some { o with state := .abandoned })).laneAbandoned l := by rw [ho]; rfl
  rw [abandoned, hgone, lane, list_lanes, raise_lanes]
  refine ⟨?_, mem_list_writeBack_of_mem ?_ _⟩
  · rw [laneAbandoned, list_lanes]
    exact congrArg Lane.state (putLane_lane_self _ hl _)
  · exact mem_list_writeBack _ _

/-! ### An order freed -/

theorem freeOrder_raised (s : Store) (k : Nat) : (s.freeOrder k).Raised (.order k) Flag.orderFreed :=
  raise_raised (s.setOrder k none) _ _

theorem freeOrder_waiting (s : Store) (k : Nat) : (s.freeOrder k).waiting = s.waiting := by
  simp only [freeOrder, raise_waiting, setOrder_waiting]

theorem freeOrder_admission (s : Store) (k : Nat) : (s.freeOrder k).admission = s.admission := by
  simp only [freeOrder, raise_admission, setOrder_admission]

theorem freeOrder_lane (s : Store) (k l : Nat) : (s.freeOrder k).lane l = s.lane l := by
  simp only [freeOrder, lane, raise_lanes, setOrder_lanes]

theorem givenUp_moves (s : Store) (k : Nat) (o : Order) : Moves Part.ordering s (s.givenUp k o) :=
  .after (admissionPass_moves _) (.after (freeOrder_moves _ _) ((laneGiven_moves _ _).mono fun p h => by
    rcases h with ⟨l, rfl⟩ | rfl | rfl <;> trivial))

theorem givenUp_not_waiting (hw : ∀ l, (k, l) ∉ s.waiting) :
    (s.givenUp k o).order k = none ∧ ∀ l, (k, l) ∉ (s.givenUp k o).waiting := by
  refine admissionPass_not_waiting (freeOrder_order_self _ _) ?_
  rw [freeOrder_waiting, (laneGiven_moves _ _).waitings (by simp)]
  exact hw

theorem givenUp_raised (s : Store) (k : Nat) (o : Order) : (s.givenUp k o).Raised (.order k) Flag.orderFreed :=
  (admissionPass_moves _).raised (freeOrder_raised _ _)

/-- A lane set free holds no order, and is FREE or OCCUPIED. -/
theorem freeLane_lane {l : Nat} (hl : l < 16) (s : Store) (b : Bool) :
    (((s.freeLane l b).lane l).state = .free ∨ ((s.freeLane l b).lane l).state = .occupied) ∧
      ((s.freeLane l b).lane l).order = none := by
  have hput (y : Lane) (h : (y.state = .free ∨ y.state = .occupied) ∧ y.order = none) :
      ((((s.putLane l y).lane l).state = .free ∨ ((s.putLane l y).lane l).state = .occupied) ∧
        ((s.putLane l y).lane l).order = none) := by
    rw [putLane_lane_self s hl]
    exact h
  have hfree := hput (s.lane l).freed ⟨.inl rfl, rfl⟩
  simp only [freeLane]
  split
  · split
    · exact hput _ ⟨.inr rfl, rfl⟩
    · split
      · exact hfree
      · exact hfree
  · split
    · exact hfree
    · exact hfree

theorem givenUp_lane {l : Nat} (hl : l < 16) (ho : o.lane = some l) :
    .lane l ∈ (s.givenUp k o).writeBack ∧
      (((((s.givenUp k o).lane l).state = .free ∨ ((s.givenUp k o).lane l).state = .occupied) ∧
          ((s.givenUp k o).lane l).order = none) ∨
        ∃ j ∈ s.admission, ((s.givenUp k o).lane l).order = some j) := by
  have hgiven : s.laneGiven o.lane = (s.freeLane l true).list (.lane l) := by rw [ho]; rfl
  have hadm : ((s.laneGiven o.lane).freeOrder k).admission = s.admission := by
    rw [freeOrder_admission, (laneGiven_moves _ _).admissions (by simp)]
  have hlane : ((s.laneGiven o.lane).freeOrder k).lane l = (s.freeLane l true).lane l := by
    rw [freeOrder_lane, hgiven, lane, list_lanes]
    rfl
  have hpass := (admissionPass_lane ((s.laneGiven o.lane).freeOrder k) l).2
  rw [hadm, hlane] at hpass
  refine ⟨?_, hpass.imp (fun h => ?_) id⟩
  · refine (admissionPass_moves _).listed ((freeOrder_moves _ _).listed ?_)
    rw [hgiven]
    exact mem_list_writeBack _ _
  · rw [givenUp, h]
    exact freeLane_lane hl s true

end Store

namespace Owner

variable {s : Store} {k : Nat} {o : Order}

/-! ## The rows -/

theorem order_tagged_iff {tag : Word} {k : Nat} :
    ((s.order k).any fun o => o.tag == tag) = true ↔ ∃ o, s.order k = some o ∧ o.tag = tag := by
  cases s.order k with
  | none => simp
  | some o => simp

theorem orderTagged_none {tag : Word} (h : ∀ k o, s.order k = some o → o.tag ≠ tag) : orderTagged s tag = none := by
  refine firstBelow_eq_none fun k _ hk => ?_
  obtain ⟨o, ho, ht⟩ := order_tagged_iff.mp hk
  exact h k o ho ht

theorem orderTagged_some {tag : Word} (h : s.order k = some o) (ht : o.tag = tag)
    (hmin : ∀ j x, j < k → s.order j = some x → x.tag ≠ tag) : orderTagged s tag = some k := by
  refine firstBelow_eq_some (Store.order_lt h) ?_ fun j hj hk => ?_
  · rw [h]
    exact beq_iff_eq.mpr ht
  · obtain ⟨x, hx, hxt⟩ := order_tagged_iff.mp hk
    exact hmin j x hj hx hxt

theorem orderCancel_notFound {ws : List Word} (h : orderTagged s (wordAt ws 2) = none) :
    orderCancel ws s = .refuse s .notFound := by
  unfold orderCancel
  rw [h]

theorem orderCancel_found {ws : List Word} (h : orderTagged s (wordAt ws 2) = some k) (ho : s.order k = some o) :
    (o.state = .cancelling ∨ o.state = .complete ∨ o.state = .abandoned →
      orderCancel ws s = .refuse s .wrongState) ∧
    (o.state = .admitting → orderCancel ws s = cancelAnswer (cancelAdmitting s k) k) ∧
    (o.state = .active → orderCancel ws s = cancelAnswer (cancelActive s k o) k) := by
  unfold orderCancel
  rw [h]
  dsimp only
  rw [ho]
  dsimp only
  refine ⟨?_, fun hs => by rw [hs], fun hs => by rw [hs]⟩
  rintro (hs | hs | hs)
  all_goals rw [hs]

/-! ## An ACTIVE order cancelled -/

/-- A reservation that a cancellation of its order releases. -/
def cancellable (k : Nat) (r : Reservation) : Bool :=
  (match r.claim with
    | .pick o _ => o == k
    | .put _ => false) &&
  (match r.state with
    | .reserved => true
    | .queued _ => true
    | .presented _ => false)

/-- The reservations that the cancellation of an order releases (R17, R113). -/
def releasedBy (s : Store) (k : Nat) : List Reservation := s.reservations.filter (cancellable k)

/-- The store with the order CANCELLING and its lines waiting no more. -/
def cancelBegun (s : Store) (k : Nat) (o : Order) : Store :=
  (s.putOrder k (some { o with state := .cancelling })).leaveWaiting k

/-- The store with what the cancellation releases released. -/
def cancelReleased (s : Store) (k : Nat) (o : Order) : Store :=
  Store.releaseMany Store.handBackCancelled (cancelBegun s k o) ((releasedBy s k).map fun r => r.number)

theorem cancelActive_eq (s : Store) (k : Nat) (o : Order) :
    cancelActive s k o = ((cancelReleased s k o).cancellationEnd k).list (.order k) := rfl

theorem cancellable_iff (k : Nat) (r : Reservation) : cancellable k r = true ↔
    (∃ l, r.claim = .pick k l) ∧ ¬ ∃ f, r.state = .presented f := by
  unfold cancellable
  cases r.claim <;> cases r.state <;> simp

theorem cancelBegun_presented (h : s.Distinct) (o : Order) :
    (cancelBegun s k o).PresentedBut k ((releasedBy s k).map fun r => r.number) := by
  refine ⟨h, fun r hr l hc => ?_⟩
  by_cases hp : ∃ f, r.state = .presented f
  · exact .inl hp
  · exact .inr (List.mem_map.mpr ⟨r, List.mem_filter.mpr ⟨hr, (cancellable_iff k r).mpr ⟨⟨l, hc⟩, hp⟩⟩, rfl⟩)

theorem cancelReleased_moves (s : Store) (k : Nat) (o : Order) :
    Moves Part.cancelling (cancelBegun s k o) (cancelReleased s k o) := Store.releaseMany_cancelling _ _

theorem cancelReleased_waiting (s : Store) (k : Nat) (o : Order) (l : Nat) :
    (k, l) ∉ (cancelReleased s k o).waiting := by
  rw [(cancelReleased_moves s k o).waitings (by simp)]
  intro h
  simpa using (List.mem_filter.mp h).2

theorem cancelReleased_order (hd : s.Distinct) (ho : s.order k = some o) :
    ∃ o', (cancelReleased s k o).order k = some o' ∧
      Order.LoweredBy (claimedFor (releasedBy s k) k) { o with state := .cancelling } o' := by
  have hbegun : (cancelBegun s k o).order k = some { o with state := .cancelling } :=
    Store.putOrder_order_self s (Store.order_lt ho) _
  obtain ⟨o', ho', hlow⟩ := Store.releaseAll_order (k := k) (x := (cancelBegun s k o, [])) (releasedBy s k)
    (hd.sublist (List.Sublist.map _ List.filter_sublist))
    (fun r hr => congrArg (Option.map Store.claimed) (Store.reservation_of_mem (s := cancelBegun s k o) hd
      (List.mem_filter.mp hr).1))
    (fun r hr => ((cancellable_iff k r).mp (List.mem_filter.mp hr).2).1) hbegun
  refine ⟨o', ?_, hlow⟩
  rw [cancelReleased, (Store.releaseMany_after _ _ _).order (by simp)]
  exact ho'

/-! ## How a cancellation ends -/

theorem cancelAdmitting_frees (s : Store) (k : Nat) : (cancelAdmitting s k).order k = none ∧
    k ∉ (cancelAdmitting s k).admission ∧ (cancelAdmitting s k).Raised (.order k) Flag.orderFreed := by
  refine ⟨Store.admissionPass_order_none (Store.freeOrder_order_self _ k), fun h => ?_,
    (Store.admissionPass_moves _).raised (Store.freeOrder_raised _ k)⟩
  have hmem := Store.admissionPass_admission _ h
  rw [Store.freeOrder_admission] at hmem
  simpa using (List.mem_filter.mp hmem).2

theorem reached_none (h : s.order k = none) : reached s k = 0xFF := by
  rw [reached, h]
  rfl

theorem reached_some (h : s.order k = some o) : reached s k = Code.orderState o.state := by
  rw [reached, h]
  rfl

theorem cancelAnswer_none (h : s.order k = none) :
    cancelAnswer s k = .accept s .accepted [BitVec.ofNat 32 k, 0xFF] := by
  rw [cancelAnswer, reached_none h]
  rfl

/-- The cancellation leaves nothing reserved for the order. -/
def Clears (s : Store) (k : Nat) (o : Order) : Prop :=
  ∀ l y, o.lines[l]? = some y → y.reservedFor ≤ claimedFor (releasedBy s k) k l

/-- The three ends of the cancellation of an ACTIVE order (R113, R114). -/
theorem cancelActive_ends (hd : s.Distinct) (ho : s.order k = some o) :
    let x := cancelReleased s k o
    ∃ o', o'.lane = o.lane ∧
      ((¬ Clears s k o ∧ o'.state = .cancelling ∧ x.order k = some o' ∧ cancelActive s k o = x.list (.order k)) ∨
        (Clears s k o ∧ 0 < o.filledTotal ∧ cancelActive s k o = (x.abandoned k o').list (.order k)) ∨
        (Clears s k o ∧ o.filledTotal = 0 ∧ cancelActive s k o = (x.givenUp k o').list (.order k))) := by
  intro x
  obtain ⟨o', ho', hlow⟩ := cancelReleased_order hd ho
  have hfilled : o'.filledTotal = o.filledTotal := congrArg List.sum hlow.filled
  refine ⟨o', hlow.lane, ?_⟩
  rw [cancelActive_eq]
  by_cases hc : Clears s k o
  · have hz := hlow.cleared_iff.mpr hc
    rw [Store.cancellationEnd_cleared ho' hlow.state hz, hfilled]
    by_cases hf : 0 < o.filledTotal
    · exact .inr (.inl ⟨hc, hf, by rw [if_pos hf]⟩)
    · exact .inr (.inr ⟨hc, Nat.eq_zero_of_not_pos hf, by rw [if_neg hf]⟩)
  · have hz := mt hlow.cleared_iff.mp hc
    exact .inl ⟨hc, hlow.state, ho', by rw [Store.cancellationEnd_waits ho' hz]⟩

theorem cancelActive_not_waiting (hd : s.Distinct) (ho : s.order k = some o) (l : Nat) :
    (k, l) ∉ (cancelActive s k o).waiting := by
  have hw := cancelReleased_waiting s k o
  obtain ⟨o', -, ⟨-, -, -, he⟩ | ⟨-, -, he⟩ | ⟨-, -, he⟩⟩ := cancelActive_ends hd ho
  · rw [he, Store.list_waiting]
    exact hw l
  · rw [he, Store.list_waiting, Store.abandoned_waiting]
    exact hw l
  · rw [he, Store.list_waiting]
    exact (Store.givenUp_not_waiting hw).2 l

/-- The end of the event leaves an order that was cancelled. -/
theorem cancelActive_settled (hd : s.Distinct) (ho : s.order k = some o) :
    Moves (Store.endingBut k) (cancelActive s k o) (cancelActive s k o).eventEnd :=
  Store.eventEnd_moves_but fun e he hk => cancelActive_not_waiting hd ho e.2 (hk ▸ he)

theorem cancelActive_presented (hd : s.Distinct) (ho : s.order k = some o) :
    (cancelActive s k o).eventEnd.PresentedBut k [] := by
  refine .moves ?_ (cancelActive_settled hd ho) (fun h => by simpa using h.1) fun l q h => h.2.2 l q rfl
  rw [cancelActive_eq]
  have hend := (Store.cancellationEnd_moves (cancelReleased s k o) k).trans
    (Store.list_moves (K := Part.ordering) trivial _ (.order k))
  exact (Store.releaseMany_presented (cancelBegun_presented hd o)).moves hend (by simp) (by simp)

/-- What the order, its notice and its lane are after each of the three ends. -/
theorem cancelActive_reaches (hd : s.Distinct) (ho : s.order k = some o) :
    let t := cancelActive s k o
    (¬ Clears s k o → ∃ x, t.order k = some x ∧ x.state = .cancelling) ∧
    (Clears s k o → 0 < o.filledTotal → (∃ x, t.order k = some x ∧ x.state = .abandoned) ∧
      t.Raised (.order k) Flag.orderAbandoned ∧
      ∀ l, l < 16 → o.lane = some l → (t.lane l).state = .abandoned ∧ .lane l ∈ t.writeBack) ∧
    (Clears s k o → o.filledTotal = 0 → t.order k = none ∧ t.Raised (.order k) Flag.orderFreed ∧
      ∀ l, l < 16 → o.lane = some l → .lane l ∈ t.writeBack ∧
        ((((t.lane l).state = .free ∨ (t.lane l).state = .occupied) ∧ (t.lane l).order = none) ∨
          ∃ j ∈ s.admission, (t.lane l).order = some j)) := by
  intro t
  have hraised {u : Store} {f : Half} (h : u.Raised (.order k) f) : (u.list (.order k)).Raised (.order k) f :=
    h.of_notices (Store.list_notices _ _)
  obtain ⟨o', hlane, hends⟩ := cancelActive_ends hd ho
  change (_ ∧ _ ∧ _ ∧ t = _) ∨ (_ ∧ _ ∧ t = _) ∨ (_ ∧ _ ∧ t = _) at hends
  clear_value t
  obtain ⟨hc, hs, ho', rfl⟩ | ⟨hc, hf, rfl⟩ | ⟨hc, hf, rfl⟩ := hends
  · have ht : ((cancelReleased s k o).list (.order k)).order k = some o' := by
      rw [Store.order, Store.list_orders]
      exact ho'
    exact ⟨fun _ => ⟨o', ht, hs⟩, fun hc' => absurd hc' hc, fun hc' => absurd hc' hc⟩
  · refine ⟨absurd hc, fun _ _ => ?_, fun _ hz => absurd hf (by omega)⟩
    refine ⟨⟨{ o' with state := .abandoned }, ?_, rfl⟩, hraised (Store.abandoned_raised _ _ _), fun l hl hol => ?_⟩
    · rw [Store.order, Store.list_orders]
      exact Store.abandoned_order (Store.order_lt ho)
    · obtain ⟨hst, hlisted⟩ := Store.abandoned_lane (s := cancelReleased s k o) (k := k) hl (hlane.trans hol)
      refine ⟨?_, Store.mem_list_writeBack_of_mem hlisted _⟩
      rw [Store.lane, Store.list_lanes]
      exact hst
  · refine ⟨absurd hc, fun _ hp => absurd hf (by omega), fun _ _ => ?_⟩
    have hadm : (cancelReleased s k o).admission = s.admission := (cancelReleased_moves s k o).admissions (by simp)
    refine ⟨?_, hraised (Store.givenUp_raised _ _ _), fun l hl hol => ?_⟩
    · rw [Store.order, Store.list_orders]
      exact (Store.givenUp_not_waiting (cancelReleased_waiting s k o)).1
    · obtain ⟨hlisted, hst⟩ := Store.givenUp_lane (s := cancelReleased s k o) (k := k) hl (hlane.trans hol)
      refine ⟨Store.mem_list_writeBack_of_mem hlisted _, ?_⟩
      rw [Store.lane, Store.list_lanes, ← hadm]
      exact hst

/-- The state that the answer tells is the order's at the end (R111). -/
theorem cancelActive_reached (hd : s.Distinct) (ho : s.order k = some o) :
    let t := cancelActive s k o
    (t.order k = none ∧ reached t k = 0xFF) ∨ ∃ x, t.order k = some x ∧ reached t k = Code.orderState x.state ∧
      (x.state = .cancelling ∨ x.state = .abandoned) := by
  intro t
  obtain ⟨hwaits, habandoned, hfreed⟩ := cancelActive_reaches hd ho
  by_cases hc : Clears s k o
  · rcases Nat.eq_zero_or_pos o.filledTotal with hz | hp
    · have hn := (hfreed hc hz).1
      exact .inl ⟨hn, reached_none hn⟩
    · obtain ⟨x, hx, hs⟩ := (habandoned hc hp).1
      exact .inr ⟨x, hx, reached_some hx, .inr hs⟩
  · obtain ⟨x, hx, hs⟩ := hwaits hc
    exact .inr ⟨x, hx, reached_some hx, .inl hs⟩

theorem claimedFor_releasedBy {l : Nat} {p : Reservation → Bool}
    (hp : ∀ r, p r = true ↔ r.claim = .pick k l ∧ ¬ ∃ f, r.state = .presented f) :
    claimedFor (releasedBy s k) k l = ((s.reservations.filter p).map fun r => r.quantity).sum := by
  rw [claimedFor, releasedBy, List.filter_filter]
  congr 2
  refine List.filter_congr fun r _ => Bool.eq_iff_iff.mpr ?_
  rw [hp, Bool.and_eq_true, cancellable_iff, beq_iff_eq]
  exact ⟨fun ⟨hc, _, hs⟩ => ⟨hc, hs⟩, fun ⟨hc, hs⟩ => ⟨hc, ⟨l, hc⟩, hs⟩⟩

end Owner

end Sys2Proof.Machine

end

section

open Sys2Proof Sys2Proof.Machine

/-- Settles O41: the cancellation lowers each line by what it releases and ends where nothing is left reserved; an order
that waits for nothing is left by the end of the event. -/
theorem orderCancelEndsTheOrder : Obligations.OrderCancelEndsTheOrder := by
  intro s e h tag
  have hrow : exec .orderCancel s = .next (s.requestRow (· == Code.orderCancel) Owner.orderCancel) := rfl
  have hkind : (Code.orderCancel == Code.orderCancel) = true := beq_self_eq_true _
  refine ⟨fun hn => h.refuses hrow hkind (Owner.orderCancel_notFound (Owner.orderTagged_none hn)),
    fun k o ho ht hmin => ?_⟩
  obtain ⟨hwrong, hadmitting, hactive⟩ := Owner.orderCancel_found (Owner.orderTagged_some ho ht hmin) ho
  refine ⟨fun hs => h.refuses hrow hkind (hwrong hs), fun hs => ?_, fun hs hb => ?_⟩
  · obtain ⟨hnone, hadm, hraised⟩ := Owner.cancelAdmitting_frees s.store k
    have hmoves := Owner.cancelAdmitting_moves (s := s.store) k
    refine h.accepts hrow hkind ((hadmitting hs).trans (Owner.cancelAnswer_none hnone))
      ⟨Store.eventEnd_order_none hnone, ?_, hraised.eventEnd, ?_, ?_⟩
    · rw [(Store.eventEnd_moves _).admissions (by simp)]
      exact hadm
    · rw [Store.eventEnd_batches]
      exact hmoves.batches (by simp)
    · rw [← Store.standing_carriers, Store.standing_eventEnd, Store.standing_carriers,
        hmoves.carriers (by simp) (by simp) (by simp)]
  · have hd : s.store.Distinct := hb.numbers
    refine ⟨Owner.reached (Owner.cancelActive s.store k o) k, h.accepts hrow hkind (hactive hs) ?_⟩
    have hsettled := Owner.cancelActive_settled hd ho
    have horder := hsettled.order (k := k) fun hk => hk.2.1 rfl
    refine ⟨?_, fun l hl => Owner.cancelActive_not_waiting hd ho l (Store.eventEnd_waiting _ hl), ?_, ?_⟩
    · rw [horder]
      rcases Owner.cancelActive_reached hd ho with ⟨hx, hst⟩ | ⟨x, hx, hst⟩
      · rw [hx]
        exact hst
      · rw [hx]
        exact hst
    · intro r hr l hc
      exact ((Owner.cancelActive_presented hd ho).2 r hr l hc).resolve_right (List.not_mem_nil)
    · intro released cleared filled raised
      have hreleased : ∀ l, claimedFor (Owner.releasedBy s.store k) k l = released l := fun l =>
        Owner.claimedFor_releasedBy fun r => by
          simp only [Bool.and_eq_true, beq_iff_eq]
          cases r.state <;> simp
      have hcleared : cleared ↔ Owner.Clears s.store k o :=
        forall_congr' fun l => forall_congr' fun y => by rw [hreleased]
      obtain ⟨hwaits, habandoned, hfreed⟩ := Owner.cancelActive_reaches hd ho
      refine ⟨fun hc => ?_, fun hc hp => ?_, fun hc hz => ?_⟩
      · obtain ⟨x, hx, hst⟩ := hwaits (mt hcleared.mpr hc)
        rw [Owner.reached_some hx, hst]
        rfl
      · obtain ⟨⟨x, hx, hst⟩, hraised, hlane⟩ := habandoned (hcleared.mp hc) hp
        refine ⟨by rw [Owner.reached_some hx, hst]; rfl, hraised.eventEnd, fun l hl hol => ?_⟩
        rw [Store.eventEnd_lane]
        exact ⟨(hlane l hl hol).1, Store.eventEnd_keeps_listed _ (hlane l hl hol).2⟩
      · obtain ⟨hx, hraised, hlane⟩ := hfreed (hcleared.mp hc) hz
        refine ⟨Owner.reached_none hx, hraised.eventEnd, fun l hl hol => ?_⟩
        rw [Store.eventEnd_lane]
        exact ⟨Store.eventEnd_keeps_listed _ (hlane l hl hol).1, (hlane l hl hol).2⟩

end

/-! # Releases on a carousel that is out of service (R17, R47) -/

section

namespace Sys2Proof.Machine

open Sys2Proof

namespace Moves

variable {K : Part → Prop} {s t : Store}

/-- A carrier marked SUSPECT stays so, where no count is changed. -/
theorem suspect (h : Moves K s t) {r : Nat} (hK : ¬ K (.count r)) (hs : (s.carrier r).suspect = true) :
    (t.carrier r).suspect = true := by
  refine h.keeps (P := fun u => (u.carrier r).suspect = true) (fun p u v hp m hu => ?_) hs
  have put {j : Nat} {c : Carrier} (hc : j = r → c.suspect = true) : ((u.setCarrier j c).carrier r).suspect = true := by
    rw [Store.carrier, Store.setCarrier_carriers, look_put]
    split
    · next hj => exact hc hj.1
    · exact hu
  cases m with
  | mark _ j c _ hc => exact put fun e => hc (e ▸ hu)
  | stock _ j c _ hc => exact put fun e => hc (e ▸ hu)
  | count _ j c => exact put fun e => absurd (e ▸ hp) hK
  | _ => simpa [Store.carrier] using hu

/-- The count of a slot, where its carrier's counts are not changed. -/
theorem slot_count (h : Moves K s t) (hK : ∀ r, ¬ K (.count r)) (q : Nat) : (t.slot q).count = (s.slot q).count := by
  refine h.same (g := fun u => (u.slot q).count) fun p u v hp m => ?_
  have put {j : Nat} {c : Carrier} (hc : ∀ b, (look c.bays Slot.empty b).count =
      (look (u.carrier j).bays Slot.empty b).count) : ((u.setCarrier j c).slot q).count = (u.slot q).count := by
    rw [Store.slot, Store.carrier, Store.setCarrier_carriers, look_put]
    split
    · next hj => rw [hc, hj.1]; rfl
    · rfl
  cases m with
  | mark _ j c hb _ => exact put fun b => by rw [hb.1]
  | stock _ j c hb _ => exact put hb
  | count _ j c => exact absurd hp (hK j)
  | _ => simp [Store.slot, Store.carrier]

/-- A reservation stays on its slot under its number, where none leaves. -/
theorem hasNumber (h : Moves K s t) (hK : ¬ K .leaving) {n num : Nat} (hs : s.HasNumber n num) : t.HasNumber n num := by
  refine h.keeps (P := fun u => u.HasNumber n num) (fun p u v hp m hu => ?_) hs
  have hsame (hv : v.reservations = u.reservations) : v.HasNumber n num := by
    obtain ⟨x, hx, hn⟩ := hu
    exact ⟨x, hv ▸ hx, hn⟩
  have hclaimed (hv : v.reservations.map Store.claimed = u.reservations.map Store.claimed) : v.HasNumber n num :=
    (Store.hasNumber_claimed hv).mpr hu
  cases m with
  | present => exact hclaimed (Store.claimed_setReservationState _ _ _)
  | queue => exact hclaimed (Store.claimed_setReservationState _ _ _)
  | requeue => exact hclaimed (Store.claimed_setReservationState _ _ _)
  | enter =>
    obtain ⟨x, hx, hn⟩ := hu
    exact ⟨x, List.mem_append_left _ hx, hn⟩
  | leave => exact absurd hp hK
  | quantity _ k j =>
    obtain ⟨x, hx, hn⟩ := hu
    refine ⟨_, List.mem_map_of_mem hx, ?_⟩
    split
    · exact hn
    · exact hn
  | _ => exact hsame (by simp)

end Moves

/-- What a release on carousel `n`, which is out of service, touches beyond the reservation itself. -/
@[simp] def Part.aside (n : Nat) : Part → Prop
  | .leaving => False
  | p => off n p

theorem Part.off_of_aside {n : Nat} : ∀ p, aside n p → off n p := by
  intro p h
  cases p <;> simp_all

namespace Store

variable {s t : Store} {n : Nat}

/-- A carousel that is out of service, with nothing queued and nothing presented. -/
structure Quiet (s : Store) (n : Nat) : Prop where
  sound : s.FacesSound
  distinct : s.Distinct
  out : s.inService n = false
  queue : (s.channel n).queue = []
  faces : ∀ f, f < 2 → (s.face (faceIndex n f)).state ≠ .presenting

namespace Quiet

theorem moved (h : s.Quiet n) (he : Evolves s t) (hm : Moves (Part.off n) s t) : t.Quiet n where
  sound := he.facesSound h.sound
  distinct := hm.distinct h.distinct
  out := (hm.inService n).trans h.out
  queue := by
    rw [hm.channel (by simp)]
    exact h.queue
  faces f hf := by
    rw [hm.face (by simp [faceIndex_half hf]) (by simp) (by simp)]
    exact h.faces f hf

theorem served (h : s.Quiet n) (C : Claim → Prop) : Served C (Part.aside n) s :=
  .inr ⟨n, h.distinct, h.out, fun p hp hc => by cases p <;> simp_all⟩

end Quiet

/-! ## What a quiet carousel ignores -/

theorem setChannel_same (s : Store) (n : Nat) : s.setChannel n (s.channel n) = s := by
  simp only [setChannel, putChannel_channel, if_true]

theorem detach_nothing (h : (s.channel n).queue = []) (num : Nat) : s.detach n num = (s, false) := by
  have hsame : ({ s.channel n with queue := [] } : Channel) = s.channel n := by rw [← h]
  simp only [detach, h, detachFrom, hsame, setChannel_same]
  simp

theorem dropItem_blank {f : Nat} (h : (s.face (faceIndex n f)).bays = #v[[], [], []]) (num : Nat) :
    s.dropItem n f num = s := by
  have hnone : (firstBelow 3 fun b => (look (s.face (faceIndex n f)).bays [] b).any (Item.refersTo num)) = none := by
    refine firstBelow_eq_none fun b hb he => ?_
    rw [h] at he
    match b, hb with
    | 0, _ => exact nomatch he
    | 1, _ => exact nomatch he
    | 2, _ => exact nomatch he
  simp only [dropItem, hnone]

theorem countingCheck_out (h : s.inService n = false) : s.countingCheck n = s := by
  unfold countingCheck
  rw [if_neg (by simp [h])]

/-- A reservation on a quiet carousel is in no queue and in no presentation. -/
theorem withdraw_quiet (h : s.Quiet n) {r : Reservation} (hr : slotCarousel r.slot = n)
    (hp : ∀ f, r.state = .presented f → f < 2) : s.withdraw r = (s, false) := by
  simp only [withdraw, hr]
  cases hs : r.state with
  | reserved => rfl
  | queued f => exact detach_nothing h.queue _
  | presented f =>
    have hf := hp f hs
    exact congrArg (·, false) (dropItem_blank ((h.sound.face _).blank (h.faces f hf)).2.2 r.number)

/-- An audit that the Stock Map asks for on a carrier of a carousel out of service. -/
theorem stockAudit_moves_out {r : Nat} (h : s.inService (r / 24) = false) (o : AuditOrigin) :
    Moves (fun p => (∃ a, p = .audit a) ∨ p = .auditList ∨ p = .notice ∨ p = .listing ∨ p = .mark r) s
      (s.stockAudit r o) := by
  have hask : Moves (fun p => (∃ a, p = .audit a) ∨ p = .auditList ∨ p = .notice ∨ p = .listing ∨ p = .mark r) s
      (s.askAudit r o true).2 := by
    unfold askAudit
    split
    · exact .refl _
    · split
      · exact .refl _
      · next a _ =>
        dsimp only
        have hnew := (Moves.one (K := fun p => (∃ a, p = .audit a) ∨ p = .auditList ∨ p = .notice ∨ p = .listing ∨
          p = .mark r) (by simp) (.audit s a (.listed (s.newEntry r o)))).trans
          (.one (by simp) (.auditList _ (s.auditList ++ [a])))
        have hfrozen := hnew.trans (setFrozen_moves (by simp) (by simp) _ true (r := r))
        have hstill := countingCheck_out ((hfrozen.inService (r / 24)).trans h)
        refine .after (raise_moves (by simp) _ _ _) ?_
        split
        · exact hfrozen.trans (hstill.symm ▸ .refl _)
        · exact hfrozen
  unfold stockAudit
  split <;> rename_i heq <;> rw [heq] at hask
  · exact hask.trans (markWanted_moves (by simp) (by simp) _)
  · exact hask
  · exact hask

/-! ## One release -/

theorem reservation_of_hasNumber (hd : s.Distinct) {num : Nat} (h : s.HasNumber n num) :
    ∃ r, s.reservation num = some r ∧ slotCarousel r.slot = n ∧ r ∈ s.reservations := by
  obtain ⟨r, hr, rfl, hs⟩ := h
  exact ⟨r, reservation_of_mem hd hr, hs, hr⟩

theorem untaken_moves (s : Store) (n num : Nat) (r : Reservation) : Moves (Part.off n) s (s.untaken num r) :=
  taken_moves trivial (fun _ => trivial) trivial s num r

theorem untaken_evolves (s : Store) (num : Nat) (r : Reservation) : Evolves s (s.untaken num r) :=
  (dropReservation_evolves _ _).trans (changeSlot_evolves _ _ _)

/-- A reservation released on a quiet carousel: it leaves, and no queue entry is removed. -/
theorem releaseOne_quiet (h : s.Quiet n) {num : Nat} (hn : s.HasNumber n num) (l : List Nat) :
    Moves (Part.off n) s (releaseOne handBack (s, l) num).1 ∧ (releaseOne handBack (s, l) num).2 = l ∧
      Moves (Part.aside n) (s.dropReservation num) (releaseOne handBack (s, l) num).1 := by
  obtain ⟨r, hr, hslot, hmem⟩ := reservation_of_hasNumber h.distinct hn
  have hpresented : ∀ f, r.state = .presented f → f < 2 := h.sound.presented r hmem
  have hu : (s.untaken num r).Quiet n := h.moved (untaken_evolves _ _ _) (untaken_moves _ _ _ _)
  have hback : Moves (Part.aside n) (s.untaken num r) ((s.untaken num r).handBack r) :=
    handBack_moves (hu.served _) (fun p hp => by cases p <;> simp_all) (fun _ => trivial) r
  have hq := hu.moved (handBack_evolves _ r) (hback.mono Part.off_of_aside)
  have hdrain : Moves (Part.aside n) ((s.untaken num r).handBack r)
      (((s.untaken num r).handBack r).drainedCheck (slotRecord r.slot)) :=
    drainedCheck_moves (fun m hm => (hq.served fun _ => True).motionIn hm) (fun _ => trivial) _
  have hone : releaseOne handBack (s, l) num =
      (((s.untaken num r).handBack r).drainedCheck (slotRecord r.slot), l) := by
    unfold releaseOne
    rw [show (s, l).1.reservation num = some r from hr]
    dsimp only
    rw [show ((s.dropReservation num).changeSlot r.slot (releaseSlot r)) = s.untaken num r from rfl,
      withdraw_quiet hq hslot hpresented, if_neg Bool.false_ne_true]
  have hslots : Moves (Part.aside n) (s.dropReservation num) (s.untaken num r) :=
    changeSlot_moves (releaseSlot_count r) trivial trivial _
  rw [hone]
  exact ⟨(untaken_moves s n num r).trans ((hback.trans hdrain).mono Part.off_of_aside), rfl,
    (hslots.trans hback).trans hdrain⟩

/-! ## The releases of one claim -/

/-- No reservation is on carousel `n` but those with numbers in `ns`. -/
def GoneBut (s : Store) (n : Nat) (ns : List Nat) : Prop :=
  ∀ r ∈ s.reservations, slotCarousel r.slot = n → r.number ∈ ns

theorem GoneBut.moved {ns : List Nat} (h : s.GoneBut n ns) (hm : Moves (Part.off n) s t) : t.GoneBut n ns := by
  refine hm.keeps (P := fun u => u.GoneBut n ns) (fun p u v hp m hu => ?_) h
  have hsame (hv : v.reservations = u.reservations) : v.GoneBut n ns := fun r hr => hu r (hv ▸ hr)
  have hmap (g : Reservation → Reservation) (hg : ∀ r, (g r).number = r.number ∧ (g r).slot = r.slot)
      (hv : v.reservations = u.reservations.map g) : v.GoneBut n ns := by
    intro r hr hs
    rw [hv] at hr
    obtain ⟨x, hx, rfl⟩ := List.mem_map.mp hr
    rw [(hg x).2] at hs
    rw [(hg x).1]
    exact hu x hx hs
  cases m with
  | present => exact hmap _ (fun r => by split <;> exact ⟨rfl, rfl⟩) rfl
  | queue => exact hmap _ (fun r => by split <;> exact ⟨rfl, rfl⟩) rfl
  | requeue => exact hmap _ (fun r => by split <;> exact ⟨rfl, rfl⟩) rfl
  | enter _ r hr hn =>
    intro x hx hs
    rcases List.mem_append.mp hx with hx | hx
    · exact hu x hx hs
    · rw [List.mem_singleton.mp hx] at hs
      exact absurd hs hp
  | leave => exact fun r hr => hu r (List.mem_filter.mp hr).1
  | quantity => exact hmap _ (fun r => by split <;> exact ⟨rfl, rfl⟩) rfl
  | _ => exact hsame (by simp)

theorem GoneBut.released {num : Nat} {ns : List Nat} (h : s.GoneBut n (num :: ns)) :
    (s.dropReservation num).GoneBut n ns := by
  intro r hr hs
  obtain ⟨hmem, hne⟩ := List.mem_filter.mp hr
  refine (List.mem_cons.mp (h r hmem hs)).resolve_left ?_
  simpa using hne

theorem hasNumber_dropReservation {num m : Nat} (h : s.HasNumber n m) (hne : m ≠ num) :
    (s.dropReservation num).HasNumber n m := by
  obtain ⟨x, hx, hm, hs⟩ := h
  exact ⟨x, List.mem_filter.mpr ⟨hx, by simpa [hm] using hne⟩, hm, hs⟩

theorem releaseAll_quiet (h : s.Quiet n) {ns : List Nat} (hd : ns.Nodup) (hn : ∀ num ∈ ns, s.HasNumber n num)
    (l : List Nat) :
    Moves (Part.off n) s (releaseAll handBack (s, l) ns).1 ∧ (releaseAll handBack (s, l) ns).2 = l ∧
      ∀ ms, s.GoneBut n (ns ++ ms) → (releaseAll handBack (s, l) ns).1.GoneBut n ms := by
  induction ns generalizing s with
  | nil => exact ⟨.refl _, rfl, fun _ hg => hg⟩
  | cons num ns ih =>
    obtain ⟨hnot, hd⟩ := List.nodup_cons.mp hd
    obtain ⟨hm, hl, haside⟩ := releaseOne_quiet h (hn num (.head _)) l
    have hq := h.moved (releaseOne_evolves handBack_evolves (s, l) num) hm
    have hstep : releaseOne handBack (s, l) num = ((releaseOne handBack (s, l) num).1, l) := Prod.ext rfl hl
    obtain ⟨hms, hls, hg⟩ := ih hq hd fun m hmem => haside.hasNumber (by simp)
      (hasNumber_dropReservation (hn m (.tail _ hmem)) fun e => hnot (e ▸ hmem))
    rw [← hstep] at hms hls hg
    exact ⟨hm.trans hms, hls, fun ms hgone => hg ms (hgone.released.moved (haside.mono Part.off_of_aside))⟩

/-- Reservations released on a quiet carousel: it stays as it is, and they are gone. -/
theorem releaseMany_quiet (h : s.Quiet n) {ns : List Nat} (hd : ns.Nodup) (hn : ∀ num ∈ ns, s.HasNumber n num) :
    Moves (Part.off n) s (releaseMany handBack s ns) ∧
      ∀ ms, s.GoneBut n (ns ++ ms) → (releaseMany handBack s ns).GoneBut n ms := by
  obtain ⟨hm, hl, hg⟩ := releaseAll_quiet h hd hn []
  unfold releaseMany
  split
  · next he =>
    subst he
    exact ⟨.refl _, fun _ hgone => hgone⟩
  · have hl' : (ns.foldl (releaseOne handBack) (s, [])).2 = [] := hl
    have hnone : (List.range 4).filter ([] : List Nat).contains = [] := rfl
    dsimp only
    rw [hl', hnone]
    have hpass := triggerPass_moves (K := Part.off n) trivial (releaseAll handBack (s, []) ns).1
    exact ⟨hm.trans hpass, fun ms hgone => (hg ms hgone).moved hpass⟩

theorem numbers_nodup (h : s.Distinct) (p : Reservation → Bool) : (numbers (s.reservations.filter p)).Nodup :=
  h.sublist (List.Sublist.map _ List.filter_sublist)

theorem onCarrier_hasNumber {r num : Nat} (hr : r / 24 = n) (h : num ∈ numbers (s.onCarrier r)) :
    s.HasNumber n num := by
  obtain ⟨x, hx, rfl⟩ := List.mem_map.mp h
  obtain ⟨hmem, hs⟩ := List.mem_filter.mp hx
  refine ⟨x, hmem, rfl, ?_⟩
  simp only [slotRecord, slotCarousel, beq_iff_eq] at hs ⊢
  omega

theorem onCarousel_hasNumber {num : Nat} (h : num ∈ numbers (s.onCarousel n)) : s.HasNumber n num := by
  obtain ⟨x, hx, rfl⟩ := List.mem_map.mp h
  obtain ⟨hmem, hs⟩ := List.mem_filter.mp hx
  exact ⟨x, hmem, rfl, beq_iff_eq.mp hs⟩

/-- A carrier of a quiet carousel marked SUSPECT (R9). -/
theorem suspectMark_quiet (h : s.Quiet n) {r : Nat} (hr : r / 24 = n) (hlt : r < 96) :
    Moves (Part.off n) s (s.suspectMark r) ∧ ((s.suspectMark r).carrier r).suspect = true := by
  simp only [suspectMark]
  split
  · next hs => exact ⟨.refl _, hs⟩
  · have hmark : Moves (Part.off n) s (s.updCarrier r fun c => { c with suspect := true }) :=
      updCarrier_moves (p := .mark r) trivial trivial (.mark s r _ ⟨rfl, rfl⟩ fun _ => rfl)
    have hq := h.moved (updCarrier_evolves _ _ _) hmark
    have hrel := (releaseMany_quiet hq (numbers_nodup hq.distinct _) fun _ => onCarrier_hasNumber hr).1
    have hq' := hq.moved (releaseMany_evolves handBack_evolves _ _) hrel
    have haudit := (stockAudit_moves_out (by rw [hr]; exact hq'.out) .suspect).mono (L := Part.off n) fun p hp => by
      rcases hp with ⟨a, rfl⟩ | rfl | rfl | rfl | rfl <;> trivial
    refine ⟨(hmark.trans hrel).trans haudit, (hrel.trans haudit).suspect (by simp) ?_⟩
    simp only [updCarrier, list_carriers, carrier, setCarrier_carriers]
    rw [look_put_same _ _ _ _ hlt]

end Store

end Sys2Proof.Machine

end

/-! # The fence (R47, R67), the reports that a state does not expect (R46, R50) and the deadline (R43) -/

section

namespace Sys2Proof.Machine

open Sys2Proof

namespace Store

variable {s t : Store} {n : Nat}

/-! ## The fence, its steps in order -/

/-- A channel as a fence leaves it. -/
def fencedChannel (c : Channel) (cause : FenceCause) (code : Option Nat) : Channel :=
  { c with
    state := .fenced, position := none, target := none, deadline := none, queue := [], pendingCount := none
    fenceCause := some cause, faultCode := code }

/-- The fence with its presentations closed. -/
def fenceDark (s : Store) (n : Nat) (cause : FenceCause) (code : Option Nat) : Store :=
  ((s.putChannel n (fencedChannel (s.channel n) cause code)).closeForFence n 0).closeForFence n 1

/-- The fence with the carriers that were presented marked SUSPECT. -/
def fenceMarked (s : Store) (n : Nat) (cause : FenceCause) (code : Option Nat) : Store :=
  (s.presentedCarriers n).foldl (fun s c => s.suspectMark (recordOf n c)) (s.fenceDark n cause code)

/-- The fence with the carousel's reservations released. -/
def fenceCleared (s : Store) (n : Nat) (cause : FenceCause) (code : Option Nat) : Store :=
  (releaseMany handBack (s.fenceMarked n cause code) (numbers ((s.fenceMarked n cause code).onCarousel n))).auditFence n

theorem fence_eq (s : Store) (n : Nat) (cause : FenceCause) (code : Option Nat) : s.fence n cause code =
    (((s.fenceCleared n cause code).deriveBoth n).raise (.carousel n) Flag.carouselFenced).list (.status n) := rfl

/-! ## The presentations closed -/

theorem closeForFence_moves (h : s.FacesSound) (n f : Nat) :
    Moves (fun p => p = .closing (faceIndex n f) ∨ (∃ r, p = .mark r) ∨ p = .listing) s (s.closeForFence n f) := by
  simp only [closeForFence]
  split
  · next hp =>
    obtain ⟨⟨c, -, hc⟩, -⟩ := (h.face (faceIndex n f)).presenting hp
    rw [hc]
    have hclose := Moves.one (K := fun p => p = .closing (faceIndex n f) ∨ (∃ r, p = .mark r) ∨ p = .listing) (.inl rfl)
      (.closes s (faceIndex n f) (by rw [hc]; exact nofun))
    exact .after (list_moves (by simp) _ _) (hclose.trans (markFaceOpen_moves (by simp) (by simp) _ _))
  · exact .refl _

theorem closeForFence_state {f : Nat} (hn : n < 4) (hf : f < 2) :
    ((s.closeForFence n f).face (faceIndex n f)).state ≠ .presenting := by
  have hput : ((s.putFace (faceIndex n f) ((s.face (faceIndex n f)).ended .idle)).face (faceIndex n f)).state ≠
      .presenting := by
    rw [putFace_face_self s (faceIndex_lt hn hf)]
    exact nofun
  simp only [closeForFence]
  split
  · rw [face, list_faces]
    split
    · rw [markFaceOpen, updCarrier, list_faces]
      exact hput
    · exact hput
  · next h => exact h

/-! ## The carriers presented -/

theorem presentedCarrier_iff {f c : Nat} : s.presentedCarrier n f = some c ↔
    (s.face (faceIndex n f)).state = .presenting ∧ (s.face (faceIndex n f)).carrier = some c := by
  unfold presentedCarrier facePresenting
  simp

theorem mem_presentedCarriers {c : Nat} : c ∈ s.presentedCarriers n ↔
    s.presentedCarrier n 0 = some c ∨ s.presentedCarrier n 1 = some c := by
  unfold presentedCarriers
  cases s.presentedCarrier n 0 with
  | none => cases s.presentedCarrier n 1 <;> simp [eq_comm]
  | some a =>
    cases s.presentedCarrier n 1 with
    | none => simp [eq_comm]
    | some b =>
      dsimp only
      split
      · simp [eq_comm]
      · simp [eq_comm, or_comm]

theorem mem_presentedCarriers_of {f c : Nat} (hf : f < 2) (hs : (s.face (faceIndex n f)).state = .presenting)
    (hc : (s.face (faceIndex n f)).carrier = some c) : c ∈ s.presentedCarriers n := by
  rw [mem_presentedCarriers]
  match f, hf with
  | 0, _ => exact .inl (presentedCarrier_iff.mpr ⟨hs, hc⟩)
  | 1, _ => exact .inr (presentedCarrier_iff.mpr ⟨hs, hc⟩)

theorem presentedCarriers_lt (h : s.FacesSound) {c : Nat} (hc : c ∈ s.presentedCarriers n) : c < 24 := by
  have hlt {f : Nat} (hp : s.presentedCarrier n f = some c) : c < 24 := by
    obtain ⟨hs, hc⟩ := presentedCarrier_iff.mp hp
    obtain ⟨⟨c', hlt, hc'⟩, -⟩ := (h.face _).presenting hs
    cases hc.symm.trans hc'
    exact hlt
  exact (mem_presentedCarriers.mp hc).elim hlt hlt

/-! ## What each step leaves -/

section

variable (hn : n < 4) (hs : s.FacesSound) (hd : s.Distinct) (cause : FenceCause) (code : Option Nat)

theorem fenceDark_evolves : Evolves s (s.fenceDark n cause code) :=
  .after (closeForFence_evolves _ _ _) (.after (closeForFence_evolves _ _ _) (putChannel_evolves _ _ _ fun _ =>
    Nat.zero_le _))

include hs in
theorem fenceDark_moves : Moves (fun p => (∃ i, p = .closing i) ∨ (∃ r, p = .mark r) ∨ p = .listing)
    (s.putChannel n (fencedChannel (s.channel n) cause code)) (s.fenceDark n cause code) := by
  have h0 : (s.putChannel n (fencedChannel (s.channel n) cause code)).FacesSound :=
    (putChannel_evolves s n (fencedChannel (s.channel n) cause code) fun _ => Nat.zero_le _).facesSound hs
  have h1 := (closeForFence_evolves _ n 0).facesSound h0
  exact ((closeForFence_moves h0 n 0).mono fun p hp => hp.imp_left fun e => ⟨_, e⟩).trans
    ((closeForFence_moves h1 n 1).mono fun p hp => hp.imp_left fun e => ⟨_, e⟩)

include hn hs in
theorem fenceDark_channel : (s.fenceDark n cause code).channel n = fencedChannel (s.channel n) cause code := by
  rw [(fenceDark_moves hs cause code).channel (by simp), putChannel_channel_self _ hn]

include hn hs hd in
theorem fenceDark_quiet : (s.fenceDark n cause code).Quiet n where
  sound := (fenceDark_evolves cause code).facesSound hs
  distinct := (fenceDark_moves hs cause code).distinct hd
  out := by
    unfold inService
    rw [fenceDark_channel hn hs]
    rfl
  queue := by
    rw [fenceDark_channel hn hs]
    rfl
  faces f hf := by
    have h0 : (s.putChannel n (fencedChannel (s.channel n) cause code)).FacesSound :=
      (putChannel_evolves s n (fencedChannel (s.channel n) cause code) fun _ => Nat.zero_le _).facesSound hs
    match f, hf with
    | 0, _ =>
      rw [fenceDark, (closeForFence_moves ((closeForFence_evolves _ n 0).facesSound h0) n 1).face (by simp) (by simp)
        (by simp [faceIndex])]
      exact closeForFence_state hn (by decide)
    | 1, _ => exact closeForFence_state hn (by decide)

theorem suspectMarks_quiet (h : s.Quiet n) (hn : n < 4) (cs : List Nat) (hc : ∀ c ∈ cs, c < 24) :
    (cs.foldl (fun s c => s.suspectMark (recordOf n c)) s).Quiet n ∧
      Moves (Part.off n) s (cs.foldl (fun s c => s.suspectMark (recordOf n c)) s) ∧
      ∀ c ∈ cs, ((cs.foldl (fun s c => s.suspectMark (recordOf n c)) s).carrier (recordOf n c)).suspect = true := by
  induction cs generalizing s with
  | nil => exact ⟨h, .refl _, fun _ hc => nomatch hc⟩
  | cons c cs ih =>
    have hlt := hc c (.head _)
    obtain ⟨hm, hmark⟩ := suspectMark_quiet h (r := recordOf n c) (by unfold recordOf; omega)
      (by unfold recordOf; omega)
    obtain ⟨hq, hms, hmarks⟩ := ih (h.moved (suspectMark_evolves _ _) hm) fun c' hc' => hc c' (.tail _ hc')
    refine ⟨hq, hm.trans hms, fun c' hc' => ?_⟩
    rcases List.mem_cons.mp hc' with rfl | hc'
    · exact hms.suspect (by simp) hmark
    · exact hmarks c' hc'

include hn hs hd in
/-- The fence before the displays are derived. -/
theorem fenceCleared_quiet : (s.fenceCleared n cause code).Quiet n ∧
    Moves (Part.off n) (s.fenceDark n cause code) (s.fenceCleared n cause code) ∧
    (s.fenceCleared n cause code).GoneBut n [] ∧
    ∀ c ∈ s.presentedCarriers n, ((s.fenceCleared n cause code).carrier (recordOf n c)).suspect = true := by
  obtain ⟨hq, hm, hmarks⟩ := suspectMarks_quiet (fenceDark_quiet hn hs hd cause code) hn (s.presentedCarriers n)
    fun _ => presentedCarriers_lt hs
  obtain ⟨hrel, hgone⟩ := releaseMany_quiet hq (numbers_nodup hq.distinct _) fun _ => onCarousel_hasNumber
  have hq' := hq.moved (releaseMany_evolves handBack_evolves _ _) hrel
  have haudit := auditFence_moves (K := Part.off n) (fun _ => trivial) trivial
    (releaseMany handBack (s.fenceMarked n cause code) (numbers ((s.fenceMarked n cause code).onCarousel n))) n
  refine ⟨hq'.moved (auditFence_evolves _ _) haudit, (hm.trans hrel).trans haudit, (hgone [] ?_).moved haudit,
    fun c hc => (hrel.trans haudit).suspect (by simp) (hmarks c hc)⟩
  intro r hr hslot
  rw [List.append_nil]
  exact List.mem_map_of_mem (List.mem_filter.mpr ⟨hr, beq_iff_eq.mpr hslot⟩)

theorem fence_tail : Moves (fun p => Part.motionOf n p ∨ p = .notice) (s.fenceCleared n cause code)
    (s.fence n cause code) :=
  .after (list_moves (.inl trivial) _ _) (.after (raise_moves (.inr rfl) _ _ _)
    ((deriveBoth_moves _ _).mono fun _ => .inl))

include hn hs hd in
/-- The end of the event leaves a carousel that was fenced. -/
theorem fence_settled : Moves (Part.off n) (s.fence n cause code) (s.fence n cause code).eventEnd := by
  have hq := (fenceCleared_quiet hn hs hd cause code).1
  have htail := fence_tail (s := s) (n := n) cause code
  have hserved : Served (fun _ => True) (Part.off n) (s.fence n cause code) :=
    .inr ⟨n, htail.distinct hq.distinct, (htail.inService n).trans hq.out, fun _ hp _ => hp⟩
  exact (allocationPass_moves hserved trivial (fun _ _ => ⟨trivial, trivial⟩) fun _ => trivial).trans
    (agreeAll_moves (fun _ => trivial) _)

include hn hs in
theorem fenceCleared_channel (hm : Moves (Part.off n) (s.fenceDark n cause code) (s.fenceCleared n cause code)) :
    (s.fenceCleared n cause code).channel n = fencedChannel (s.channel n) cause code :=
  (hm.channel (by simp)).trans (fenceDark_channel hn hs cause code)

include hn hs hd in
theorem fence_channel : (s.fence n cause code).eventEnd.channel n = fencedChannel (s.channel n) cause code := by
  obtain ⟨-, hm, -⟩ := fenceCleared_quiet hn hs hd cause code
  rw [(fence_settled hn hs hd cause code).channel (by simp), fence_eq, channel, list_channels, raise_channels]
  exact (deriveBoth_channel _ n n).trans (fenceCleared_channel hn hs cause code hm)

include hn hs hd in
theorem fence_reservations : ∀ r ∈ (s.fence n cause code).eventEnd.reservations, slotCarousel r.slot ≠ n := by
  obtain ⟨-, -, hgone, -⟩ := fenceCleared_quiet hn hs hd cause code
  have hend : (s.fence n cause code).GoneBut n [] := by
    intro r hr
    rw [fence_eq, list_reservations, raise_reservations, deriveBoth, derive_reservations, derive_reservations] at hr
    exact hgone r hr
  exact fun r hr hslot => nomatch hend.moved (fence_settled hn hs hd cause code) r hr hslot

/-- What a face that presents nothing shows on a carousel that is fenced (R70). -/
theorem desiredOf_fenced {f : Nat} (hf : f < 2) (hc : (s.channel n).state = .fenced)
    (hp : (s.face (faceIndex n f)).state ≠ .presenting) : s.desiredOf (faceIndex n f) = Display.fault := by
  have hstate : ((s.face (faceIndex n f)).state == .presenting) = false := beq_eq_false_iff_ne.mpr hp
  simp only [desiredOf, hstate, faceIndex_half hf, inService, hc, noteOf]
  rfl

include hn hs hd in
theorem fence_face {f : Nat} (hf : f < 2) :
    ((s.fence n cause code).eventEnd.face (faceIndex n f)).state ≠ .presenting ∧
      ((s.fence n cause code).eventEnd.face (faceIndex n f)).desired = Display.fault := by
  obtain ⟨hq, hm, -⟩ := fenceCleared_quiet hn hs hd cause code
  have hstate : ((s.fenceCleared n cause code).channel n).state = .fenced :=
    congrArg Channel.state (fenceCleared_channel hn hs cause code hm)
  have hface : (s.fence n cause code).eventEnd.face (faceIndex n f) =
      ((s.fenceCleared n cause code).deriveBoth n).face (faceIndex n f) := by
    rw [(fence_settled hn hs hd cause code).face (by simp [faceIndex_half hf]) (by simp) (by simp), fence_eq, face,
      list_faces, raise_faces]
    rfl
  rw [hface, deriveBoth_face _ hn hf]
  exact ⟨hq.faces f hf, desiredOf_fenced hf hstate (hq.faces f hf)⟩

include hn hs hd in
theorem fence_suspect {f c : Nat} (hf : f < 2) (hst : (s.face (faceIndex n f)).state = .presenting)
    (hc : (s.face (faceIndex n f)).carrier = some c) :
    ((s.fence n cause code).eventEnd.carrier (recordOf n c)).suspect = true := by
  obtain ⟨-, -, -, hmarks⟩ := fenceCleared_quiet hn hs hd cause code
  exact (fence_settled hn hs hd cause code).suspect (by simp)
    ((fence_tail cause code).suspect (by simp) (hmarks c (mem_presentedCarriers_of hf hst hc)))

include hn hs hd in
theorem fence_counts (q : Nat) : ((s.fence n cause code).eventEnd.slot q).count = (s.slot q).count := by
  obtain ⟨-, hm, -⟩ := fenceCleared_quiet hn hs hd cause code
  rw [(fence_settled hn hs hd cause code).slot_count (by simp), (fence_tail cause code).slot_count (by simp),
    hm.slot_count (by simp), (fenceDark_moves hs cause code).slot_count (by simp)]
  rfl

theorem fence_raised : (s.fence n cause code).Raised (.carousel n) Flag.carouselFenced :=
  (raise_raised ((s.fenceCleared n cause code).deriveBoth n) _ _).of_notices (list_notices _ _)

end

end Store

/-! ## Reports by the channel's state (R46, R50) -/

namespace Store

variable {s : Store} {n : Nat}

theorem takeReport_out (h : (s.channel n).state = .unhomed ∨ (s.channel n).state = .fenced) (r : DriveReport) :
    s.takeReport n r = s := by
  unfold takeReport
  rcases h with h | h
  · rw [h]
  · rw [h]

theorem takeReport_homing (h : (s.channel n).state = .homing) (r : DriveReport) :
    s.takeReport n r = s.reportHoming n r := by
  unfold takeReport
  rw [h]

theorem takeReport_unsolicited (h : (s.channel n).state = .idle ∨ (s.channel n).state = .held) (r : DriveReport) :
    s.takeReport n r = s.reportUnsolicited n r := by
  unfold takeReport
  rcases h with h | h
  · rw [h]
  · rw [h]

theorem takeReport_moving (h : (s.channel n).state = .moving) (r : DriveReport) :
    s.takeReport n r = s.reportMoving n r := by
  unfold takeReport
  rw [h]

end Store

/-! ## Bytes that complete no report (R197) -/

theorem driveSilent_three {k x b : Byte} {w : List Byte} (h : driveGather [k, x] b = (w, none)) :
    driveSilent [] [k, x, b] = true := by
  simp only [driveSilent, show (driveGather (driveGather [] k).1 x).1 = [k, x] from rfl,
    show (driveGather [] k).2 = none from rfl, show (driveGather (driveGather [] k).1 x).2 = none from rfl, h]
  rfl

theorem driveGather_wrong {k x b : Byte} (h : b ≠ k ^^^ x ^^^ 0x5A) : driveGather [k, x] b = ([x, b], none) := if_neg h

theorem driveReport_bad {k x : Byte} (h : k ≠ 0xB1 ∧ k ≠ 0xB2 ∧ k ≠ 0xB3 ∧ k ≠ 0xB4 ∨
    (k = 0xB1 ∨ k = 0xB2) ∧ 23 < x.toNat ∨ k = 0xB4 ∧ (x = 0 ∨ 15 < x.toNat)) : driveReport k x = none := by
  unfold driveReport driveKindArrived driveKindStopped driveKindHomed driveKindFault
  rcases h with ⟨h1, h2, h3, h4⟩ | ⟨rfl | rfl, hx⟩ | ⟨rfl, hx⟩
  · rw [if_neg h1, if_neg h2, if_neg h3, if_neg h4]
  · rw [if_pos rfl, if_neg (by omega)]
  · rw [if_neg (by decide), if_pos rfl, if_neg (by omega)]
  · rw [if_neg (by decide), if_neg (by decide), if_neg (by decide), if_pos rfl, if_neg]
    rcases hx with rfl | hx
    · decide
    · omega

theorem driveGather_discarded {k x b : Byte} (h : b = k ^^^ x ^^^ 0x5A) (hbad : k ≠ 0xB1 ∧ k ≠ 0xB2 ∧ k ≠ 0xB3 ∧
    k ≠ 0xB4 ∨ (k = 0xB1 ∨ k = 0xB2) ∧ 23 < x.toNat ∨ k = 0xB4 ∧ (x = 0 ∨ 15 < x.toNat)) :
    driveGather [k, x] b = ([], none) :=
  (if_pos h).trans (by rw [driveReport_bad hbad])

/-! ## The fence as the outcome of its row -/

namespace State

theorem fences_of {s t : State} {n : Nat} {cause : FenceCause} {code : Option Nat} (hn : n < 4)
    (hs : s.store.FacesSound) (hb : s.store.Bounded) (hjobs : t.JobsAre (s.store.fence n cause code).eventEnd)
    (hsettles : ({ s with store := (s.store.fence n cause code).eventEnd } : State).Settles t) :
    s.Fences n cause code t := by
  have hd : s.store.Distinct := hb.numbers
  refine ⟨?_, ?_, fun f hf => ?_, fun f c hf _ hst hc => ?_, fun q => ?_, ?_, ?_⟩
  · exact (hjobs.channel n).trans (Store.fence_channel hn hs hd cause code)
  · rw [hjobs.reservations]
    exact Store.fence_reservations hn hs hd cause code
  · rw [hjobs.face, Nat.mul_comm]
    exact Store.fence_face hn hs hd cause code hf
  · rw [Nat.mul_comm] at hst hc
    rw [Store.carrier, hjobs.carriers, Nat.mul_comm]
    exact Store.fence_suspect hn hs hd cause code hf hst hc
  · rw [Store.slot, Store.carrier, hjobs.carriers]
    exact Store.fence_counts hn hs hd cause code q
  · exact hsettles.told_of (Store.fence_raised cause code).eventEnd
  · exact hsettles.renewed_of (Store.eventEnd_keeps_listed _ (Store.mem_list_writeBack _ _))

/-- A floor command of a working part that fences a carousel. -/
theorem floorEvent_fences {s : State} {n : Nat} {cause : FenceCause} {code : Option Nat} {c : Instr}
    {f : Store → Store} (hc : exec c s = .next (s.floorEvent f)) (hw : s.path.condition = .working) (hn : n < 4)
    (hs : s.store.FacesSound) (hb : s.store.Bounded) (hf : f s.store = (s.store.fence n cause code).eventEnd) :
    s.Ends c (s.Fences n cause code) :=
  (floorEvent_ends hc hw _ hf).imp fun _ ⟨hjobs, hsettles⟩ => fences_of hn hs hb hjobs hsettles

/-- Bytes that complete no report change the window alone. -/
theorem driveMessageDiscarded_ends {s : State} {n : Fin 4} {bs : List Byte} (hw : s.path.condition = .working)
    (hf : (s.store.cfg.carousel n.val).fitted = true) (h : driveSilent (s.store.channel n.val).window bs = true) :
    s.Ends (.driveMessageDiscarded n bs) fun t => t.JobsAre (s.store.putChannel n.val { s.store.channel n.val with
      window := bs.foldl (fun w b => (driveGather w b).1) (s.store.channel n.val).window }) ∧ s.AddsNothing t := by
  refine ⟨_, congrArg Host.Outcome.next (driveEvent_silent hw hf h), ?_, rfl, rfl, fun _ h => h, fun _ h => h⟩
  exact ⟨rfl, rfl, rfl, rfl, rfl, rfl, rfl⟩

end State

end Sys2Proof.Machine

end

section

open Sys2Proof Sys2Proof.Machine

/-- Settles O51: a report is one event of its channel, which a channel out of service ignores and which fences the
carousel where the state expects another. -/
theorem unexpectedReportFences : Obligations.UnexpectedReportFences := by
  intro s n x y z h hs hx hz₁ hz₂ c code
  have harrived := exec_driveReport (c := .arrived n x) h rfl (driveReport_arrived hx)
  have hstopped := exec_driveReport (c := .stopped n x) h rfl (driveReport_stopped hx)
  have hhomed := exec_driveReport (c := .homed n y) h rfl (driveReport_homed y)
  have hfault := exec_driveReport (c := .fault n z) h rfl (driveReport_fault hz₁ hz₂)
  have hignores {i : Instr} {r : DriveReport}
      (hi : exec i s = .next (s.floorEvent fun st => (st.takeReport n.val r).eventEnd))
      (hr : s.store.takeReport n.val r = s.store) : s.Ignores i :=
    State.floorEvent_ignores hi h.working ((congrArg Store.eventEnd hr).trans (Store.eventEnd_still h.attended))
  have hfences {i : Instr} {r : DriveReport} {cause : FenceCause} {code : Option Nat}
      (hi : exec i s = .next (s.floorEvent fun st => (st.takeReport n.val r).eventEnd))
      (hr : s.store.takeReport n.val r = s.store.fence n.val cause code) : s.Ends i (s.Fences n.val cause code) :=
    State.floorEvent_fences hi h.working n.isLt hs h.bounded (congrArg Store.eventEnd hr)
  refine ⟨fun hst => ?_, fun hst => ?_, fun hst => ?_, fun hst => ?_⟩
  · have hstill (r : DriveReport) : s.store.takeReport n.val r = s.store := Store.takeReport_out hst r
    exact ⟨hignores harrived (hstill _), hignores hstopped (hstill _), hignores hhomed (hstill _),
      hignores hfault (hstill _)⟩
  · have hreport (r : DriveReport) := Store.takeReport_homing hst r
    exact ⟨hfences harrived (hreport _), hfences hstopped (hreport _), hfences hfault (hreport _)⟩
  · have hreport (r : DriveReport) := Store.takeReport_unsolicited hst r
    exact ⟨hfences harrived (hreport _), hfences hstopped (hreport _), hfences hhomed (hreport _),
      hfences hfault (hreport _)⟩
  · have hreport (r : DriveReport) := Store.takeReport_moving hst r
    exact ⟨hfences hhomed (hreport _), hfences hfault (hreport _)⟩

/-- Settles O52: an expiry is a fence; of bytes that complete no report the window alone takes anything. -/
theorem deadlineFencesAndNoiseDoesNot : Obligations.DeadlineFencesAndNoiseDoesNot := by
  intro s n hworking hatt hb hs c window
  have hexec : exec (.deadline n) s = .next (s.floorEvent fun st =>
      if (st.channel n.val).deadline.isSome then (st.expireDeadline n.val).eventEnd else st) := rfl
  refine ⟨fun hd => ?_, fun hd => ?_, fun hf => ?_⟩
  · have hsome : (s.store.channel n.val).deadline.isSome = true := Option.isSome_iff_ne_none.mpr hd
    refine State.floorEvent_fences hexec hworking n.isLt hs hb ?_
    rw [if_pos hsome, Store.expireDeadline, if_pos hsome]
  · refine State.floorEvent_ignores hexec hworking (if_neg ?_)
    rw [hd]
    exact Bool.false_ne_true
  · have hsilent {bs w : List Byte} (h : driveSilent c.window bs = true)
        (hw : bs.foldl (fun w b => (driveGather w b).1) c.window = w) :
        s.Ends (.driveMessageDiscarded n bs) (window w) := by
      subst hw
      exact State.driveMessageDiscarded_ends hworking hf h
    refine ⟨fun bs h => hsilent h rfl, fun hw k x b => ⟨fun hne => ?_, fun he hbad => ?_⟩⟩
    · have hg : driveGather [k, x] b = ([x, b], none) := driveGather_wrong hne
      refine hsilent ?_ ?_
      · rw [hw]
        exact driveSilent_three hg
      · rw [hw]
        exact congrArg Prod.fst hg
    · have hg : driveGather [k, x] b = ([], none) := driveGather_discarded he hbad
      refine hsilent ?_ ?_
      · rw [hw]
        exact driveSilent_three hg
      · rw [hw]
        exact congrArg Prod.fst hg

end

/-! # ARRIVED in MOVING (R38, R41) -/

section

namespace Sys2Proof.Machine

open Sys2Proof

/-- What the opening of a presentation touches once its face is open. -/
@[simp] def Part.showing (i : Nat) : Part → Prop
  | .listing => True
  | .face j => j = i
  | .placing => True
  | .mark _ => True
  | .entry _ => True
  | _ => False

/-- What the service at a position touches. -/
@[simp] def Part.attending : Part → Prop
  | .opening _ => True
  | p => motion p

theorem Part.attending_of_motion : ∀ p, motion p → attending p := by
  intro p h
  cases p <;> simp_all

theorem Part.motion_of_showing {i : Nat} : ∀ p, showing i p → motion p := by
  intro p h
  cases p <;> simp_all

namespace Store

variable {s t : Store} {n p f : Nat}

/-! ## The service of one face -/

/-- A face open on carrier `c`, displaying what it did. -/
structure OpenOn (s : Store) (i c : Nat) (x : Face) : Prop where
  state : x.state = .presenting
  carrier : x.carrier = some c
  desired : x.desired = (s.face i).desired

theorem openWork_shows (s : Store) (n f c : Nat) (ns : List Nat) : ∃ x, s.OpenOn (faceIndex n f) c x ∧
    Moves (Part.showing (faceIndex n f)) (s.putFace (faceIndex n f) x) (s.openWork n f c ns) :=
  ⟨{ s.face (faceIndex n f) with
      state := .presenting, carrier := some c, kind := some .work, held := [], selected := none
      bays := #v[s.itemsOf ns 0, s.itemsOf ns 1, s.itemsOf ns 2] },
    ⟨rfl, rfl, rfl⟩, .after (list_moves trivial _ _)
      (.after (derive_moves (K := Part.showing (faceIndex n f)) rfl trivial _)
    (.after (markFaceOpen_moves trivial trivial _ _) (presentAll_moves trivial _ _ _)))⟩

theorem openCount_shows (s : Store) (n f c a : Nat) : ∃ x, s.OpenOn (faceIndex n f) c x ∧
    Moves (Part.showing (faceIndex n f)) (s.putFace (faceIndex n f) x) (s.openCount n f c a) :=
  ⟨{ s.face (faceIndex n f) with
      state := .presenting, carrier := some c, kind := some .count, held := [], selected := none
      bays := #v[[countItem a], [countItem a], [countItem a]] },
    ⟨rfl, rfl, rfl⟩, .after (list_moves trivial _ _)
      (.after (derive_moves (K := Part.showing (faceIndex n f)) rfl trivial _)
    (.after (auditPresented_moves trivial _ _) (markFaceOpen_moves trivial trivial _ _)))⟩

/-- The channel without the entry that face `f` serves at position `p`. -/
def taking (s : Store) (n p f : Nat) : Store :=
  s.setChannel n { s.channel n with queue := (s.channel n).queue.eraseP (s.satisfied n p f) }

theorem taking_moves (s : Store) (n p f : Nat) : Moves Part.motion s (s.taking n p f) :=
  setChannel_moves (by simp) (by simp) s _ rfl ⟨rfl, rfl, rfl⟩

theorem serveFace_found {e : QueueEntry} (h : (s.channel n).queue.find? (s.satisfied n p f) = some e) :
    (s.serveFace n p f).2 = true ∧ ∃ x, (s.taking n p f).OpenOn (faceIndex n f) e.carrier x ∧
      Moves (Part.showing (faceIndex n f)) ((s.taking n p f).putFace (faceIndex n f) x) (s.serveFace n p f).1 := by
  simp only [serveFace, h]
  cases e.work with
  | reservations ns => exact ⟨rfl, openWork_shows _ _ _ _ _⟩
  | count a => exact ⟨rfl, openCount_shows _ _ _ _ _⟩

theorem serveFace_none (h : (s.channel n).queue.find? (s.satisfied n p f) = none) :
    s.serveFace n p f = (s, false) := by
  simp only [serveFace, h]

theorem satisfied_iff {e : QueueEntry} : s.satisfied n p f e = true ↔
    e.face = f ∧ e.carrier = shownAt p f ∧ (s.face (faceIndex n f)).state ≠ .halted := by
  simp [satisfied, faceHalted, and_assoc]

theorem satisfied_of_find {e : QueueEntry} (h : (s.channel n).queue.find? (s.satisfied n p f) = some e) :
    e.face = f ∧ e.carrier = shownAt p f ∧ (s.face (faceIndex n f)).state ≠ .halted :=
  satisfied_iff.mp (List.find?_some h)

theorem taking_face (s : Store) (n p f i : Nat) : (s.taking n p f).face i = s.face i := by
  rw [taking, face, setChannel_faces]
  rfl

/-- Service at a face is motion, and the opening of a presentation where one may be open. -/
theorem serveFace_attends (s : Store) (n p f : Nat) : Moves Part.attending s (s.serveFace n p f).1 := by
  cases h : (s.channel n).queue.find? (s.satisfied n p f) with
  | none =>
    rw [serveFace_none h]
    exact .refl _
  | some e =>
    obtain ⟨-, x, hx, hm⟩ := serveFace_found h
    have hhalted := (satisfied_of_find h).2.2
    have hopen := Moves.one (K := Part.attending) (p := .opening (faceIndex n f)) trivial
      (.reopens (s.taking n p f) (faceIndex n f) x (by rw [taking_face]; exact hhalted) hx.state hx.desired)
    exact (((taking_moves s n p f).mono Part.attending_of_motion).trans hopen).trans
      (hm.mono fun q hq => Part.attending_of_motion q (Part.motion_of_showing q hq))

/-- The channel after the service of a face: its entry is off the queue. -/
theorem serveFace_channel (hn : n < 4) (p f : Nat) : (s.serveFace n p f).1.channel n =
    { s.channel n with queue := (s.channel n).queue.eraseP (s.satisfied n p f) } := by
  cases h : (s.channel n).queue.find? (s.satisfied n p f) with
  | none =>
    rw [serveFace_none h, List.eraseP_of_forall_not fun e he => List.find?_eq_none.mp h e he]
  | some e =>
    obtain ⟨-, x, -, hm⟩ := serveFace_found h
    rw [hm.channel (by simp)]
    exact setChannel_channel_self s hn _

/-- A face that is not served stays as it is. -/
theorem serveFace_face_other {i : Nat} (h : i ≠ faceIndex n f) (p : Nat) :
    (s.serveFace n p f).1.face i = s.face i := by
  cases hf : (s.channel n).queue.find? (s.satisfied n p f) with
  | none => rw [serveFace_none hf]
  | some e =>
    obtain ⟨-, x, -, hm⟩ := serveFace_found hf
    rw [hm.face (by simpa using h) (by simp) (by simp), putFace_face_other _ h, taking_face]

/-- A face is open on a carrier, and its channel is IDLE. -/
structure Presents (s : Store) (n f c : Nat) : Prop where
  state : (s.face (faceIndex n f)).state = .presenting
  carrier : (s.face (faceIndex n f)).carrier = some c
  idle : (s.channel n).state = .idle

theorem serveFace_presents (hn : n < 4) (hf : f < 2) (hidle : (s.channel n).state = .idle)
    (h : ∃ e ∈ (s.channel n).queue, s.satisfied n p f e = true) : (s.serveFace n p f).1.Presents n f (shownAt p f) := by
  obtain ⟨e, he⟩ := Option.isSome_iff_exists.mp (List.find?_isSome.mpr h)
  obtain ⟨-, x, hx, hm⟩ := serveFace_found he
  have hput := putFace_face_self (s.taking n p f) (faceIndex_lt hn hf) x
  obtain ⟨hst, hca, -⟩ := hm.presenting (i := faceIndex n f) (by simp) (by simp) (by rw [hput]; exact hx.state)
  refine ⟨hst, ?_, ?_⟩
  · rw [hca, hput, hx.carrier, (satisfied_of_find he).2.1]
  · rw [serveFace_channel hn]
    exact hidle

/-- An open presentation keeps its channel where it is. -/
theorem Presents.moves {K : Part → Prop} {c : Nat} (h : s.Presents n f c) (hf : f < 2) (hm : Moves K s t)
    (ho : ∀ i, ¬ K (.opening i)) (hc : ∀ i, ¬ K (.closing i)) : t.Presents n f c := by
  refine hm.keeps (P := fun u => u.Presents n f c) (fun q u v hq m hu => ?_) h
  obtain ⟨hst, hca, -⟩ := (Moves.one hq m).presenting (ho _) (hc _) hu.state
  refine ⟨hst, hca.trans hu.carrier, ?_⟩
  rcases m.channel_change n with e | e
  · rw [e]
    exact hu.idle
  · cases e with
    | stays _ ht => exact ht.1.trans hu.idle
    | departs _ _ _ hnone => exact absurd hu.state (hnone f hf)

/-! ## The service at a position -/

/-- Both faces served. -/
def served (s : Store) (n p : Nat) : Store := ((s.serveFace n p 0).1.serveFace n p 1).1

theorem serveAt_served (s : Store) (n p : Nat) : Moves Part.motion (s.served n p) (s.serveAt n p) := by
  simp only [serveAt]
  split
  · exact retryCore_moves (.any fun _ h => h)
  · exact .refl _

theorem served_attends (s : Store) (n p : Nat) : Moves Part.attending s (s.served n p) :=
  (serveFace_attends _ _ _ _).trans (serveFace_attends _ _ _ _)

/-- A face that is not HALTED, with an entry for the carrier that the position shows it, is served. -/
theorem served_presents (hn : n < 4) (hf : f < 2) (hidle : (s.channel n).state = .idle)
    (hh : (s.face (faceIndex n f)).state ≠ .halted)
    (h : ∃ e ∈ (s.channel n).queue, e.face = f ∧ e.carrier = shownAt p f) :
    (s.served n p).Presents n f (shownAt p f) := by
  have hidle₁ : ((s.serveFace n p 0).1.channel n).state = .idle := by
    rw [serveFace_channel hn]
    exact hidle
  obtain ⟨e, he, hface, hcarrier⟩ := h
  match f, hf with
  | 0, _ =>
    obtain ⟨hst, hca, -⟩ := serveFace_presents hn (by decide) hidle ⟨e, he, satisfied_iff.mpr ⟨hface, hcarrier, hh⟩⟩
    have hsame := serveFace_face_other (s := (s.serveFace n p 0).1) (n := n) (f := 1) (i := faceIndex n 0)
      (by simp [faceIndex]) p
    refine ⟨?_, ?_, ?_⟩
    · rw [served, hsame]
      exact hst
    · rw [served, hsame]
      exact hca
    · rw [served, serveFace_channel hn]
      exact hidle₁
  | 1, _ =>
    refine serveFace_presents hn (by decide) hidle₁ ⟨e, ?_, satisfied_iff.mpr ⟨hface, hcarrier, ?_⟩⟩
    · rw [serveFace_channel hn]
      exact (List.mem_eraseP_of_neg fun hsat => by
        have := (satisfied_iff.mp hsat).1
        omega).mpr he
    · rw [serveFace_face_other (by simp [faceIndex])]
      exact hh

/-! ## ARRIVED at the target (R41) -/

/-- The channel IDLE at the position reported. -/
def arrivedAt (s : Store) (n p : Nat) : Store :=
  s.changeChannel n { s.channel n with state := .idle, position := some p, target := none, deadline := none }

/-- What the stop at the target leads to. -/
def arrival (s : Store) (n p : Nat) : Store := ((s.arrivedAt n p).serveAt n p).serviceCheck n

theorem arrive_target {d : Direction} (h : (s.channel n).target = some (p, d)) : s.arrive n p = s.arrival n p := by
  simp only [arrive, h]
  exact if_pos rfl

theorem arrive_elsewhere (h : (s.channel n).target.map Prod.fst ≠ some p) :
    s.arrive n p = s.fence n .wrongPosition none := if_neg h

theorem arrivedAt_channel (hn : n < 4) (p : Nat) : (s.arrivedAt n p).channel n =
    { s.channel n with state := .idle, position := some p, target := none, deadline := none } :=
  changeChannel_channel_self s hn _

theorem arrivedAt_listed (h : (s.channel n).state = .moving) (p : Nat) : .status n ∈ (s.arrivedAt n p).writeBack :=
  changeChannel_listed (by rw [h]; exact nofun)

theorem arrivedAt_standing (s : Store) (n p : Nat) : (s.arrivedAt n p).standing =
    (s.putChannel n { s.channel n with state := .idle, position := some p }).standing := by
  rw [arrivedAt, standing_changeChannel_put]
  exact standing_putChannel_congr _ _ rfl

theorem derive_face_state (s : Store) (i j : Nat) : ((s.derive i).face j).state = (s.face j).state := by
  rw [derive, face, setFace_faces, look_put]
  split
  · next h => rw [h.1]
  · rfl

theorem arrivedAt_face_state (s : Store) (n p i : Nat) : ((s.arrivedAt n p).face i).state = (s.face i).state := by
  have hset (c : Channel) : (s.setChannel n c).face i = s.face i := by
    rw [face, setChannel_faces]
    rfl
  simp only [arrivedAt, changeChannel]
  split
  · rw [hset]
  · rw [deriveBoth, derive_face_state, derive_face_state, hset]

/-- What follows the stop at the target. -/
theorem arrive_moves (s : Store) (n p : Nat) :
    Moves Part.attending (s.arrivedAt n p) (s.arrival n p) :=
  ((served_attends _ n p).trans ((serveAt_served _ n p).mono Part.attending_of_motion)).trans
    ((serviceCheck_moves_any _ n).mono Part.attending_of_motion)

theorem arrive_passDue (s : Store) (n p : Nat) :
    (s.arrival n p).passDue = s.passDue :=
  ((arrive_moves s n p).passDue (by simp)).trans (changeChannel_passDue _ _ _)

theorem arrive_notices (s : Store) (n p : Nat) :
    (s.arrival n p).notices = s.notices :=
  ((arrive_moves s n p).notices (by simp)).trans (changeChannel_notices _ _ _)

theorem arrive_presents (hn : n < 4) (hf : f < 2) (hh : (s.face (faceIndex n f)).state ≠ .halted)
    (h : ∃ e ∈ (s.channel n).queue, e.face = f ∧ e.carrier = shownAt p f) :
    (s.arrival n p).Presents n f (shownAt p f) := by
  have hserved : ((s.arrivedAt n p).served n p).Presents n f (shownAt p f) := by
    refine served_presents hn hf ?_ ?_ ?_
    · rw [arrivedAt_channel hn]
    · rw [arrivedAt_face_state]
      exact hh
    · rw [arrivedAt_channel hn]
      exact h
  exact hserved.moves hf ((serveAt_served _ n p).trans (serviceCheck_moves_any _ n)) (by simp) (by simp)

theorem arrival_standing (s : Store) (n p : Nat) : (s.arrival n p).standing =
    (s.putChannel n { s.channel n with state := .idle, position := some p }).standing := by
  rw [arrival, standing_serviceCheck, standing_serveAt, arrivedAt_standing]

end Store

end Sys2Proof.Machine

end

section

open Sys2Proof Sys2Proof.Machine

/-- Settles O48: at the target the channel stops, serves the faces that the position satisfies and may go on; elsewhere
it is fenced. -/
theorem arrivalServesThePosition : Obligations.ArrivalServesThePosition := by
  intro s n x h hs hm hx c
  have hrow := exec_driveReport h (c := .arrived n x) rfl (driveReport_arrived hx)
  have htake : s.store.takeReport n (.arrived x.toNat) = s.store.arrive n x.toNat := Store.takeReport_moving hm _
  refine ⟨fun d hd => ?_, fun hne => ?_⟩
  · have harrive := htake.trans (Store.arrive_target hd)
    obtain ⟨ps, hps⟩ := Store.eventEnd_panels_only ((Store.arrive_passDue s.store n x.toNat).trans h.attended.pass)
    refine (State.floorEvent_ends hrow h.working _ (congrArg Store.eventEnd harrive)).imp fun t ⟨hjobs, hsettles⟩ => ?_
    have hch : t.store.channel n =
        (s.store.arrival n x.toNat).channel n := by
      rw [hjobs.channel, hps]
      rfl
    have hface (i : Nat) : t.store.face i =
        (s.store.arrival n x.toNat).face i := by
      rw [hjobs.face, hps]
      rfl
    have hmoves := Store.arrive_moves s.store n x.toNat
    have hstopped := Store.arrivedAt_channel (s := s.store) n.isLt x.toNat
    rw [hch]
    refine ⟨?_, ?_, fun f hf hh he => ?_, ?_, hsettles.renewed_of ?_, ?_⟩
    · rw [Store.position_of_moves hmoves, hstopped]
    · exact hmoves.runs (n := n) (.inl (by rw [hstopped]; exact ⟨rfl, rfl, rfl⟩))
    · rw [Nat.mul_comm] at hh ⊢
      obtain ⟨hst, hca, hidle⟩ := Store.arrive_presents n.isLt hf hh he
      rw [hface]
      exact ⟨hst, hca, hidle⟩
    · intro m hmem
      have hold : m ∈ (s.store.arrival n x.toNat).eventEnd.notices := hsettles.notices m hmem
      rwa [Store.eventEnd_notices, Store.arrive_notices] at hold
    · exact Store.eventEnd_keeps_listed _ (hmoves.listed (Store.arrivedAt_listed hm _))
    · rw [hjobs.standing, Store.standing_eventEnd, Store.arrival_standing]
  · exact State.floorEvent_fences hrow h.working n.isLt hs h.bounded
      (congrArg Store.eventEnd (htake.trans (Store.arrive_elsewhere hne)))

end

/-! # The end of the start-up load (R180, R194) -/

section

namespace Sys2Proof.Machine

open Sys2Proof

/-! ## What every chain of updates keeps -/

namespace Evolves

variable {s t : Store}

/-- No update takes a flag off the notice list. -/
theorem raised (h : Evolves s t) {src : Source} {f : Half} (hs : s.Raised src f) : t.Raised src f := by
  induction h with
  | refl => exact hs
  | step _ p ih =>
    cases p with
    | raise => exact ih.raise _ _
    | _ => exact ih.of_notices (by simp)

end Evolves

/-- What one step of a fold brings about and every step keeps, under what every step keeps anyway. -/
theorem foldl_reaches {α : Type} {g : Store → α → Store} {Q P : Store → Prop} {x : α} (hQ : ∀ s y, Q s → Q (g s y))
    (make : ∀ s, Q s → P (g s x)) (keep : ∀ s y, Q s → P s → P (g s y)) {xs : List α} (hx : x ∈ xs) {s : Store}
    (hs : Q s) : P (xs.foldl g s) := by
  have kept (ys : List α) (u : Store) (hq : Q u) (hp : P u) : P (ys.foldl g u) := by
    induction ys generalizing u with
    | nil => exact hp
    | cons y ys ih => exact ih _ (hQ u y hq) (keep u y hq hp)
  induction xs generalizing s with
  | nil => exact nomatch hx
  | cons y ys ih =>
    rcases List.mem_cons.mp hx with rfl | hx
    · exact kept ys _ (hQ s x hs) (make s hs)
    · exact ih hx (hQ s y hs)

theorem foldl_keeps {α : Type} {g : Store → α → Store} {Q : Store → Prop} (hQ : ∀ s y, Q s → Q (g s y)) (xs : List α)
    {s : Store} (hs : Q s) : Q (xs.foldl g s) := by
  induction xs generalizing s with
  | nil => exact hs
  | cons y ys ih => exact ih (hQ s y hs)

namespace Store

variable {s : Store} {n a p l : Nat}

/-! ## The notices of power-up -/

theorem Raised.mono {src : Source} {f g : Half} (h : s.Raised src f) (hg : f &&& g = g) : s.Raised src g := by
  obtain ⟨m, hm, hsrc, hf⟩ := h
  refine ⟨m, hm, hsrc, ?_⟩
  calc m.flags &&& g = m.flags &&& (f &&& g) := by rw [hg]
    _ = (m.flags &&& f) &&& g := (BitVec.and_assoc _ _ _).symm
    _ = g := by rw [hf, hg]

theorem raisePowerUp_raised (s : Store) (b : Bool) : (s.raisePowerUp b).Raised .device Flag.devicePowerUp ∧
    (b = true → (s.raisePowerUp b).Raised .device Flag.deviceImageDiscarded) := by
  cases b with
  | false => exact ⟨raise_raised s _ _, nofun⟩
  | true =>
    have h := raise_raised s .device (Flag.devicePowerUp ||| Flag.deviceImageDiscarded)
    exact ⟨h.mono (by decide), fun _ => h.mono (by decide)⟩

/-- The gate's flag in the CAROUSEL notice of power-up. -/
def gateFlag (c : Channel) : Half := if c.gate = .closed then Flag.carouselGateClosed else Flag.carouselGateOpened

theorem raiseGate_fitted (h : s.fitted n = true) : s.raiseGate n = s.raise (.carousel n) (gateFlag (s.channel n)) :=
  if_pos h

theorem raiseGate_notices_only (s : Store) (n : Nat) : ∃ ns, s.raiseGate n = { s with notices := ns } := by
  unfold raiseGate
  split
  · exact ⟨_, rfl⟩
  · exact ⟨_, rfl⟩

theorem raiseCreated_notices_only (s : Store) (a : Nat) : ∃ ns, s.raiseCreated a = { s with notices := ns } := by
  unfold raiseCreated
  split
  · exact ⟨_, rfl⟩
  · exact ⟨_, rfl⟩

theorem gates_raised (hn : n < 4) (h : s.fitted n = true) :
    ((List.range 4).foldl raiseGate s).Raised (.carousel n) (gateFlag (s.channel n)) := by
  refine foldl_reaches (Q := fun u => u.fitted n = true ∧ u.channel n = s.channel n) (fun u m hu => ?_)
    (fun u hu => ?_) (fun u m _ hr => (raiseGate_evolves u m).raised hr) (List.mem_range.mpr hn) ⟨h, rfl⟩
  · obtain ⟨ns, e⟩ := raiseGate_notices_only u m
    rw [e]
    exact hu
  · rw [raiseGate_fitted hu.1, hu.2]
    exact raise_raised _ _ _

theorem created_raised (ha : a < 16) (h : (s.entry a).isSome = true) :
    ((List.range 16).foldl raiseCreated s).Raised (.audit a) Flag.auditCreated := by
  refine foldl_reaches (Q := fun u => (u.entry a).isSome = true) (fun u m hu => ?_) (fun u hu => ?_)
    (fun u m _ hr => (raiseCreated_evolves u m).raised hr) (List.mem_range.mpr ha) h
  · obtain ⟨ns, e⟩ := raiseCreated_notices_only u m
    rw [e]
    exact hu
  · rw [raiseCreated, if_pos hu]
    exact raise_raised _ _ _

/-! ## The identifications and the scans that begin -/

/-- A panel whose identification has just begun (R80). -/
structure Begun (s : Store) (p : Nat) : Prop where
  line : (s.panel p).line = .identifying
  step : (s.panel p).step = some .awaitAck
  outstanding : (s.panel p).outstanding = some .identify
  attempt : (s.panel p).attempt = some 1

theorem Begun.of_panel {u : Store} (h : s.Begun p) (e : u.panel p = s.panel p) : u.Begun p :=
  ⟨e ▸ h.line, e ▸ h.step, e ▸ h.outstanding, e ▸ h.attempt⟩

theorem beginIdentification_begun (hp : p < 8) : (s.beginIdentification p).Begun p := by
  have h : (s.beginIdentification p).panel p = _ := putPanel_panel_self s hp _
  exact ⟨congrArg Panel.line h, congrArg Panel.step h, congrArg Panel.outstanding h, congrArg Panel.attempt h⟩

theorem panels_begun (hp : p < 8) (h : s.fitted (p / 2) = true) : ((List.range 8).foldl startPanel s).Begun p := by
  refine foldl_reaches (P := fun u => u.Begun p) (Q := fun u => u.fitted (p / 2) = true)
    (fun u m hu => ?_) (fun u hu => ?_) (fun u m _ hb => ?_) (List.mem_range.mpr hp) h
  · unfold startPanel
    split
    · exact hu
    · exact hu
  · rw [startPanel, if_pos hu]
    exact beginIdentification_begun hp
  · unfold startPanel
    split
    · by_cases e : p = m
      · subst e
        exact beginIdentification_begun hp
      · exact hb.of_panel (putPanel_panel_other _ e _)
    · exact hb

theorem scans_started (hl : l < 16) (h : (s.cfg.lane l).fitted = true) :
    (((List.range 16).foldl startScan s).lane l).scan = some s.cfg.scanInterval := by
  have hcfg (u : Store) (m : Nat) : (u.startScan m).cfg = u.cfg := by
    unfold startScan
    split
    · exact setLane_cfg _ _ _
    · rfl
  refine foldl_reaches (P := fun u => (u.lane l).scan = some s.cfg.scanInterval) (Q := fun u => u.cfg = s.cfg)
    (fun u m hu => (hcfg u m).trans hu) (fun u hu => ?_) (fun u m hu hp => ?_) (List.mem_range.mpr hl) rfl
  · rw [startScan, if_pos (by rw [hu]; exact h), setLane_lane_self _ hl, hu]
  · unfold startScan
    split
    · by_cases e : l = m
      · subst e
        rw [setLane_lane_self _ hl, hu]
      · rw [setLane_lane_other _ e]
        exact hp
    · exact hp

/-! ## The work that begins -/

/-- The notices and the gates of the work that begins. -/
def opened (s : Store) (discarded : Bool) (lines : Vector Bool 4) : Store :=
  (List.range 4).foldl (gateSettled lines) ((List.range 16).foldl raiseCreated ((List.range 4).foldl raiseGate
    (s.raisePowerUp discarded)))

/-- The panel lines and the scans that begin. -/
def running (s : Store) : Store := (List.range 16).foldl startScan ((List.range 8).foldl startPanel s)

theorem startWork_eq (s : Store) (b : Bool) (lines : Vector Bool 4) :
    s.startWork b lines = (s.opened b lines).running.eventEnd := rfl

theorem running_evolves (s : Store) : Evolves s s.running :=
  (Evolves.foldl _ startPanel_evolves _ _).trans (Evolves.foldl _ startScan_evolves _ _)

theorem opened_evolves (b : Bool) (lines : Vector Bool 4) : Evolves s (s.opened b lines) :=
  (((raise_evolves s _ _).trans (Evolves.foldl _ raiseGate_evolves _ _)).trans
    (Evolves.foldl _ raiseCreated_evolves _ _)).trans (Evolves.foldl _ (gateSettled_evolves lines) _ _)

theorem startWork_raised {b : Bool} {lines : Vector Bool 4} {src : Source} {f : Half}
    (h : (s.opened b lines).Raised src f) : (s.startWork b lines).Raised src f :=
  ((running_evolves _).raised h).eventEnd

theorem opened_device (s : Store) (b : Bool) (lines : Vector Bool 4) :
    (s.opened b lines).Raised .device Flag.devicePowerUp ∧
      (b = true → (s.opened b lines).Raised .device Flag.deviceImageDiscarded) := by
  have h : Evolves (s.raisePowerUp b) (s.opened b lines) := ((Evolves.foldl _ raiseGate_evolves _ _).trans
    (Evolves.foldl _ raiseCreated_evolves _ _)).trans (Evolves.foldl _ (gateSettled_evolves lines) _ _)
  obtain ⟨hpower, hdiscarded⟩ := raisePowerUp_raised s b
  exact ⟨h.raised hpower, fun hb => h.raised (hdiscarded hb)⟩

theorem opened_gates (hn : n < 4) (h : s.fitted n = true) (b : Bool) (lines : Vector Bool 4) :
    (s.opened b lines).Raised (.carousel n) (gateFlag (s.channel n)) :=
  ((Evolves.foldl _ raiseCreated_evolves _ _).trans (Evolves.foldl _ (gateSettled_evolves lines) _ _)).raised
    (gates_raised (s := s.raisePowerUp b) hn h)

theorem opened_created (ha : a < 16) (h : (s.entry a).isSome = true) (b : Bool) (lines : Vector Bool 4) :
    (s.opened b lines).Raised (.audit a) Flag.auditCreated := by
  refine (Evolves.foldl _ (gateSettled_evolves lines) _ _).raised (created_raised ha ?_)
  have hkeeps (u : Store) (m : Nat) (hu : (u.entry a).isSome = true) : ((u.raiseGate m).entry a).isSome = true := by
    obtain ⟨ns, e⟩ := raiseGate_notices_only u m
    rw [e]
    exact hu
  exact foldl_keeps (Q := fun u => (u.entry a).isSome = true) hkeeps _ (s := s.raisePowerUp b) h

theorem startWork_begun (hp : p < 8) (h : s.fitted (p / 2) = true) (b : Bool) (lines : Vector Bool 4) :
    (s.startWork b lines).Begun p := by
  have hfit : (s.opened b lines).fitted (p / 2) = true := by
    rw [fitted, (opened_evolves b lines).cfg]
    exact h
  have hrun : (s.opened b lines).running.Begun p := (panels_begun hp hfit).of_panel
    (congrArg (look · Panel.unfitted p) (foldl_panels _ startScan_panels _ _))
  rw [startWork_eq]
  exact hrun.of_panel (eventEnd_panel_not_ready hp (by rw [hrun.line]; exact nofun))

theorem startWork_scan (hl : l < 16) (h : (s.cfg.lane l).fitted = true) (b : Bool) (lines : Vector Bool 4) :
    ((s.startWork b lines).lane l).scan = some s.cfg.scanInterval := by
  have hcfg : ((List.range 8).foldl startPanel (s.opened b lines)).cfg = s.cfg :=
    ((opened_evolves b lines).trans (Evolves.foldl _ startPanel_evolves _ _)).cfg
  rw [startWork_eq, eventEnd_lane, running, scans_started hl (by rw [hcfg]; exact h), hcfg]

end Store

end Sys2Proof.Machine

end

section

open Sys2Proof Sys2Proof.Machine

/-- Settles O33: the load is done, so the part works; each block's fold over its places reaches every fitted one, and
what follows keeps it. -/
theorem startUpLoadEnds : Obligations.StartUpLoadEnds := by
  intro s hcond hwb hclaims hport
  have hdone : s.loadDone = true := by
    have hbursts : s.onlyBursts = true := by
      unfold State.onlyBursts
      rcases hport with hp | ⟨r, ws, b, hp⟩
      · rw [hp]
      · rw [hp]
    unfold State.loadDone
    rw [hcond, hwb, hclaims, hbursts]
    rfl
  have hrow : exec .startUpLoadEnd s = .next s.begunWork.finish := congrArg Host.Outcome.next (if_pos hdone)
  have hsettles := State.finish_settles s.begunWork
  have hstore : s.begunWork.store =
      s.store.startWork (s.path.articlesDiscarded || s.path.carriersDiscarded) s.gateLines := by
    unfold State.begunWork State.onStore State.setCondition
    dsimp only
  have htold {src : Source} {f : Half}
      (h : (s.store.opened (s.path.articlesDiscarded || s.path.carriersDiscarded) s.gateLines).Raised src f) :
      s.begunWork.finish.told src f := by
    have hraised := Store.startWork_raised h
    rw [← hstore] at hraised
    exact hsettles.told src f (.inl hraised)
  have hjobs : s.begunWork.finish.JobsAre s.begunWork.store := hsettles.store
  obtain ⟨hpower, hdiscarded⟩ := Store.opened_device s.store (s.path.articlesDiscarded || s.path.carriersDiscarded)
    s.gateLines
  refine ⟨_, hrow, hsettles.condition, htold hpower, fun hd => htold (hdiscarded ?_),
    fun n hn hf => htold (Store.opened_gates hn hf _ _), fun a ha he => htold (Store.opened_created ha he _ _),
    fun p hp hf => ?_, fun l hl hf => ?_, hsettles.mem⟩
  · rcases hd with hd | hd
    · rw [hd]; rfl
    · rw [hd, Bool.or_true]
  · obtain ⟨hline, hstep, hout, hatt⟩ := Store.startWork_begun hp hf
      (s.path.articlesDiscarded || s.path.carriersDiscarded) s.gateLines
    rw [hjobs.panel, hstore]
    exact ⟨hline, hstep, hout, hatt⟩
  · rw [hjobs.lane, hstore]
    exact Store.startWork_scan hl hf _ _

end

/-! # The carrier image (R26): a carrier as its record starts it -/

section

namespace Sys2Proof.Machine

open Sys2Proof

/-! ## The slots of a record, by its words -/

/-- Whether the record is faulty at bay `b`. -/
def faultyImage (depth : Nat) (article : Nat → Option Article) (word : Nat → Word) (b : Nat) : Bool :=
  byteNat (word 0) 0 != byteNat (word 15) 0 || decide (1 < byteNat (word (2 + 4 * b)) 0) ||
    decide (4 < byteNat (word (2 + 4 * b)) 1) || decide (depth < byteNat (word (4 + 4 * b)) 0) ||
    (highHalf (word (2 + 4 * b)) != 0xFFFF && (article (highHalf (word (2 + 4 * b)))).isNone) ||
    (decide (0 < byteNat (word (4 + 4 * b)) 0) && highHalf (word (2 + 4 * b)) == 0xFFFF)

/-- The block reason of a code of the record. -/
def reasonOf (code : Nat) : Option BlockReason :=
  [none, some .request, some .disputed, some .foreign, some .imageFault].getD code none

/-- The slot that starts from bay `b` of the record. -/
def startingSlot (depth : Nat) (article : Nat → Option Article) (word : Nat → Word) (b : Nat) : Slot :=
  if faultyImage depth article word b then ⟨some .imageFault, none, none, 0, 0, 0⟩
  else if byteNat (word (4 + 4 * b)) 0 == 0 then ⟨reasonOf (byteNat (word (2 + 4 * b)) 1), none, none, 0, 0, 0⟩
  else ⟨reasonOf (byteNat (word (2 + 4 * b)) 1), some (highHalf (word (2 + 4 * b))),
    if (word (3 + 4 * b)).getLsbD 16 then some (lowHalf (word (3 + 4 * b))) else none,
    byteNat (word (4 + 4 * b)) 0, 0, 0⟩

theorem blockReasonOf_eq (code : Nat) :
    Code.blockReasonOf code = if 4 < code then none else some (reasonOf code) := by
  match code with
  | 0 => rfl
  | 1 => rfl
  | 2 => rfl
  | 3 => rfl
  | 4 => rfl
  | n + 5 => rw [if_pos (by omega)]; rfl

section

variable {depth : Nat} {article : Nat → Option Article} {ws : List Word} {word : Nat → Word} {b : Nat}

/-- The slot that the record gives bay `b`, or a faulty one. -/
theorem imageSlot_eq (hw : ∀ i, i < 16 → wordAt ws i = word i) (hb : b < 3) :
    (if carrierTorn ws then none else slotOf depth (fun a => (article a).isSome) ws b).getD faultySlot =
      startingSlot depth article word b := by
  have htorn : carrierTorn ws = (byteNat (word 0) 0 != byteNat (word 15) 0) := by
    rw [carrierTorn, hw 0 (by decide), hw 15 (by decide)]
  have habsent : Code.absentHalf = 0xFFFF := rfl
  simp only [htorn, slotOf, hw (2 + 4 * b) (by omega), hw (3 + 4 * b) (by omega), hw (4 + 4 * b) (by omega),
    blockReasonOf_eq, startingSlot, faultyImage, habsent, gt_iff_lt]
  by_cases ht : byteNat (word 0) 0 = byteNat (word 15) 0
  · simp only [ht, bne_self_eq_false, Bool.false_or, Bool.false_eq_true, if_false]
    generalize byteNat (word (2 + 4 * b)) 0 = format
    generalize byteNat (word (2 + 4 * b)) 1 = code
    generalize byteNat (word (4 + 4 * b)) 0 = count
    generalize highHalf (word (2 + 4 * b)) = a
    by_cases hformat : 1 < format
    · simp [hformat, faultySlot, Slot.empty]
    by_cases hdepth : depth < count
    · simp [hformat, hdepth, faultySlot, Slot.empty]
    by_cases ha : a = 0xFFFF
    · by_cases hcount : 0 < count
      · simp [hformat, hdepth, ha, hcount, faultySlot, Slot.empty]
      · by_cases hcode : 4 < code
        · simp [hformat, hdepth, ha, hcount, hcode, faultySlot, Slot.empty]
        · obtain rfl := Nat.eq_zero_of_not_pos hcount
          simp [hformat, ha, hcode, Slot.empty]
    · cases hart : article a with
      | none => simp [hformat, hdepth, ha, hart, faultySlot, Slot.empty]
      | some x =>
        by_cases hcode : 4 < code
        · simp [hformat, hdepth, ha, hart, hcode, faultySlot, Slot.empty]
        · by_cases hcount : count = 0
          · simp [hformat, ha, hart, hcode, hcount, Slot.empty]
          · simp [hformat, hdepth, ha, hart, hcode, hcount, BitVec.getLsbD]
  · simp [ht, faultySlot, Slot.empty]

theorem startingSlot_incoming : (startingSlot depth article word b).incoming = 0 := by
  unfold startingSlot
  split
  · rfl
  · split
    · rfl
    · rfl

/-- The carrier that the record starts, its load not yet computed. -/
theorem imageCarrier_eq (hw : ∀ i, i < 16 → wordAt ws i = word i) :
    imageCarrier depth (fun a => (article a).isSome) ws = {
      suspect := byteNat (word 0) 0 == byteNat (word 15) 0 && (byteNat (word 0) 1).testBit 0
      auditWanted := byteNat (word 0) 0 == byteNat (word 15) 0 && (byteNat (word 0) 1).testBit 1
      faceOpen := false, frozen := false, load := 0
      bays := #v[startingSlot depth article word 0, startingSlot depth article word 1,
        startingSlot depth article word 2] } := by
  have hmarks : imageMarks ws = (byteNat (word 0) 0 == byteNat (word 15) 0 && (byteNat (word 0) 1).testBit 0,
      byteNat (word 0) 0 == byteNat (word 15) 0 && (byteNat (word 0) 1).testBit 1,
      byteNat (word 0) 0 == byteNat (word 15) 0 && (byteNat (word 0) 1).testBit 2) := by
    simp only [imageMarks, carrierTorn, hw 0 (by decide), hw 15 (by decide)]
    by_cases ht : byteNat (word 0) 0 = byteNat (word 15) 0
    · simp [ht]
    · simp [ht]
  have hbay {b : Nat} (hb : b < 3) : (((imageSlots depth (fun a => (article a).isSome) ws)[b]?).getD none).getD
      faultySlot = startingSlot depth article word b := by
    rw [← imageSlot_eq hw hb, imageSlots, List.getElem?_map, List.getElem?_range hb]
    rfl
  rw [imageCarrier, hmarks]
  dsimp only
  rw [hbay (by decide), hbay (by decide), hbay (by decide)]

end

/-! ## The carriers of the image -/

namespace State

variable {s : State}

/-- Word `i` of the image record of carrier `r`. -/
def carrierWord (s : State) (r i : Nat) : Word := Memory.readWord s.mem (s.base .carrier + 64 * r + 4 * i)

theorem imageWords_carrier (s : State) (r : Nat) {i : Nat} (hi : i < 16) :
    wordAt (s.imageWords (.carrier r) 16) i = s.carrierWord r i := wordAt_readWords _ _ hi

/-- Mark `i` of the image record of carrier `r`, where it is taken and not torn (R26). -/
def loadedMark (s : State) (good : Bool) (r i : Nat) : Bool :=
  (good && s.store.fitted (r / 24)) && !(byteNat (s.carrierWord r 0) 0 != byteNat (s.carrierWord r 15) 0) &&
    (byteNat (s.carrierWord r 0) 1).testBit i

/-- The slot that starts from the image record of carrier `r` (R26). -/
def loadedSlot (s : State) (good : Bool) (r b : Nat) : Slot :=
  if !(good && s.store.fitted (r / 24)) then ⟨none, none, none, 0, 0, 0⟩
  else startingSlot (s.store.cfg.carousel (r / 24)).bayDepth s.store.article (s.carrierWord r) b

theorem loadedSlot_incoming (good : Bool) (r b : Nat) : (s.loadedSlot good r b).incoming = 0 := by
  unfold loadedSlot
  split
  · rfl
  · exact startingSlot_incoming

/-- The nominal weight of one tyre of a slot. -/
def slotWeight (x : Store) (q : Slot) : Nat := ((q.article.bind x.article).map fun a => a.weight).getD 0

theorem slotLoad_eq (x : Store) {q : Slot} (h : q.incoming = 0) : x.slotLoad q = q.count * slotWeight x q := by
  unfold Store.slotLoad slotWeight Store.weightOf
  rw [h, Nat.add_zero]
  cases q.article with
  | none => rfl
  | some a => rfl

/-- A carrier as the load starts it. -/
theorem loadedCarrier_eq (s : State) (good : Bool) (r : Nat) : s.loadedCarrier good r = {
    suspect := s.loadedMark good r 0, auditWanted := s.loadedMark good r 1, faceOpen := false, frozen := false
    load := ((List.range 3).map fun b => (s.loadedSlot good r b).count * slotWeight s.store (s.loadedSlot good r b)).sum
    bays := #v[s.loadedSlot good r 0, s.loadedSlot good r 1, s.loadedSlot good r 2] } := by
  have hload : ((List.range 3).map fun b =>
        (s.loadedSlot good r b).count * slotWeight s.store (s.loadedSlot good r b)).sum =
      s.store.loadOf { Carrier.blank with
        bays := #v[s.loadedSlot good r 0, s.loadedSlot good r 1, s.loadedSlot good r 2] } := by
    simp only [← slotLoad_eq s.store (loadedSlot_incoming good r _)]
    rfl
  rw [hload]
  unfold loadedCarrier
  by_cases ht : (good && s.store.fitted (r / 24)) = true
  · rw [if_pos ht, imageCarrier_eq fun i hi => s.imageWords_carrier r hi]
    simp only [Store.reload, loadedMark, loadedSlot, ht]
    simp [bne, Store.loadOf]
  · simp only [loadedMark, loadedSlot, Bool.not_eq_true] at *
    simp [ht, Carrier.blank, Store.loadOf, Store.slotLoad, Slot.empty]

end State

end Sys2Proof.Machine

end

/-! # The audits that the load asks for (R26, R170) -/

section

namespace Sys2Proof.Machine

open Sys2Proof

/-- The entry of a carrier on which nothing is reserved, as it is created (R152, R154). -/
def freshEntry (o : AuditOrigin) (r : Nat) : AuditEntry where
  carousel := r / 24
  carrier := r % 24
  state := .ready
  origin := o
  bays := #v[⟨none, [], none⟩, ⟨none, [], none⟩, ⟨none, [], none⟩]

namespace Store

/-- Nothing is reserved and no carousel is in service. -/
structure Unused (s : Store) : Prop where
  reservations : s.reservations = []
  out : ∀ n, s.inService n = false

/-- Nothing but the carriers, the audits and the write-back list differs. -/
def Beside (base s : Store) : Prop := s = { base with
  carriers := s.carriers, audits := s.audits, auditList := s.auditList, writeBack := s.writeBack }

namespace Beside

variable {s t u : Store}

theorem refl (s : Store) : s.Beside s := rfl

theorem trans (h : s.Beside t) (k : t.Beside u) : s.Beside u := by
  unfold Beside at *
  rw [h] at k
  exact k

theorem list (s : Store) (r : ImageRecord) : s.Beside (s.list r) := by
  unfold Store.list
  split
  · rfl
  · rfl

theorem listAll (s : Store) (rs : List ImageRecord) : s.Beside (s.listAll rs) := by
  induction rs generalizing s with
  | nil => rfl
  | cons r rs ih => exact (list s r).trans (ih _)

theorem updCarrier (s : Store) (r : Nat) (g : Carrier → Carrier) : s.Beside (s.updCarrier r g) :=
  (show s.Beside (s.setCarrier r (g (s.carrier r))) from rfl).trans (list _ _)

end Beside

/-- The store `base` with the carriers `c` and with audits asked for on the carriers `es`, in this order: the first 16
have entries, with the origins `o`, and are frozen. -/
structure Asked (base : Store) (c : Nat → Carrier) (o : Nat → AuditOrigin) (es : List Nat) (s : Store) : Prop where
  beside : base.Beside s
  nodup : es.Nodup
  carriers : ∀ r, r < 96 → s.carrier r = { c r with frozen := (es.take 16).contains r }
  list : s.auditList = List.range (es.take 16).length
  listed : ∀ a r, (es.take 16)[a]? = some r → s.audit a = .listed (freshEntry (o r) r)
  free : ∀ a, (es.take 16).length ≤ a → s.audit a = .free

namespace Asked

variable {base s : Store} {c c' : Nat → Carrier} {o : Nat → AuditOrigin} {es : List Nat} {r : Nat}

theorem congr (h : Asked base c o es s) (hc : ∀ r, r < 96 → c' r = c r) : Asked base c' o es s :=
  { h with carriers := fun r hr => by rw [h.carriers r hr, hc r hr] }

theorem unused (h : Asked base c o es s) (hb : base.Unused) : s.Unused := by
  rw [h.beside]
  exact ⟨hb.reservations, hb.out⟩

theorem fitted (h : Asked base c o es s) (n : Nat) : s.fitted n = base.fitted n := by
  rw [h.beside]
  rfl

/-- A carrier changed, but for its freezing. -/
theorem upd (h : Asked base c o es s) {g : Carrier → Carrier} (hr : r < 96)
    (hg : ∀ y v, g { y with frozen := v } = { g y with frozen := v }) :
    Asked base (fun x => if x = r then g (c r) else c x) o es (s.updCarrier r g) where
  beside := h.beside.trans (.updCarrier _ _ _)
  nodup := h.nodup
  carriers x hx := by
    simp only [updCarrier, list_carriers, carrier, setCarrier_carriers, look_put]
    by_cases e : r = x
    · subst e
      rw [if_pos ⟨rfl, hr⟩, if_pos rfl, show look s.carriers Carrier.blank r = s.carrier r from rfl, h.carriers r hr,
        hg]
    · rw [if_neg fun he => e he.1, if_neg (Ne.symm e)]
      exact h.carriers x hx
  list := by
    rw [updCarrier, list_auditList]
    exact h.list
  listed a x hx := by
    rw [audit, updCarrier, list_audits]
    exact h.listed a x hx
  free a ha := by
    rw [audit, updCarrier, list_audits]
    exact h.free a ha

/-! ## An audit asked for -/

theorem entryFor_iff (h : Asked base c o es s) {a : Nat} : s.entryFor r a = true ↔ (es.take 16)[a]? = some r := by
  unfold entryFor entry
  cases hx : (es.take 16)[a]? with
  | none =>
    rw [h.free a (List.getElem?_eq_none_iff.mp hx)]
    simp
  | some x =>
    have hrec : recordOf (x / 24) (x % 24) = x := by
      unfold recordOf
      omega
    rw [h.listed a x hx]
    simp [freshEntry, hrec]

theorem entryOf_mem (h : Asked base c o es s) (hr : r ∈ es.take 16) : ∃ a, s.entryOf r = some a := by
  obtain ⟨a, ha⟩ := List.mem_iff_getElem?.mp hr
  refine Option.isSome_iff_exists.mp (List.find?_isSome.mpr ⟨a, ?_, h.entryFor_iff.mpr ha⟩)
  rw [h.list, List.mem_range]
  exact (List.getElem?_eq_some_iff.mp ha).1

theorem entryOf_not_mem (h : Asked base c o es s) (hr : r ∉ es.take 16) : s.entryOf r = none :=
  List.find?_eq_none.mpr fun _ _ ha => hr (List.mem_of_getElem? (h.entryFor_iff.mp ha))

theorem audit_ne_free (h : Asked base c o es s) {a : Nat} (ha : a < (es.take 16).length) : s.audit a ≠ .free := by
  rw [h.listed a _ (List.getElem?_eq_getElem ha)]
  exact nofun

theorem freeAudit_full (h : Asked base c o es s) (hl : 16 ≤ es.length) : s.freeAudit = none := by
  refine firstBelow_eq_none fun a ha hf => h.audit_ne_free ?_ (beq_iff_eq.mp hf)
  rw [List.length_take]
  omega

theorem freeAudit_next (h : Asked base c o es s) (hl : es.length < 16) : s.freeAudit = some es.length := by
  have htake : (es.take 16).length = es.length := by
    rw [List.length_take]
    omega
  refine firstBelow_eq_some hl (beq_iff_eq.mpr (h.free _ (by omega))) fun a ha hf => ?_
  exact h.audit_ne_free (htake ▸ ha) (beq_iff_eq.mp hf)

/-- What an entry created adds. -/
theorem created (h : Asked base c o es s) (hr : r < 96) (hnew : r ∉ es) (hl : es.length < 16) :
    Asked base c o (es ++ [r])
      (({ s.setAudit es.length (.listed (freshEntry (o r) r)) with auditList := s.auditList ++ [es.length] }).setFrozen
        r true) := by
  have hold : es.take 16 = es := List.take_of_length_le (by omega)
  have hall : (es ++ [r]).take 16 = es ++ [r] := List.take_of_length_le (by simp; omega)
  have haudit (a : Nat) : (({ s.setAudit es.length (.listed (freshEntry (o r) r)) with
      auditList := s.auditList ++ [es.length] } : Store).setFrozen r true).audit a =
      if a = es.length then .listed (freshEntry (o r) r) else s.audit a := by
    rw [audit, setFrozen, updCarrier, list_audits]
    show look (put s.audits es.length _) .free a = _
    rw [look_put]
    by_cases e : a = es.length
    · rw [if_pos ⟨e.symm, hl⟩, if_pos e]
    · rw [if_neg fun he => e he.1.symm, if_neg e]
      rfl
  constructor
  · exact (h.beside.trans (show s.Beside { s.setAudit es.length (.listed (freshEntry (o r) r)) with
      auditList := s.auditList ++ [es.length] } from rfl)).trans (.updCarrier _ _ _)
  · exact List.nodup_append.mpr ⟨h.nodup, List.pairwise_singleton _ _, fun a ha b hb => by
      rw [List.mem_singleton.mp hb]
      exact fun e => hnew (e ▸ ha)⟩
  · intro x hx
    have hc := h.carriers x hx
    rw [hold] at hc
    rw [hall, setFrozen, carrier, updCarrier, list_carriers, setCarrier_carriers, look_put]
    by_cases e : r = x
    · subst e
      rw [if_pos ⟨rfl, hr⟩]
      show { s.carrier r with frozen := true } = _
      rw [hc]
      simp
    · rw [if_neg fun he => e he.1]
      show s.carrier x = _
      rw [hc]
      simp [Ne.symm e]
  · rw [hall, setFrozen, updCarrier, list_auditList]
    show s.auditList ++ [es.length] = _
    rw [h.list, hold, List.length_append, List.length_singleton, List.range_succ]
  · intro a x hx
    rw [hall] at hx
    rw [haudit]
    by_cases e : a = es.length
    · subst e
      rw [if_pos rfl]
      simp only [List.getElem?_concat_length, Option.some.injEq] at hx
      rw [hx]
    · rw [if_neg e]
      refine h.listed a x ?_
      rw [hold]
      have hlt : a < es.length := by
        have := (List.getElem?_eq_some_iff.mp hx).1
        simp at this
        omega
      rwa [List.getElem?_append_left hlt] at hx
  · intro a ha
    rw [hall, List.length_append, List.length_singleton] at ha
    rw [haudit, if_neg (by omega)]
    exact h.free a (by rw [hold]; omega)

/-- An audit asked for again changes nothing. -/
theorem ask_again (h : Asked base c o es s) (hr : r ∈ es) (p : AuditOrigin) : (s.askAudit r p false).2 = s := by
  unfold askAudit
  by_cases hm : r ∈ es.take 16
  · obtain ⟨a, ha⟩ := h.entryOf_mem hm
    rw [ha]
  · have hl : 16 ≤ es.length := Nat.le_of_not_lt fun hl => hm (by rwa [List.take_of_length_le (by omega)])
    rw [h.entryOf_not_mem hm, h.freeAudit_full hl]

/-- An audit asked for on another carrier: it has an entry where a record is FREE. -/
theorem ask (h : Asked base c o es s) (hb : base.Unused) (hr : r < 96) (hnew : r ∉ es) :
    Asked base c o (es ++ [r]) (s.askAudit r (o r) false).2 ∧
      ((s.askAudit r (o r) false).1 = .full ↔ 16 ≤ es.length) := by
  have hu := h.unused hb
  have hentry := h.entryOf_not_mem (r := r) fun hm => hnew (List.mem_of_mem_take hm)
  unfold askAudit
  by_cases hl : 16 ≤ es.length
  · rw [hentry, h.freeAudit_full hl]
    have htake : (es ++ [r]).take 16 = es.take 16 := List.take_append_of_le_length hl
    refine ⟨⟨h.beside, ?_, ?_, ?_, ?_, ?_⟩, iff_of_true rfl hl⟩
    · exact List.nodup_append.mpr ⟨h.nodup, List.pairwise_singleton _ _, fun a ha b hb => by
        rw [List.mem_singleton.mp hb]
        exact fun e => hnew (e ▸ ha)⟩
    · rw [htake]
      exact h.carriers
    · rw [htake]
      exact h.list
    · rw [htake]
      exact h.listed
    · rw [htake]
      exact h.free
  · have hlt := Nat.lt_of_not_le hl
    have hready : s.newEntry r (o r) = freshEntry (o r) r := by
      have hdrained : s.hasDrained r = true := by
        simp [hasDrained, onCarrier, hu.reservations]
      simp only [newEntry, hdrained]
      rfl
    have hcreated := h.created hr hnew hlt
    have hstill := countingCheck_out ((hcreated.unused hb).out (r / 24))
    rw [hentry, h.freeAudit_next hlt]
    dsimp only
    rw [hready]
    refine ⟨?_, iff_of_false nofun hl⟩
    rw [if_neg Bool.false_ne_true, if_pos (show (freshEntry (o r) r).state = .ready from rfl), hstill]
    exact hcreated

/-! ## The three passes of the load -/

/-- A carrier whose audit the load asks for because its face was open, among the carriers `hs` so marked. -/
def heldOpen (c : Nat → Carrier) (hs : List Nat) (r : Nat) : Carrier :=
  { c r with suspect := (c r).suspect || hs.contains r, auditWanted := (c r).auditWanted || (hs.drop 16).contains r }

/-- A carrier given AUDIT_WANTED, among the carriers `ws`. -/
def givenWanted (c : Nat → Carrier) (ws : List Nat) (r : Nat) : Carrier :=
  { c r with auditWanted := (c r).auditWanted || ws.contains r }

theorem heldOpen_append (hnew : r ∉ es) {x : Nat} : heldOpen c (es ++ [r]) x =
    if x = r then { heldOpen c es r with
      suspect := true, auditWanted := (heldOpen c es r).auditWanted || decide (16 ≤ es.length) }
    else heldOpen c es x := by
  have hdrop : (es ++ [r]).drop 16 = es.drop 16 ++ [r].drop (16 - es.length) := List.drop_append
  have hnot : (es.drop 16).contains r = false := by
    rw [List.contains_eq_mem, decide_eq_false_iff_not]
    exact fun h => hnew (List.mem_of_mem_drop h)
  by_cases e : x = r
  · subst e
    rw [if_pos rfl]
    simp only [heldOpen, hdrop, hnot, List.contains_append]
    by_cases hl : 16 ≤ es.length
    · simp [hl]
    · have : [x].drop (16 - es.length) = [] := List.drop_eq_nil_of_le (by simp; omega)
      simp [hl, this]
  · rw [if_neg e]
    have hrest : ([r].drop (16 - es.length)).contains x = false := by
      rw [List.contains_eq_mem, decide_eq_false_iff_not]
      exact fun h => e (List.mem_singleton.mp (List.mem_of_mem_drop h))
    simp only [heldOpen, hdrop, List.contains_append, hrest]
    simp [e]

/-- The SUSPECT marking of one carrier (R9, R170). -/
theorem loadSuspect (h : Asked base (heldOpen c es) o es s) (hb : base.Unused) (hr : r < 96) (hnew : r ∉ es)
    (ho : o r = .suspect) :
    ((c r).suspect = true → s.loadSuspect r = s) ∧
      ((c r).suspect = false → Asked base (heldOpen c (es ++ [r])) o (es ++ [r]) (s.loadSuspect r)) := by
  have hsuspect : (s.carrier r).suspect = (c r).suspect := by
    rw [h.carriers r hr]
    simp [heldOpen, hnew]
  refine ⟨fun hs => if_pos (hsuspect.trans hs), fun hs => ?_⟩
  have hmarked := h.upd (g := fun x => { x with suspect := true }) hr fun _ _ => rfl
  obtain ⟨hask, hfull⟩ := hmarked.ask hb hr hnew
  rw [ho] at hask hfull
  unfold Store.loadSuspect
  rw [if_neg (by rw [hsuspect, hs]; exact Bool.false_ne_true)]
  split <;> rename_i heq <;> rw [heq] at hask hfull
  · have hl := hfull.mp rfl
    refine (hask.upd (g := fun x => { x with auditWanted := true }) hr fun _ _ => rfl).congr fun x _ => ?_
    rw [heldOpen_append hnew]
    by_cases e : x = r
    · simp [e, hl]
    · simp [e]
  all_goals
    have hl : ¬ 16 ≤ es.length := fun hl => nomatch hfull.mpr hl
    refine hask.congr fun x _ => ?_
    rw [heldOpen_append hnew]
    by_cases e : x = r
    · simp [e, hl]
    · simp [e]

theorem loadSuspects (hb : base.Unused) (xs : List Nat) (h : Asked base (heldOpen c es) o es s)
    (hlt : ∀ r ∈ xs, r < 96 ∧ o r = .suspect) (hnew : (es ++ xs).Nodup) :
    Asked base (heldOpen c (es ++ xs.filter fun r => !(c r).suspect)) o (es ++ xs.filter fun r => !(c r).suspect)
      (xs.foldl Store.loadSuspect s) := by
  induction xs generalizing es s with
  | nil =>
    rw [List.filter_nil, List.append_nil]
    exact h
  | cons r xs ih =>
    obtain ⟨hr, ho⟩ := hlt r (.head _)
    have hmem : r ∉ es := fun hm => (List.nodup_append.mp hnew).2.2 r hm r (.head _) rfl
    obtain ⟨hskip, hmark⟩ := h.loadSuspect hb hr hmem ho
    rw [List.foldl_cons]
    cases hs : (c r).suspect with
    | true =>
      rw [List.filter_cons_of_neg (by simp [hs]), hskip hs]
      exact ih h (fun x hx => hlt x (.tail _ hx))
        (hnew.sublist (List.Sublist.append_left (List.sublist_cons_self _ _) _))
    | false =>
      rw [List.filter_cons_of_pos (by simp [hs])]
      have hnext := ih (hmark hs) (fun x hx => hlt x (.tail _ hx)) (by simpa using hnew)
      simpa using hnext

theorem giveWanteds (xs : List Nat) (h : Asked base c o es s) (hlt : ∀ r ∈ xs, r < 96) :
    Asked base (givenWanted c xs) o es (xs.foldl Store.giveWanted s) := by
  induction xs generalizing c s with
  | nil => exact h.congr fun r _ => by simp [givenWanted]
  | cons r xs ih =>
    have hgive := h.upd (g := fun x => { x with auditWanted := true }) (hlt r (.head _)) fun _ _ => rfl
    refine (ih hgive fun x hx => hlt x (.tail _ hx)).congr fun x _ => ?_
    by_cases e : x = r
    · simp [givenWanted, e]
    · simp [givenWanted, e]

/-- The promotion of one carrier (R156). -/
theorem promoteOne (h : Asked base c o es s) (hb : base.Unused) (hr : r < 96)
    (ho : r ∉ es → (c r).auditWanted = true → o r = if (c r).suspect then .suspect else .shortPick)
    (hf : (c r).auditWanted = true → base.fitted (r / 24) = true) :
    Asked base c o (if (c r).auditWanted && !es.contains r then es ++ [r] else es) (s.promoteOne false r) := by
  have hcarrier := h.carriers r hr
  unfold Store.promoteOne
  dsimp only
  rw [hcarrier, h.fitted]
  dsimp only
  cases hw : (c r).auditWanted with
  | false =>
    simp only [Bool.and_false, Bool.false_and, Bool.false_eq_true, if_false]
    exact h
  | true =>
    rw [hf hw]
    by_cases hm : r ∈ es
    · simp only [Bool.and_true, if_true, List.contains_eq_mem, hm, decide_true, Bool.not_true, Bool.and_false,
        Bool.false_eq_true, if_false]
      rw [h.ask_again hm]
      exact h
    · simp only [Bool.and_true, if_true, List.contains_eq_mem, hm, decide_false, Bool.not_false]
      rw [← ho hm hw]
      exact (h.ask hb hr hm).1

/-- Promotion: the wanted carriers that have not been asked for follow, in their order (R156). -/
theorem promotes (hb : base.Unused) (xs : List Nat) (h : Asked base c o es s) (hd : xs.Nodup) (hlt : ∀ r ∈ xs, r < 96)
    (ho : ∀ r ∈ xs, r ∉ es → (c r).auditWanted = true → o r = if (c r).suspect then .suspect else .shortPick)
    (hf : ∀ r ∈ xs, (c r).auditWanted = true → base.fitted (r / 24) = true) :
    Asked base c o (es ++ xs.filter fun r => (c r).auditWanted && !es.contains r)
      (xs.foldl (Store.promoteOne false) s) := by
  induction xs generalizing es s with
  | nil =>
    rw [List.filter_nil, List.append_nil]
    exact h
  | cons r xs ih =>
    obtain ⟨hnot, hd⟩ := List.nodup_cons.mp hd
    have hone := h.promoteOne hb (hlt r (.head _)) (ho r (.head _)) (hf r (.head _))
    rw [List.foldl_cons]
    cases hp : (c r).auditWanted && !es.contains r with
    | false =>
      rw [List.filter_cons_of_neg (by simp only [hp, Bool.false_eq_true, not_false_eq_true])]
      rw [hp, if_neg Bool.false_ne_true] at hone
      exact ih hone hd (fun x hx => hlt x (.tail _ hx)) (fun x hx => ho x (.tail _ hx)) fun x hx => hf x (.tail _ hx)
    | true =>
      rw [List.filter_cons_of_pos (by exact hp)]
      rw [hp, if_pos rfl] at hone
      have hnext := ih hone hd (fun x hx => hlt x (.tail _ hx))
        (fun x hx hn => ho x (.tail _ hx) fun hm => hn (List.mem_append_left _ hm)) fun x hx => hf x (.tail _ hx)
      have hsame : (xs.filter fun x => (c x).auditWanted && !(es ++ [r]).contains x) =
          xs.filter fun x => (c x).auditWanted && !es.contains x := by
        refine List.filter_congr fun x hx => ?_
        have hne : x ≠ r := fun e => hnot (e ▸ hx)
        simp [hne]
      rw [hsame, List.append_assoc] at hnext
      exact hnext

/-- Listing records leaves it all. -/
theorem listAll (h : Asked base c o es s) (rs : List ImageRecord) : Asked base c o es (s.listAll rs) := by
  have hl := State.listAll_moves s rs
  have haudits : (s.listAll rs).audits = s.audits := hl.same (g := Store.audits) fun _ _ _ hp m => by
    subst hp
    cases m
    exact list_audits _ _
  refine ⟨h.beside.trans (.listAll _ _), h.nodup, fun r hr => ?_, ?_, fun a r ha => ?_, fun a ha => ?_⟩
  · rw [carrier, hl.carriers (by simp) (by simp) (by simp)]
    exact h.carriers r hr
  · rw [hl.auditLists (by simp)]
    exact h.list
  · rw [audit, haudits]
    exact h.listed a r ha
  · rw [audit, haudits]
    exact h.free a ha

end Asked

end Store

end Sys2Proof.Machine

end

/-! # CARRIER_IMAGE_LOAD (R26, R170, R194) -/

section

namespace Sys2Proof.Machine

open Sys2Proof

namespace State

variable {s t : State} {good : Bool}

/-! ## The carriers and the audits after the load -/

/-- The carriers whose face was open and that were not SUSPECT. -/
def heldRecords (s : State) (good : Bool) : List Nat :=
  (List.range 96).filter fun r => s.loadedMark good r 2 && !s.loadedMark good r 0

/-- The other carriers that an audit is owed. -/
def wantedRecords (s : State) (good : Bool) : List Nat :=
  (List.range 96).filter fun r => (s.loadedMark good r 0 || s.loadedMark good r 1) &&
    !(s.heldRecords good).contains r

/-- What an audit of the load is created for. -/
def loadOrigin (s : State) (good : Bool) (r : Nat) : AuditOrigin :=
  if s.loadedMark good r 0 || s.loadedMark good r 2 then .suspect else .shortPick

/-- The store with the carriers of the image. -/
def imageStore (s : State) (good : Bool) : Store :=
  { s.store with carriers := Vector.ofFn fun r : Fin 96 => s.loadedCarrier good r.val }

/-- A carrier after the load, but for its freezing. -/
def loadedAs (s : State) (good : Bool) (r : Nat) : Carrier :=
  { s.loadedCarrier good r with
    suspect := s.loadedMark good r 0 || s.loadedMark good r 2
    auditWanted := s.loadedMark good r 0 || s.loadedMark good r 1 || ((s.heldRecords good).drop 16).contains r }

theorem unused_of_untouched (h : s.store.Untouched) (good : Bool) : (s.imageStore good).Unused := by
  have hs : s.store = _ := h
  have hch (n : Nat) : (s.imageStore good).channel n = Channel.powerUp := by
    unfold imageStore
    rw [hs]
    exact Store.powerUp_channel n
  refine ⟨?_, fun n => ?_⟩
  · unfold imageStore
    rw [hs]
    rfl
  · rw [Store.inService, hch]
    rfl

theorem imageStore_carrier (s : State) (good : Bool) {r : Nat} (hr : r < 96) :
    (s.imageStore good).carrier r = s.loadedCarrier good r := look_ofFn _ _ hr

theorem asked_of_untouched (h : s.store.Untouched) (good : Bool) : Store.Asked (s.imageStore good)
    (Store.Asked.heldOpen (s.loadedCarrier good) []) (s.loadOrigin good) [] (s.imageStore good) := by
  have hs : s.store = _ := h
  refine ⟨.refl _, List.nodup_nil, fun r hr => ?_, ?_, fun a r ha => ?_, fun a _ => ?_⟩
  · rw [imageStore_carrier s good hr]
    simp [Store.Asked.heldOpen, loadedCarrier_eq]
  · unfold imageStore
    rw [hs]
    rfl
  · simp at ha
  · unfold imageStore
    rw [hs]
    exact Store.powerUp_audit a

theorem heldFaceOpen_eq (s : State) (good : Bool) (r : Nat) :
    (good && s.heldFaceOpen r) = s.loadedMark good r 2 := by
  unfold heldFaceOpen loadedMark imageMarks carrierTorn
  rw [imageWords_carrier s r (by decide), imageWords_carrier s r (by decide)]
  cases byteNat (s.carrierWord r 0) 0 != byteNat (s.carrierWord r 15) 0 <;> cases good <;> simp

theorem fitted_of_loadedMark {r i : Nat} (h : s.loadedMark good r i = true) : s.store.fitted (r / 24) = true := by
  simp only [loadedMark, Bool.and_eq_true] at h
  obtain ⟨⟨⟨-, hf⟩, -⟩, -⟩ := h
  exact hf

theorem mem_heldRecords {r : Nat} : r ∈ s.heldRecords good ↔
    r < 96 ∧ s.loadedMark good r 2 = true ∧ s.loadedMark good r 0 = false := by
  simp [heldRecords]

theorem loadedCarrier_suspect (s : State) (good : Bool) (r : Nat) :
    (s.loadedCarrier good r).suspect = s.loadedMark good r 0 := by rw [loadedCarrier_eq]

theorem loadedCarrier_wanted (s : State) (good : Bool) (r : Nat) :
    (s.loadedCarrier good r).auditWanted = s.loadedMark good r 1 := by rw [loadedCarrier_eq]

/-- The carriers that were SUSPECT without AUDIT_WANTED. -/
def owedRecords (s : State) (good : Bool) : List Nat :=
  (List.range 96).filter fun r => s.loadedMark good r 0 && !s.loadedMark good r 1

theorem loadedAs_eq {r : Nat} (hr : r < 96) : s.loadedAs good r = Store.Asked.givenWanted
    (Store.Asked.heldOpen (s.loadedCarrier good) (s.heldRecords good)) (s.owedRecords good) r := by
  have hheld : (s.heldRecords good).contains r = (s.loadedMark good r 2 && !s.loadedMark good r 0) := by
    rw [List.contains_eq_mem, Bool.eq_iff_iff, decide_eq_true_iff, mem_heldRecords]
    simp [hr]
  have howed : (s.owedRecords good).contains r = (s.loadedMark good r 0 && !s.loadedMark good r 1) := by
    rw [List.contains_eq_mem, Bool.eq_iff_iff, decide_eq_true_iff]
    simp [owedRecords, hr]
  simp only [loadedAs, Store.Asked.givenWanted, Store.Asked.heldOpen, loadedCarrier_suspect, loadedCarrier_wanted,
    hheld, howed]
  cases s.loadedMark good r 0 <;> cases s.loadedMark good r 1 <;> simp

theorem wantedRecords_eq (s : State) (good : Bool) : (List.range 96).filter (fun r => (s.loadedAs good r).auditWanted &&
    !(s.heldRecords good).contains r) = s.wantedRecords good := by
  refine List.filter_congr fun r _ => ?_
  by_cases hm : r ∈ s.heldRecords good
  · simp [hm]
  · have hdrop : ((s.heldRecords good).drop 16).contains r = false := by
      rw [List.contains_eq_mem, decide_eq_false_iff_not]
      exact fun h => hm (List.mem_of_mem_drop h)
    simp only [loadedAs, hdrop, Bool.or_false]

theorem fitted_of_loadedAs {r : Nat} (h : (s.loadedAs good r).auditWanted = true) :
    (s.imageStore good).fitted (r / 24) = true := by
  unfold Store.fitted imageStore
  change s.store.fitted (r / 24) = true
  simp only [loadedAs, Bool.or_eq_true] at h
  rcases h with (h | h) | h
  · exact fitted_of_loadedMark h
  · exact fitted_of_loadedMark h
  · rw [List.contains_eq_mem, decide_eq_true_iff] at h
    exact fitted_of_loadedMark (mem_heldRecords.mp (List.mem_of_mem_drop h)).2.1

/-- The load's passes, in order. -/
theorem loadedStore_eq (s : State) (good : Bool) : s.loadedStore good =
    ((List.range 96).foldl (Store.promoteOne false) ((s.owedRecords good).foldl Store.giveWanted
      (((List.range 96).filter fun r => s.loadedMark good r 2).foldl Store.loadSuspect (s.imageStore good)))).listAll
        ((List.range 96).map ImageRecord.carrier) := by
  have hopened : (List.range 96).filter (fun r => good && s.heldFaceOpen r) =
      (List.range 96).filter fun r => s.loadedMark good r 2 := List.filter_congr fun r _ => s.heldFaceOpen_eq good r
  have howed : (List.range 96).filter (fun r => ((s.imageStore good).carrier r).suspect &&
      !((s.imageStore good).carrier r).auditWanted) = s.owedRecords good := by
    refine List.filter_congr fun r hr => ?_
    rw [imageStore_carrier s good (List.mem_range.mp hr), loadedCarrier_suspect, loadedCarrier_wanted]
  rw [← hopened, ← howed]
  rfl

/-- The audits that the load asks for, and the carriers with them (R26, R170). -/
theorem loadedStore_asked (h : s.store.Untouched) (good : Bool) : Store.Asked (s.imageStore good) (s.loadedAs good)
    (s.loadOrigin good) (s.heldRecords good ++ s.wantedRecords good) (s.loadedStore good) := by
  have hu := unused_of_untouched h good
  have hheld : ((List.range 96).filter fun r => s.loadedMark good r 2).filter
      (fun r => !(s.loadedCarrier good r).suspect) = s.heldRecords good := by
    rw [List.filter_filter]
    refine List.filter_congr fun r _ => ?_
    rw [loadedCarrier_suspect, Bool.and_comm]
  have hsuspects := (asked_of_untouched h good).loadSuspects hu ((List.range 96).filter fun r => s.loadedMark good r 2)
    (fun r hr => ⟨List.mem_range.mp (List.mem_filter.mp hr).1, by
      rw [loadOrigin, (List.mem_filter.mp hr).2, Bool.or_true, if_pos rfl]⟩)
    (List.nodup_range.filter _)
  rw [hheld, List.nil_append] at hsuspects
  have hgiven := (hsuspects.giveWanteds (s.owedRecords good)
    fun r hr => List.mem_range.mp (List.mem_filter.mp hr).1).congr fun r hr => s.loadedAs_eq (good := good) hr
  have hpromoted := hgiven.promotes hu (List.range 96) List.nodup_range (fun r => List.mem_range.mp)
    (fun r _ _ _ => rfl) fun r _ => fitted_of_loadedAs
  rw [wantedRecords_eq] at hpromoted
  rw [loadedStore_eq]
  exact hpromoted.listAll _

/-! ## The part after the load -/

theorem listAll_alike (x : Store) (rs : List ImageRecord) : (x.listAll rs).Alike x := by
  induction rs generalizing x with
  | nil => exact .refl x
  | cons r rs ih => exact (ih (x.list r)).trans (.list x r)

/-- Whether the carrier image has its header (R26). -/
def carriersGood (s : State) : Bool := s.headerMatches Config.offCarrierHeader Config.carrierFormat

theorem carriersStore_alike (s : State) :
    s.carriersStore.Alike ((s.loadedStore s.carriersGood).powerUpValues s.gateLines) := listAll_alike _ _

/-- The blocks that the load does not fill. -/
theorem loadedStore_untouched (h : s.store.Untouched) (good : Bool) : s.loadedStore good = { Store.powerUp with
    cfg := s.store.cfg, articles := s.store.articles, notices := s.store.notices
    carriers := (s.loadedStore good).carriers, audits := (s.loadedStore good).audits
    auditList := (s.loadedStore good).auditList, writeBack := (s.loadedStore good).writeBack } := by
  have hb : s.loadedStore good = _ := (loadedStore_asked h good).beside
  have hs : s.store = _ := h
  generalize s.loadedStore good = u at hb ⊢
  unfold imageStore at hb
  rw [hs] at hb
  exact hb

/-- What the load has taken, once the other blocks have their power-up values. -/
theorem JobsAre.values {u : Store} {lines : Vector Bool 4} (h : t.JobsAre (u.powerUpValues lines)) :
    t.store = { u with
      lanes := t.store.lanes, panels := t.store.panels, channels := t.store.channels
      notices := t.store.notices, writeBack := t.store.writeBack } := by
  have ht : t.store = _ := h
  rw [ht]
  rfl

/-- The blocks that start empty. -/
structure StartsEmpty (x : Store) : Prop where
  faces : ∀ f, x.face f = Face.powerUp
  orders : ∀ k, x.order k = none
  batches : ∀ b, x.batch b = .free
  reservations : x.reservations = []
  waiting : x.waiting = []
  admission : x.admission = []

theorem StartsEmpty.powerUp : StartsEmpty Store.powerUp :=
  ⟨Store.powerUp_face, Store.powerUp_order, Store.powerUp_batch, rfl, rfl, rfl⟩

theorem StartsEmpty.of_eq {x y : Store} (h : StartsEmpty x) (hf : y.faces = x.faces) (ho : y.orders = x.orders)
    (hb : y.batches = x.batches) (hr : y.reservations = x.reservations) (hw : y.waiting = x.waiting)
    (ha : y.admission = x.admission) : StartsEmpty y where
  faces f := by
    rw [Store.face, hf]
    exact h.faces f
  orders k := by
    rw [Store.order, ho]
    exact h.orders k
  batches b := by
    rw [Store.batch, hb]
    exact h.batches b
  reservations := hr.trans h.reservations
  waiting := hw.trans h.waiting
  admission := ha.trans h.admission

theorem StartsEmpty.loadedStore (h : s.store.Untouched) (good : Bool) : StartsEmpty (s.loadedStore good) := by
  rw [loadedStore_untouched h good]
  exact StartsEmpty.powerUp.of_eq rfl rfl rfl rfl rfl rfl

theorem StartsEmpty.values {u : Store} {lines : Vector Bool 4} (hu : StartsEmpty u)
    (h : t.JobsAre (u.powerUpValues lines)) : StartsEmpty t.store := by
  rw [JobsAre.values h]
  exact hu.of_eq rfl rfl rfl rfl rfl rfl

theorem loadedStore_cfg_articles (h : s.store.Untouched) (good : Bool) :
    (s.loadedStore good).cfg = s.store.cfg ∧ (s.loadedStore good).articles = s.store.articles := by
  rw [loadedStore_untouched h good]
  exact ⟨rfl, rfl⟩

/-- The audits and the carriers stand through the power-up values. -/
theorem asked_values {base u : Store} {c : Nat → Carrier} {o : Nat → AuditOrigin} {es : List Nat}
    {lines : Vector Bool 4} (hu : Store.Asked base c o es u) (h : t.JobsAre (u.powerUpValues lines)) :
    (∀ r, r < 96 → t.store.carrier r = { c r with frozen := (es.take 16).contains r }) ∧
      t.store.auditList = List.range (es.take 16).length ∧
      (∀ a r, (es.take 16)[a]? = some r → t.store.audit a = .listed (freshEntry (o r) r)) ∧
      ∀ a, (es.take 16).length ≤ a → t.store.audit a = .free := by
  rw [JobsAre.values h]
  exact ⟨hu.carriers, hu.list, hu.listed, hu.free⟩

theorem articles_values {u : Store} {lines : Vector Bool 4} (h : t.JobsAre (u.powerUpValues lines)) :
    t.store.articles = u.articles := by
  rw [h.articles]
  rfl

theorem lane_values {u : Store} {lines : Vector Bool 4} (h : t.JobsAre (u.powerUpValues lines)) {l : Nat}
    (hl : l < 16) : t.store.lane l = Lane.powerUp (u.cfg.lane l).tare := by
  rw [h.lane]
  exact look_ofFn _ _ hl

theorem channel_values {u : Store} {lines : Vector Bool 4} (h : t.JobsAre (u.powerUpValues lines)) {n : Nat}
    (hn : n < 4) : t.store.channel n = { Channel.powerUp with
      gate := if u.fitted n && look lines true n then .closed else .opened } := by
  rw [h.channel]
  exact look_ofFn _ _ hn

theorem exec_carrierImageLoad (hc : s.path.condition = .loading .carriers)
    (hp : s.path.port = some ⟨.load .carriers, false⟩) :
    exec .carrierImageLoad s = .next s.carriersLoaded.claimStartWords.finish := by
  rw [← loadCarriers_eq]
  simp [exec, execCarrierImageLoad, loadingStage, hc, hp]

theorem carriersLoaded_settles (s : State) : s.carriersLoaded.claimStartWords.Settles
    s.carriersLoaded.claimStartWords.finish := finish_settles _

theorem startWords_owed (s : State) {x : Transfer} (h : x ∈ s.carriersLoaded.startWords) :
    s.carriersLoaded.claimStartWords.finish.owed x := by
  refine s.carriersLoaded_settles.owed x (.inl ?_)
  rw [show s.carriersLoaded.claimStartWords = _ from s.carriersLoaded.claimStartWords_claims]
  exact List.mem_append_right _ h

theorem resetWord_mem {x : Transfer} (h : x ∈ resetWords s.store.cfg) : x ∈ s.startWords := by
  unfold startWords
  rw [List.append_assoc, List.append_assoc]
  exact List.mem_append_left _ h

theorem resetWords_attention (c : Configuration) : resetWords c = [.intakeIndex 0 false, .produceIndex 0 false,
    .controlWord Config.offConsume 0, .controlWord Config.offAttention (if c.attention = 1 then 1 else 0)] := by
  unfold resetWords attentionWord Configuration.allowsAttention
  simp

theorem carrierHeader_mem (h : s.carriersGood = false) :
    .controlWord Config.offCarrierHeader (dataWord Config.carrierFormat) ∈ s.carriersLoaded.startWords := by
  refine List.mem_append_right _ ?_
  rw [show s.carriersLoaded.path.carriersDiscarded = !s.carriersGood from rfl, h, if_pos (by rfl)]
  exact List.mem_singleton.mpr rfl

theorem articleHeader_mem (h : s.path.articlesDiscarded = true) :
    .controlWord Config.offArticleHeader (dataWord Config.articleFormat) ∈ s.carriersLoaded.startWords := by
  refine List.mem_append_left _ (List.mem_append_right _ ?_)
  rw [show s.carriersLoaded.path.articlesDiscarded = s.path.articlesDiscarded from rfl, h, if_pos rfl]
  exact List.mem_singleton.mpr rfl

theorem claimStartWords_path (s : State) : s.claimStartWords.path = { s.path with
    claims := s.path.claims ++ s.startWords } := by
  rw [show s.claimStartWords = _ from s.claimStartWords_claims]

theorem claimStartWords_store (s : State) : s.claimStartWords.store = s.store := by
  rw [show s.claimStartWords = _ from s.claimStartWords_claims]

theorem carriersLoaded_mem (s : State) : s.carriersLoaded.mem = s.mem := by
  simp only [carriersLoaded]

theorem claimStartWords_mem (s : State) : s.claimStartWords.mem = s.mem := by
  rw [show s.claimStartWords = _ from s.claimStartWords_claims]

theorem faultyIn_eq (s : State) (good : Bool) (r : Nat) : s.faultyIn good r =
    (List.range 3).countP fun b => (s.loadedSlot good r b).blockReason == some .imageFault := by
  rw [faultyIn, loadedCarrier_eq]
  rfl

end State

end Sys2Proof.Machine

end

section

open Sys2Proof Sys2Proof.Machine

/-- Settles O32: each carrier starts from its record, the audits are asked for in the order of the passes, and the
blocks not of the image stand at their power-up values. -/
theorem carrierImageIsLoaded : Obligations.CarrierImageIsLoaded := by
  intro s hs hc hp good word taken torn mark code article count faulty reason slot weight held wanted entries
  have huntouched : s.store.Untouched := hs.blank .carriers hc nofun
  have hasked := State.loadedStore_asked huntouched good
  have hsettles := s.carriersLoaded_settles
  have hstore : s.carriersLoaded.claimStartWords.store = s.carriersStore :=
    s.carriersLoaded.claimStartWords_store.trans s.carriersLoaded_store
  have hjobs : s.carriersLoaded.claimStartWords.finish.JobsAre ((s.loadedStore good).powerUpValues s.gateLines) :=
    State.JobsAre.alike (x := s.carriersStore) (hstore ▸ hsettles.store) s.carriersStore_alike
  obtain ⟨hcarriers, hlist, hlisted, hfree⟩ := State.asked_values hasked hjobs
  have hempty := (State.StartsEmpty.loadedStore huntouched good).values hjobs
  obtain ⟨hcfg, harticles⟩ := State.loadedStore_cfg_articles huntouched good
  have hlanes {l : Nat} (hl : l < 16) := State.lane_values hjobs hl
  have hchannels {n : Nat} (hn : n < 4) := State.channel_values hjobs hn
  have hpath := s.carriersLoaded.claimStartWords_path
  have howed {x : Transfer} (hx : x ∈ s.carriersLoaded.startWords) := s.startWords_owed hx
  rw [hcfg] at hlanes
  refine ⟨_, State.exec_carrierImageLoad hc hp, ?_, fun r hr => ?_, hlist, fun a r ha => hlisted a r ha, hfree, ?_, ?_,
    fun l hl => hlanes hl, fun n hn => ?_, fun f _ => ?_, hempty.orders, hempty.batches, hempty.reservations,
    hempty.waiting, hempty.admission, fun x hx => ?_, howed ?_, howed ?_, howed ?_, howed ?_, howed ?_,
    fun hg => howed ?_, fun hd => howed ?_, ?_, ?_⟩
  · rw [hsettles.condition, hpath]
    rfl
  · refine (hcarriers r hr).trans ?_
    rw [State.loadedAs, State.loadedCarrier_eq]
    rfl
  · rw [hsettles.faultedRecords, hpath]
    exact congrArg List.sum (List.map_congr_left fun r _ => s.faultyIn_eq good r)
  · rw [hsettles.carriersDiscarded, hpath]
    exact (Bool.not_eq_true' _).to_iff
  · refine (hchannels hn).trans ?_
    rw [Store.fitted, hcfg]
  · exact congrArg Face.state (hempty.faces f)
  · refine hsettles.renewed x (.inl ?_)
    rw [hstore]
    exact Store.mem_listAll hx _
  · exact State.resetWord_mem (by simp [State.resetWords])
  · exact State.resetWord_mem (by simp [State.resetWords])
  · exact State.resetWord_mem (by simp [State.resetWords, Config.offConsume])
  · refine State.resetWord_mem ?_
    rw [State.carriersLoaded_store, State.carriersStore_cfg, State.resetWords_attention]
    simp [Config.offAttention]
  · simp [State.startWords, Config.offProbeSelect]
  · exact State.carrierHeader_mem hg
  · exact State.articleHeader_mem hd
  · exact (State.articles_values hjobs).trans harticles
  · rw [hsettles.mem, State.claimStartWords_mem, State.carriersLoaded_mem]

end

/-! # A slot under a claim (R15): what a claim of the Planner changes -/

section

namespace Sys2Proof.Machine

open Sys2Proof

/-- A slot a PUT claim is taken on: `k` tyres of the batch's article and lot week more are on their way to it. -/
def Slot.awaiting (x : Slot) (a w k : Nat) : Slot :=
  { x with incoming := x.incoming + k, article := some a, lotWeek := some w, reserved := 0 }

namespace Store

variable {s t u : Store} {q q' r : Nat}

/-! ## A slot change (R2, R5) -/

theorem changeSlot_carrier (s : Store) (q : Nat) (f : Slot → Slot) (r : Nat) :
    (s.changeSlot q f).carrier r = s.carrier r ∨
      slotRecord q = r ∧ (s.changeSlot q f).carrier r =
        s.reload (onBay (slotBay q) (fun x => (f x).settle) (s.carrier r)) := by
  simp only [changeSlot, carrier, updCarrier_carriers, look_put]
  split
  · next h => exact .inr ⟨h.1, by rw [h.1]⟩
  · exact .inl rfl

theorem changeSlot_marks (s : Store) (q : Nat) (f : Slot → Slot) (r : Nat) :
    ((s.changeSlot q f).carrier r).frozen = (s.carrier r).frozen ∧
      ((s.changeSlot q f).carrier r).suspect = (s.carrier r).suspect := by
  rcases s.changeSlot_carrier q f r with h | ⟨_, h⟩
  · rw [h]; exact ⟨rfl, rfl⟩
  · rw [h]; exact ⟨rfl, rfl⟩

theorem slot_changeSlot_other (h : q' ≠ q) (f : Slot → Slot) : (s.changeSlot q f).slot q' = s.slot q' := by
  rcases s.changeSlot_carrier q f (slotRecord q') with hc | ⟨hr, hc⟩
  · rw [slot, hc]; rfl
  · have hb : slotBay q ≠ slotBay q' := by
      unfold slotRecord at hr
      unfold slotBay
      omega
    rw [slot, hc]
    exact look_put_other _ _ _ _ _ hb

theorem slot_changeSlot_self (hq : q < 288) (f : Slot → Slot) :
    (s.changeSlot q f).slot q = (f (s.slot q)).settle := by
  have hrec : slotRecord q < 96 := by unfold slotRecord; omega
  have hbay : slotBay q < 3 := by unfold slotBay; omega
  simp only [slot, changeSlot, carrier, updCarrier_carriers, look_put_same _ _ _ _ hrec, reload, onBay,
    look_put_same _ _ _ _ hbay]

/-! ## What stands of a slot -/

/-- Slot `q` without what is reserved in it. -/
def bare (s : Store) (q : Nat) : Slot := { s.slot q with reserved := 0 }

theorem bare_of_standing (h : t.standing = s.standing) (q : Nat) : t.bare q = s.bare q := slot_of_standing h q

theorem carrier_suspect_of_standing (h : t.standing = s.standing) (r : Nat) :
    (t.carrier r).suspect = (s.carrier r).suspect := by
  have hc : (t.carrier r).standing = (s.carrier r).standing := by rw [← standing_carrier, ← standing_carrier, h]
  exact (congrArg Carrier.suspect hc :)

theorem slot_of_carriers (h : t.carriers = s.carriers) (q : Nat) : t.slot q = s.slot q := by
  rw [slot, slot, carrier, carrier, h]

/-! ## A claim taken -/

/-- A claim that is taken leaves standing what the change of its slot makes of a store with the same carriers. -/
theorem takeClaim_changes {claim : Claim} {k : Nat} {f : Slot → Slot} (h : s.takeClaim claim q k f = (.taken, t)) :
    ∃ u : Store, u.carriers = s.carriers ∧ t.standing = (u.changeSlot q f).standing := by
  unfold takeClaim at h
  split at h
  · next r _ =>
    obtain rfl := (Prod.mk.inj h).2
    exact ⟨s.raiseQuantity r.number k, rfl, rfl⟩
  · split at h
    · obtain rfl := (Prod.mk.inj h).2
      exact ⟨{ s with reservations := s.reservations ++ [⟨s.freeNumber, claim, q, k, .reserved⟩] }, rfl,
        standing_place _ _⟩
    · exact nomatch congrArg Prod.fst h

theorem takeClaim_taken (hl : s.reservations.length < 256) (claim : Claim) (q k : Nat) (f : Slot → Slot) :
    ∃ t, s.takeClaim claim q k f = (.taken, t) := by
  unfold takeClaim
  split
  · exact ⟨_, rfl⟩
  · rw [if_pos (show s.reservations.length < Config.reservationCapacity from hl)]
    exact ⟨_, rfl⟩

theorem takeClaim_other {claim : Claim} {k : Nat} {f : Slot → Slot} (h : s.takeClaim claim q k f = (.taken, t))
    (hq : q' ≠ q) : t.bare q' = s.bare q' := by
  obtain ⟨u, hu, ht⟩ := takeClaim_changes h
  rw [bare_of_standing ht, bare, slot_changeSlot_other hq, slot_of_carriers hu, bare]

theorem takeClaim_self {claim : Claim} {k : Nat} {f : Slot → Slot} (h : s.takeClaim claim q k f = (.taken, t))
    (hq : q < 288) : t.bare q = { (f (s.slot q)).settle with reserved := 0 } := by
  obtain ⟨u, hu, ht⟩ := takeClaim_changes h
  rw [bare_of_standing ht, bare, slot_changeSlot_self hq, slot_of_carriers hu]

theorem takeClaim_marks {claim : Claim} {k : Nat} {f : Slot → Slot} (h : s.takeClaim claim q k f = (.taken, t))
    (r : Nat) : (t.carrier r).frozen = (s.carrier r).frozen ∧ (t.carrier r).suspect = (s.carrier r).suspect := by
  obtain ⟨u, hu, ht⟩ := takeClaim_changes h
  have hc : u.carrier r = s.carrier r := by rw [carrier, carrier, hu]
  obtain ⟨hf, hs⟩ := u.changeSlot_marks q f r
  rw [carrier_frozen_of_standing ht, carrier_suspect_of_standing ht, hf, hs, hc]
  exact ⟨rfl, rfl⟩

/-! ## A PUT claim -/

theorem claimPut_allowed {b a w k : Nat} (h : s.putAllowed q a w k = true) :
    s.claimPut q b a w k = s.takeClaim (.put b) q k fun x =>
      { x with incoming := x.incoming + k, article := some a, lotWeek := some w } := if_pos h

theorem claimPut_refused {b a w k : Nat} (h : ¬ s.putAllowed q a w k = true) :
    s.claimPut q b a w k = (.refused, s) := if_neg h

theorem claimPut_self {b a w k : Nat} (h : s.claimPut q b a w k = (.taken, t)) (hq : q < 288) (hk : 1 ≤ k) :
    s.putAllowed q a w k = true ∧ t.bare q = (s.slot q).awaiting a w k := by
  by_cases hp : s.putAllowed q a w k = true
  · rw [claimPut_allowed hp] at h
    refine ⟨hp, (takeClaim_self h hq).trans ?_⟩
    unfold Slot.settle
    rw [if_neg (by dsimp only; omega)]
    rfl
  · rw [claimPut_refused hp] at h
    exact nomatch congrArg Prod.fst h

theorem claimPut_rest {b a w k : Nat} (h : s.claimPut q b a w k = (.taken, t)) :
    (∀ q', q' ≠ q → t.bare q' = s.bare q') ∧
      ∀ r, (t.carrier r).frozen = (s.carrier r).frozen ∧ (t.carrier r).suspect = (s.carrier r).suspect := by
  by_cases hp : s.putAllowed q a w k = true
  · rw [claimPut_allowed hp] at h
    exact ⟨fun q' => takeClaim_other h, takeClaim_marks h⟩
  · rw [claimPut_refused hp] at h
    exact nomatch congrArg Prod.fst h

/-! ## The OPEN batch -/

theorem openBatch_eq_some {b : Nat} {x : Batch} : s.openBatch b = some x ↔ s.batch b = .opened x := by
  unfold openBatch
  split
  · next y h => rw [h, Option.some.injEq, BatchRecord.opened.injEq]
  · next h => rw [h]; exact iff_of_false nofun nofun
  · next h => rw [h]; exact iff_of_false nofun nofun

theorem updBatch_opened {b : Nat} {x : Batch} (h : s.batch b = .opened x) (f : Batch → Batch) :
    s.updBatch b f = s.setBatch b (.opened (f x)) := by
  unfold updBatch
  rw [openBatch_eq_some.mpr h]

theorem updBatch_carriers (s : Store) (b : Nat) (f : Batch → Batch) : (s.updBatch b f).carriers = s.carriers := by
  unfold updBatch
  split
  · rfl
  · rfl

end Store

end Sys2Proof.Machine

end

/-! # A planning run (R122 to R125): the offers it makes and the slots it plans into -/

section

namespace Sys2Proof.Machine

open Sys2Proof

/-- What the planning runs of batch `b` touch. -/
@[simp] def Part.planningFor (b : Nat) : Part → Prop
  | .batch m => m = b
  | p => claiming Claim.IsPut p

theorem Part.planningFor_of_claiming {b : Nat} : ∀ p, claiming Claim.IsPut p → planningFor b p := by
  intro p h
  cases p <;> simp_all

namespace Store

variable {s t : Store} {q a w : Nat}

/-- A slot a planning run may choose: a top-up slot or an EMPTY one that fits (R124, R125). -/
def PutCandidate (s : Store) (a w q : Nat) : Prop := s.topUpCandidate a w q = true ∨ s.emptyCandidate a q = true

/-- What the choices of a planning run read of slot `q` is alike in two stores. -/
structure AlikeAt (s t : Store) (q : Nat) : Prop where
  slot : t.bare q = s.bare q
  fitted : t.fitted (slotCarousel q) = s.fitted (slotCarousel q)
  eligible : t.eligible q = s.eligible q
  depth : t.depthOf q = s.depthOf q
  fits : ∀ a, t.fits a q = s.fits a q

/-- What a run of claims keeps of the carriers' marks, the tables and the carousels in service. -/
structure KeepsMarks (s t : Store) : Prop where
  cfg : t.cfg = s.cfg
  articles : t.articles = s.articles
  inService : ∀ n, t.inService n = s.inService n
  marks : ∀ r, (t.carrier r).frozen = (s.carrier r).frozen ∧ (t.carrier r).suspect = (s.carrier r).suspect

theorem KeepsMarks.refl (s : Store) : s.KeepsMarks s := ⟨rfl, rfl, fun _ => rfl, fun _ => ⟨rfl, rfl⟩⟩

theorem KeepsMarks.trans {u : Store} (h : s.KeepsMarks t) (k : t.KeepsMarks u) : s.KeepsMarks u :=
  ⟨k.cfg.trans h.cfg, k.articles.trans h.articles, fun n => (k.inService n).trans (h.inService n), fun r =>
    ⟨(k.marks r).1.trans (h.marks r).1, (k.marks r).2.trans (h.marks r).2⟩⟩

theorem KeepsMarks.alike (h : s.KeepsMarks t) (hq : t.bare q = s.bare q) : s.AlikeAt t q where
  slot := hq
  fitted := by rw [fitted, fitted, h.cfg]
  eligible := by
    have hreason : (t.slot q).blockReason = (s.slot q).blockReason := (congrArg Slot.blockReason hq :)
    obtain ⟨hf, hs⟩ := h.marks (slotRecord q)
    rw [eligible, eligible, hf, hs, hreason, h.inService]
  depth := by rw [depthOf, depthOf, h.cfg]
  fits a := by rw [fits, fits, article, article, h.articles, h.cfg]

theorem AlikeAt.putCandidate (h : s.AlikeAt t q) : t.PutCandidate a w q ↔ s.PutCandidate a w q := by
  have hcount : (t.slot q).count = (s.slot q).count := (congrArg Slot.count h.slot :)
  have hin : (t.slot q).incoming = (s.slot q).incoming := (congrArg Slot.incoming h.slot :)
  have hart : (t.slot q).article = (s.slot q).article := (congrArg Slot.article h.slot :)
  have hlot : (t.slot q).lotWeek = (s.slot q).lotWeek := (congrArg Slot.lotWeek h.slot :)
  simp only [PutCandidate, topUpCandidate, emptyCandidate, h.fitted, h.eligible, h.depth, h.fits, hcount, hin, hart,
    hlot]

end Store

namespace Run

/-! ## One offer (R123) -/

/-- What an offer of a slot to a run comes to. -/
inductive Offered (b a w : Nat) (x : Run) (q : Nat) : Run → Prop where
  | left (stopped : Bool) : Offered b a w x q { x with tried := q :: x.tried, stopped := stopped }
  | taken (k : Nat) (hk : 1 ≤ k) (hr : k ≤ x.remaining) (t : Store)
      (ht : x.store.claimPut q b a w k = (.taken, t)) :
      Offered b a w x q
        { store := t.updBatch b fun y => { y with planned := y.planned + k }
          remaining := x.remaining - k, tried := q :: x.tried, stopped := false }

end Run

namespace Store

variable {s : Store} {q w n k : Nat}

theorem quantityAllowed_le (h : s.quantityAllowed q w n k = true) : k ≤ n := by
  simp only [quantityAllowed, Bool.and_eq_true, decide_eq_true_eq] at h
  exact h.1.1.1

/-- The quantity for a slot is the largest that is allowed, and 0 where none is (R123). -/
theorem quantityFor_spec (s : Store) (q w n : Nat) :
    (s.quantityFor q w n = 0 ∧ ∀ k, 1 ≤ k → k ≤ 12 → ¬ s.quantityAllowed q w n k = true) ∨
      (1 ≤ s.quantityFor q w n ∧ s.quantityFor q w n ≤ 12 ∧ s.quantityAllowed q w n (s.quantityFor q w n) = true ∧
        ∀ k, k ≤ 12 → s.quantityAllowed q w n k = true → k ≤ s.quantityFor q w n) := by
  unfold quantityFor
  rw [List.find?_map]
  cases hf : (List.range 12).find? (s.quantityAllowed q w n ∘ fun i => 12 - i) with
  | none =>
    refine .inl ⟨rfl, fun k hk hk' hall => ?_⟩
    have hno := List.find?_range_eq_none.mp hf (12 - k) (by omega)
    rw [Function.comp_apply, show 12 - (12 - k) = k by omega, hall] at hno
    exact nomatch hno
  | some i =>
    obtain ⟨hall, hi, hleast⟩ := List.find?_range_eq_some.mp hf
    have hi := List.mem_range.mp hi
    refine .inr ⟨?_, ?_, hall, fun k hk hk' => ?_⟩
    · simp only [Option.map_some, Option.getD_some]; omega
    · simp only [Option.map_some, Option.getD_some]; omega
    · simp only [Option.map_some, Option.getD_some]
      refine Classical.byContradiction fun hlt => ?_
      have hno := hleast (12 - k) (by omega)
      rw [Function.comp_apply, show 12 - (12 - k) = k by omega, hk'] at hno
      exact nomatch hno

end Store

namespace Run

variable {b a w : Nat} {x y z : Run}

theorem offer_spec (b a w : Nat) (x : Run) (q : Nat) : Offered b a w x q (offer b a w x q) := by
  simp only [offer]
  rcases x.store.quantityFor_spec q (x.store.weightOf a) x.remaining with ⟨h0, _⟩ | ⟨h1, _, hall, _⟩
  · rw [if_pos h0]
    exact .left x.stopped
  · rw [if_neg (by omega)]
    have hle := Store.quantityAllowed_le hall
    split
    · next t ht => exact .taken _ h1 hle t ht
    · exact .left true
    · exact .left x.stopped

theorem offer_tried (b a w : Nat) (x : Run) (q : Nat) : (offer b a w x q).tried = q :: x.tried := by
  generalize hz : offer b a w x q = z
  cases hz ▸ offer_spec b a w x q with
  | left => rfl
  | taken => rfl

/-! ## A run of offers -/

/-- Run `y` is reached from run `x` by offers of untried candidates. -/
inductive Goes (b a w : Nat) (x : Run) : Run → Prop where
  | refl : Goes b a w x x
  | offer {y : Run} (h : Goes b a w x y) (hr : y.remaining ≠ 0) (q : Nat) (hq : q < 288) (hn : q ∉ y.tried)
      (hc : y.store.PutCandidate a w q) : Goes b a w x (offer b a w y q)

theorem Goes.trans (h : Goes b a w x y) (k : Goes b a w y z) : Goes b a w x z := by
  induction k with
  | refl => exact h
  | offer _ hr q hq hn hc ih => exact ih.offer hr q hq hn hc

/-- Nothing is offered to a run that has nothing left to plan. -/
theorem Goes.stays (h : Goes b a w x y) (hx : x.remaining = 0) : y = x := by
  induction h with
  | refl => rfl
  | offer _ hr _ _ _ _ ih => rw [ih] at hr; exact absurd hx hr

/-- What offers make of slot `q`: nothing, or, where it was an untried candidate, tyres on their way to it. -/
def Planned (a w : Nat) (x y : Run) (q : Nat) : Prop :=
  y.store.bare q = x.store.bare q ∨
    q < 288 ∧ q ∉ x.tried ∧ q ∈ y.tried ∧ x.store.PutCandidate a w q ∧ ∃ k, 1 ≤ k ∧
      y.store.bare q = (x.store.slot q).awaiting a w k ∧
      (x.store.slot q).count + (x.store.slot q).incoming + k ≤ x.store.depthOf q

/-- What a run of offers for batch `b` keeps and changes. -/
structure Reaches (b a w : Nat) (x y : Run) : Prop where
  moves : Moves (Part.planningFor b) x.store y.store
  marks : x.store.KeepsMarks y.store
  tried : ∀ q, q ∈ x.tried → q ∈ y.tried
  slots : ∀ q, Planned a w x y q
  remaining : y.remaining ≤ x.remaining
  batch : ∀ z, b < 16 → x.store.batch b = .opened z →
    y.store.batch b = .opened { z with planned := z.planned + (x.remaining - y.remaining) }

theorem claimPut_keepsMarks {s t : Store} {q k : Nat} (h : s.claimPut q b a w k = (.taken, t)) :
    Moves (Part.planningFor b) s t ∧ s.KeepsMarks t := by
  have hm : Moves (Part.claiming Claim.IsPut) s t := by
    have hclaim := Store.claimPut_moves (K := Part.claiming Claim.IsPut) (s := s) (.any fun _ hp => hp)
      (b := b) trivial q a w k
    rwa [h] at hclaim
  exact ⟨hm.mono Part.planningFor_of_claiming, hm.cfg, hm.articles (by simp), hm.inService,
    (Store.claimPut_rest h).2⟩

theorem updBatch_bare (s : Store) (b : Nat) (f : Batch → Batch) (q : Nat) : (s.updBatch b f).bare q = s.bare q := by
  rw [Store.bare, Store.slot_of_carriers (Store.updBatch_carriers s b f), Store.bare]

theorem updBatch_keepsMarks (s : Store) (b : Nat) (f : Batch → Batch) : s.KeepsMarks (s.updBatch b f) := by
  have hm : Moves (Part.planningFor b) s (s.updBatch b f) := Store.updBatch_moves (by simp) s f
  refine ⟨hm.cfg, hm.articles (by simp), hm.inService, fun r => ?_⟩
  rw [Store.carrier, Store.updBatch_carriers]
  exact ⟨rfl, rfl⟩

theorem Reaches.refl (b a w : Nat) (x : Run) : Reaches b a w x x where
  moves := .refl _
  marks := .refl _
  tried _ h := h
  slots _ := .inl rfl
  remaining := Nat.le_refl _
  batch z _ h := by rw [h, Nat.sub_self, Nat.add_zero]

/-- An offer that is left changes the slots tried alone. -/
theorem Reaches.left (h : Reaches b a w x y) (q : Nat) (st : Bool) :
    Reaches b a w x { y with tried := q :: y.tried, stopped := st } where
  moves := h.moves
  marks := h.marks
  tried q' hq' := List.mem_cons_of_mem _ (h.tried q' hq')
  slots q' := (h.slots q').imp_right fun ⟨hq, hn, ht, hrest⟩ => ⟨hq, hn, List.mem_cons_of_mem _ ht, hrest⟩
  remaining := h.remaining
  batch := h.batch

/-- A slot that is untried still stands as it did. -/
theorem Reaches.untried (h : Reaches b a w x y) {q : Nat} (hq : q ∉ y.tried) : x.store.AlikeAt y.store q :=
  h.marks.alike ((h.slots q).resolve_right fun ⟨_, _, ht, _⟩ => hq ht)

/-- An offer that is taken plans into its slot. -/
theorem Reaches.taken (h : Reaches b a w x y) {q k : Nat} (hq : q < 288) (hn : q ∉ y.tried)
    (hc : y.store.PutCandidate a w q) (hk : 1 ≤ k) (hr : k ≤ y.remaining) {t : Store}
    (ht : y.store.claimPut q b a w k = (.taken, t)) :
    Reaches b a w x
      { store := t.updBatch b fun z => { z with planned := z.planned + k }
        remaining := y.remaining - k, tried := q :: y.tried, stopped := false } := by
  obtain ⟨hmoves, hmarks⟩ := claimPut_keepsMarks ht
  obtain ⟨hallowed, hself⟩ := Store.claimPut_self ht hq hk
  have hother := (Store.claimPut_rest ht).1
  have halike := h.untried hn
  have hupd : Moves (Part.planningFor b) t (t.updBatch b fun z => { z with planned := z.planned + k }) :=
    Store.updBatch_moves (by simp) t _
  refine ⟨(h.moves.trans hmoves).trans hupd, (h.marks.trans hmarks).trans (updBatch_keepsMarks _ _ _),
    fun q' hq' => List.mem_cons_of_mem _ (h.tried q' hq'), fun q' => ?_, Nat.le_trans (Nat.sub_le _ _) h.remaining,
    fun z hb hz => ?_⟩
  · unfold Planned
    simp only [updBatch_bare]
    by_cases he : q' = q
    · subst he
      have hcount : (y.store.slot q').count = (x.store.slot q').count := (congrArg Slot.count halike.slot :)
      have hin : (y.store.slot q').incoming = (x.store.slot q').incoming := (congrArg Slot.incoming halike.slot :)
      have hwait : (y.store.slot q').awaiting a w k = (x.store.slot q').awaiting a w k :=
        (congrArg (fun v : Slot => v.awaiting a w k) halike.slot :)
      simp only [Store.putAllowed, Bool.and_eq_true, decide_eq_true_eq] at hallowed
      refine .inr ⟨hq, fun hx => hn (h.tried _ hx), List.mem_cons_self, halike.putCandidate.mp hc, k, hk,
        hself.trans hwait, ?_⟩
      rw [← hcount, ← hin, ← halike.depth]
      exact hallowed.2
    · rw [hother q' he]
      exact (h.slots q').imp_right fun ⟨h1, h2, h3, h4⟩ => ⟨h1, h2, List.mem_cons_of_mem _ h3, h4⟩
  · have hsame : t.batch b = y.store.batch b := by
      have hclaim := Store.claimPut_moves (K := Part.claiming Claim.IsPut) (s := y.store) (.any fun _ hp => hp)
        (b := b) trivial q a w k
      rw [ht] at hclaim
      exact hclaim.batch (by simp)
    rw [Store.updBatch_opened (hsame.trans (h.batch z hb hz)), Store.setBatch_batch_self _ hb]
    have hle := h.remaining
    congr 2
    dsimp only
    omega

theorem Goes.reaches (h : Goes b a w x y) : Reaches b a w x y := by
  induction h with
  | refl => exact .refl b a w x
  | @offer y _ _ q hq hn hc ih =>
    generalize hz : Run.offer b a w y q = z
    cases hz ▸ offer_spec b a w y q with
    | left st => exact ih.left q st
    | taken k hk hr t ht => exact ih.taken hq hn hc hk hr ht

end Run

end Sys2Proof.Machine

end

/-! # The stages of a planning run: the slot its whole quantity is offered to first (R122 to R125) -/

section

namespace Sys2Proof.Machine

open Sys2Proof

namespace Store

variable {s : Store} {a w n q k : Nat}

/-- Whether slot `q` allows `k` of the `n` tyres a planning run has left, by the four conditions of the quantity rule
and the checks of the PUT claim (R15, R123). -/
def PutAllows (s : Store) (a w n q k : Nat) : Prop :=
  1 ≤ k ∧ k ≤ 12 ∧ s.quantityAllowed q (s.weightOf a) n k = true ∧ s.eligible q = true ∧ s.lotAllowed q a w = true

theorem PutAllows.putAllowed (h : s.PutAllows a w n q k) : s.putAllowed q a w k = true := by
  obtain ⟨h1, h12, hq, he, hl⟩ := h
  simp only [quantityAllowed, Bool.and_eq_true, decide_eq_true_eq] at hq
  obtain ⟨⟨⟨_, hdepth⟩, _⟩, _⟩ := hq
  simp only [Store.putAllowed, Bool.and_eq_true, decide_eq_true_eq, he, hl, true_and]
  exact ⟨inRange_iff.mpr ⟨h1, h12⟩, by omega⟩

theorem putAllows_of_putAllowed (h : s.putAllowed q a w k = true) (hk : 1 ≤ k ∧ k ≤ 12)
    (hq : s.quantityAllowed q (s.weightOf a) n k = true) : s.PutAllows a w n q k := by
  simp only [putAllowed, Bool.and_eq_true] at h
  obtain ⟨⟨⟨he, hl⟩, _⟩, _⟩ := h
  exact ⟨hk.1, hk.2, hq, he, hl⟩

/-- Of the quantities a slot allows one is the largest. -/
theorem PutAllows.largest (h : s.PutAllows a w n q k) :
    ∃ j, k ≤ j ∧ s.PutAllows a w n q j ∧ ∀ i, s.PutAllows a w n q i → i ≤ j := by
  obtain ⟨h1, h12, hq, he, hl⟩ := h
  rcases s.quantityFor_spec q (s.weightOf a) n with ⟨_, hno⟩ | ⟨g1, g12, hg, hle⟩
  · exact absurd hq (hno k h1 h12)
  · exact ⟨_, hle k h12 hq, ⟨g1, g12, hg, he, hl⟩, fun i ⟨_, i12, hi, _⟩ => hle i i12 hi⟩

/-- The largest quantity a slot allows is the quantity for it. -/
theorem PutAllows.quantityFor (h : s.PutAllows a w n q k) (hmax : ∀ j, s.PutAllows a w n q j → j ≤ k) :
    s.quantityFor q (s.weightOf a) n = k := by
  obtain ⟨h1, h12, hq, he, hl⟩ := h
  rcases s.quantityFor_spec q (s.weightOf a) n with ⟨_, hno⟩ | ⟨g1, g12, hg, hle⟩
  · exact absurd hq (hno k h1 h12)
  · exact Nat.le_antisymm (hmax _ ⟨g1, g12, hg, he, hl⟩) (hle k h12 hq)

end Store

namespace Run

variable {b a w n q k : Nat} {s : Store} {x : Run}

/-! ## A whole quantity offered -/

/-- An offer of a slot that allows nothing is left. -/
theorem offer_nothing (h : ∀ k, ¬ s.PutAllows a w n q k) (ts : List Nat) :
    offer b a w ⟨s, n, ts, false⟩ q = ⟨s, n, q :: ts, false⟩ := by
  simp only [offer]
  rcases s.quantityFor_spec q (s.weightOf a) n with ⟨h0, _⟩ | ⟨h1, h12, hall, _⟩
  · rw [if_pos h0]
  · have hp : ¬ s.putAllowed q a w (s.quantityFor q (s.weightOf a) n) = true := fun hp =>
      h _ (Store.putAllows_of_putAllowed hp ⟨h1, h12⟩ hall)
    rw [if_neg (by omega), Store.claimPut_refused hp]

/-- An offer of a slot takes the largest quantity it allows. -/
theorem offer_largest (h : s.PutAllows a w n q k) (hmax : ∀ j, s.PutAllows a w n q j → j ≤ k)
    (hl : s.reservations.length < 256) (ts : List Nat) :
    ∃ t, s.claimPut q b a w k = (.taken, t) ∧ offer b a w ⟨s, n, ts, false⟩ q =
      { store := t.updBatch b fun y => { y with planned := y.planned + k }
        remaining := n - k, tried := q :: ts, stopped := false } := by
  obtain ⟨t, ht⟩ := Store.takeClaim_taken hl (.put b) q k fun x =>
    { x with incoming := x.incoming + k, article := some a, lotWeek := some w }
  have hclaim := (Store.claimPut_allowed h.putAllowed).trans ht
  have h1 : 1 ≤ k := h.1
  refine ⟨t, hclaim, ?_⟩
  simp only [offer]
  rw [h.quantityFor hmax, if_neg (by omega), hclaim]

/-! ## The top-up stage (R124) -/

/-- One slot of the top-up stage. -/
def topUpStep (b a w : Nat) (x : Run) (q : Nat) : Run :=
  if x.goesOn && x.store.topUpCandidate a w q then offer b a w x q else x

theorem topUp_eq (b a w : Nat) (x : Run) : topUp b a w x = (List.range 288).foldl (topUpStep b a w) x := rfl

theorem topUpStep_goes (hq : q < 288) (hn : q ∉ x.tried) : Goes b a w x (topUpStep b a w x q) := by
  unfold topUpStep
  split
  · next h =>
    simp only [goesOn, Bool.and_eq_true, decide_eq_true_eq] at h
    obtain ⟨⟨hr, _⟩, hc⟩ := h
    exact Goes.refl.offer (by omega) q hq hn (.inl hc)
  · exact .refl

theorem topUpStep_tried {q' : Nat} (h : q' ∈ (topUpStep b a w x q).tried) : q' = q ∨ q' ∈ x.tried := by
  unfold topUpStep at h
  split at h
  · rw [offer_tried] at h
    exact List.mem_cons.mp h
  · exact .inr h

theorem topUpSteps_goes {qs : List Nat} (hd : qs.Nodup) (hq : ∀ q ∈ qs, q < 288 ∧ q ∉ x.tried) :
    Goes b a w x (qs.foldl (topUpStep b a w) x) := by
  induction qs generalizing x with
  | nil => exact .refl
  | cons q qs ih =>
    obtain ⟨hnew, hd⟩ := List.nodup_cons.mp hd
    obtain ⟨hlt, hn⟩ := hq q List.mem_cons_self
    refine (topUpStep_goes hlt hn).trans (ih hd fun q' hq' => ?_)
    obtain ⟨hlt', hn'⟩ := hq q' (List.mem_cons_of_mem _ hq')
    exact ⟨hlt', fun ht => (topUpStep_tried ht).elim (fun e => hnew (e ▸ hq')) hn'⟩

theorem topUp_goes (hx : x.tried = []) : Goes b a w x (topUp b a w x) :=
  topUpSteps_goes List.nodup_range fun q hq => ⟨List.mem_range.mp hq, by simp [hx]⟩

/-- Top-up slots that allow nothing are tried, and no others. -/
theorem topUpSteps_nothing {qs : List Nat}
    (h : ∀ q ∈ qs, s.topUpCandidate a w q = true → ∀ k, ¬ s.PutAllows a w n q k) (ts : List Nat) :
    ∃ ts', qs.foldl (topUpStep b a w) ⟨s, n, ts, false⟩ = ⟨s, n, ts', false⟩ ∧
      ∀ q ∈ ts', q ∈ ts ∨ q ∈ qs ∧ s.topUpCandidate a w q = true := by
  induction qs generalizing ts with
  | nil => exact ⟨ts, rfl, fun q hq => .inl hq⟩
  | cons q qs ih =>
    have hstep : ∃ ts', topUpStep b a w ⟨s, n, ts, false⟩ q = ⟨s, n, ts', false⟩ ∧
        ∀ q' ∈ ts', q' ∈ ts ∨ q' = q ∧ s.topUpCandidate a w q = true := by
      unfold topUpStep
      split
      · next hc =>
        have hc : s.topUpCandidate a w q = true := (Bool.and_eq_true_iff.mp hc).2
        refine ⟨q :: ts, offer_nothing (h q List.mem_cons_self hc) ts, fun q' hq' => ?_⟩
        exact (List.mem_cons.mp hq').elim (fun e => .inr ⟨e, hc⟩) .inl
      · exact ⟨ts, rfl, fun q' hq' => .inl hq'⟩
    obtain ⟨us, hus, hmem⟩ := hstep
    obtain ⟨vs, hvs, hmem'⟩ := ih (fun q' hq' => h q' (List.mem_cons_of_mem _ hq')) us
    refine ⟨vs, by rw [List.foldl_cons, hus, hvs], fun q' hq' => ?_⟩
    rcases hmem' q' hq' with hu | ⟨hm, hc⟩
    · exact (hmem q' hu).imp_right fun ⟨e, hc⟩ => ⟨e ▸ List.mem_cons_self, e ▸ hc⟩
    · exact .inr ⟨List.mem_cons_of_mem _ hm, hc⟩

/-- The whole quantity is offered to the first top-up slot below which none allows any. -/
theorem topUp_first (hn : n ≠ 0) (hq : q < 288) (hc : s.topUpCandidate a w q = true)
    (hlow : ∀ q', q' < q → s.topUpCandidate a w q' = true → ∀ k, ¬ s.PutAllows a w n q' k) :
    ∃ ts, q ∉ ts ∧ Goes b a w (offer b a w ⟨s, n, ts, false⟩ q) (topUp b a w ⟨s, n, [], false⟩) := by
  obtain ⟨ls, rs, hsplit⟩ := List.append_of_mem (List.mem_range.mpr hq)
  have hpair : (ls ++ q :: rs).Pairwise (· < ·) := hsplit ▸ List.pairwise_lt_range
  obtain ⟨_, hcons, hacross⟩ := List.pairwise_append.mp hpair
  obtain ⟨habove, hrs⟩ := List.pairwise_cons.mp hcons
  have hbelow : ∀ q' ∈ ls, q' < q := fun q' hq' => hacross q' hq' q List.mem_cons_self
  obtain ⟨ts, hts, hmem⟩ := topUpSteps_nothing (b := b) (qs := ls) (fun q' hq' => hlow q' (hbelow q' hq')) []
  have hts_lt : ∀ q' ∈ ts, q' < q := fun q' hq' => ((hmem q' hq').resolve_left nofun).1 |> hbelow q'
  refine ⟨ts, fun h => absurd (hts_lt q h) (Nat.lt_irrefl q), ?_⟩
  have hstep : topUpStep b a w ⟨s, n, ts, false⟩ q = offer b a w ⟨s, n, ts, false⟩ q :=
    if_pos (by simp only [goesOn, hc, Bool.not_false, Bool.and_true, decide_eq_true_eq]; omega)
  rw [topUp_eq, hsplit, List.foldl_append, hts, List.foldl_cons, hstep]
  refine topUpSteps_goes (hrs.imp fun h => Nat.ne_of_lt h) fun q' hq' => ⟨?_, fun ht => ?_⟩
  · exact List.mem_range.mp (hsplit ▸ List.mem_append_right _ (List.mem_cons_of_mem _ hq'))
  · have hgt := habove q' hq'
    rw [offer_tried] at ht
    rcases List.mem_cons.mp ht with he | ht
    · omega
    · have := hts_lt q' ht
      omega

end Run

/-! ## The least of a list of slots by a key -/

/-- The better of the best slot so far and the next: the one with the lower key, the first met on a tie. -/
def leastBy (key : Nat → Nat) (best : Option Nat) (q : Nat) : Option Nat :=
  match best with
  | none => some q
  | some b => if key q < key b then some q else some b

/-- Slot `q` comes no later than slot `q'`: its key is lower, or the keys are alike and its number is not the higher. -/
def NoLater (key : Nat → Nat) (q q' : Nat) : Prop := key q < key q' ∨ key q = key q' ∧ q ≤ q'

theorem foldl_leastBy (key : Nat → Nat) (q : Nat) (qs : List Nat) (h : (q :: qs).Pairwise (· < ·)) :
    ∃ r, qs.foldl (leastBy key) (some q) = some r ∧ r ∈ q :: qs ∧ ∀ q' ∈ q :: qs, NoLater key r q' := by
  induction qs generalizing q with
  | nil =>
    refine ⟨q, rfl, List.mem_cons_self, fun q' hq' => ?_⟩
    rw [List.mem_singleton.mp hq']
    exact .inr ⟨rfl, Nat.le_refl _⟩
  | cons c qs ih =>
    obtain ⟨hlt, htail⟩ := List.pairwise_cons.mp h
    have hqc : q < c := hlt c List.mem_cons_self
    rw [List.foldl_cons]
    by_cases hl : key c < key q
    · obtain ⟨r, hr, hmem, hbest⟩ := ih c htail
      refine ⟨r, by rw [leastBy, if_pos hl, hr], List.mem_cons_of_mem _ hmem, fun q' hq' => ?_⟩
      rcases List.mem_cons.mp hq' with rfl | hq'
      · have := hbest c List.mem_cons_self
        unfold NoLater at this ⊢
        omega
      · exact hbest q' hq'
    · have hskip : (q :: qs).Pairwise (· < ·) :=
        List.pairwise_cons.mpr ⟨fun q' hq' => hlt q' (List.mem_cons_of_mem _ hq'), (List.pairwise_cons.mp htail).2⟩
      obtain ⟨r, hr, hmem, hbest⟩ := ih q hskip
      refine ⟨r, by rw [leastBy, if_neg hl, hr], ?_, fun q' hq' => ?_⟩
      · rcases List.mem_cons.mp hmem with rfl | hmem
        · exact List.mem_cons_self
        · exact List.mem_cons_of_mem _ (List.mem_cons_of_mem _ hmem)
      · rcases List.mem_cons.mp hq' with rfl | hq'
        · exact hbest _ List.mem_cons_self
        · rcases List.mem_cons.mp hq' with rfl | hq'
          · have := hbest q List.mem_cons_self
            unfold NoLater at this ⊢
            omega
          · exact hbest q' (List.mem_cons_of_mem _ hq')

/-! ## The empty-slot stage (R125) -/

namespace Store

variable {s : Store} {a q : Nat}

/-- Slot `q` comes before slot `q'` in the empty-slot stage: its carrier is lighter, or the load is the same and its
number is not the higher. -/
def Before (s : Store) (q q' : Nat) : Prop := NoLater s.slotCarrierLoad q q'

theorem lighter_eq (s : Store) : s.lighter = leastBy s.slotCarrierLoad := by
  funext best q
  cases best with
  | none => rfl
  | some b => rfl

theorem foldl_lighter (s : Store) (q : Nat) (qs : List Nat) (h : (q :: qs).Pairwise (· < ·)) :
    ∃ r, qs.foldl s.lighter (some q) = some r ∧ r ∈ q :: qs ∧ ∀ q' ∈ q :: qs, s.Before r q' := by
  rw [lighter_eq]
  exact foldl_leastBy _ q qs h

/-- The EMPTY slots that fit and are untried, in ascending order. -/
def emptyLeft (s : Store) (a : Nat) (tried : List Nat) : List Nat :=
  (List.range 288).filter fun q => !tried.contains q && s.emptyCandidate a q

theorem mem_emptyLeft {ts : List Nat} : q ∈ s.emptyLeft a ts ↔ q < 288 ∧ q ∉ ts ∧ s.emptyCandidate a q = true := by
  simp [emptyLeft]

theorem emptyLeft_cons (ts : List Nat) : s.emptyLeft a (q :: ts) = (s.emptyLeft a ts).filter (· != q) := by
  rw [emptyLeft, emptyLeft, List.filter_filter]
  refine List.filter_congr fun x _ => ?_
  rw [List.contains_cons, Bool.not_or, Bool.and_assoc]
  rfl

theorem emptyLeft_length_lt {ts : List Nat} (h : q ∈ s.emptyLeft a ts) :
    (s.emptyLeft a (q :: ts)).length < (s.emptyLeft a ts).length := by
  rw [emptyLeft_cons]
  exact List.length_filter_lt_length_iff_exists.mpr ⟨q, h, by simp⟩

theorem chooseEmpty_eq (s : Store) (a : Nat) (ts : List Nat) :
    s.chooseEmpty a ts = (s.emptyLeft a ts).foldl s.lighter none := rfl

/-- The choice is an untried EMPTY slot that fits, before every other in the stage's order. -/
theorem chooseEmpty_some {ts : List Nat} (h : s.chooseEmpty a ts = some q) :
    q ∈ s.emptyLeft a ts ∧ ∀ q' ∈ s.emptyLeft a ts, s.Before q q' := by
  have hpair : (s.emptyLeft a ts).Pairwise (· < ·) := List.pairwise_lt_range.filter _
  rw [chooseEmpty_eq] at h
  cases hl : s.emptyLeft a ts with
  | nil => rw [hl] at h; exact nomatch h
  | cons c cs =>
    rw [hl] at h hpair
    obtain ⟨r, hr, hmem, hbest⟩ := s.foldl_lighter c cs hpair
    obtain rfl : r = q := Option.some.inj (hr.symm.trans h)
    exact ⟨hmem, hbest⟩

theorem chooseEmpty_none {ts : List Nat} (h : s.chooseEmpty a ts = none) : s.emptyLeft a ts = [] := by
  have hpair : (s.emptyLeft a ts).Pairwise (· < ·) := List.pairwise_lt_range.filter _
  rw [chooseEmpty_eq] at h
  cases hl : s.emptyLeft a ts with
  | nil => rfl
  | cons c cs =>
    rw [hl] at h hpair
    obtain ⟨r, hr, _⟩ := s.foldl_lighter c cs hpair
    exact nomatch hr.symm.trans h

end Store

namespace Run

variable {b a w n q k : Nat} {s : Store} {x : Run}

theorem fillEmpty_goes (m : Nat) : Goes b a w x (fillEmpty b a w m x) := by
  induction m generalizing x with
  | zero => exact .refl
  | succ m ih =>
    unfold fillEmpty
    split
    · next hg =>
      split
      · exact .refl
      · next q hq =>
        simp only [goesOn, Bool.and_eq_true, decide_eq_true_eq] at hg
        obtain ⟨hlt, hnew, hc⟩ := Store.mem_emptyLeft.mp (Store.chooseEmpty_some hq).1
        exact (Goes.refl.offer (by omega) q hlt hnew (.inr hc)).trans ih
    · exact .refl

theorem fillEmpty_step (hn : n ≠ 0) {ts : List Nat} (h : s.chooseEmpty a ts = some q) (m : Nat) :
    fillEmpty b a w (m + 1) ⟨s, n, ts, false⟩ = fillEmpty b a w m (offer b a w ⟨s, n, ts, false⟩ q) := by
  have hg : goesOn ⟨s, n, ts, false⟩ = true := by
    simp only [goesOn, Bool.not_false, Bool.and_true, decide_eq_true_eq]; omega
  rw [fillEmpty, if_pos hg]
  dsimp only
  rw [h]

/-- EMPTY slots that allow nothing plan nothing. -/
theorem fillEmpty_nothing (m : Nat) (ts : List Nat)
    (h : ∀ q ∈ s.emptyLeft a ts, ∀ k, ¬ s.PutAllows a w n q k) :
    ∃ ts', fillEmpty b a w m ⟨s, n, ts, false⟩ = ⟨s, n, ts', false⟩ := by
  induction m generalizing ts with
  | zero => exact ⟨ts, rfl⟩
  | succ m ih =>
    by_cases hn : n = 0
    · exact ⟨ts, by rw [fillEmpty, if_neg (by simp [goesOn, hn])]⟩
    · cases hc : s.chooseEmpty a ts with
      | none =>
        refine ⟨ts, ?_⟩
        unfold fillEmpty
        split
        · dsimp only; rw [hc]
        · rfl
      | some q =>
        have hq := (Store.chooseEmpty_some hc).1
        rw [fillEmpty_step hn hc, offer_nothing (h q hq)]
        exact ih _ fun q' hq' => h q' (by rw [Store.emptyLeft_cons] at hq'; exact (List.mem_filter.mp hq').1)

/-- The whole quantity is offered to the EMPTY slot before which none allows any. -/
theorem fillEmpty_first (hn : n ≠ 0) (m : Nat) (ts : List Nat) (hm : (s.emptyLeft a ts).length ≤ m)
    (hq : q ∈ s.emptyLeft a ts)
    (hfirst : ∀ q' ∈ s.emptyLeft a ts, q' ≠ q → s.Before q' q → ∀ k, ¬ s.PutAllows a w n q' k) :
    ∃ ts', q ∉ ts' ∧ Goes b a w (offer b a w ⟨s, n, ts', false⟩ q) (fillEmpty b a w m ⟨s, n, ts, false⟩) := by
  induction m generalizing ts with
  | zero => exact absurd (List.length_pos_of_mem hq) (by omega)
  | succ m ih =>
    cases hc : s.chooseEmpty a ts with
    | none => rw [Store.chooseEmpty_none hc] at hq; exact nomatch hq
    | some r =>
      obtain ⟨hr, hbest⟩ := Store.chooseEmpty_some hc
      rw [fillEmpty_step hn hc]
      by_cases he : r = q
      · subst he
        exact ⟨ts, (Store.mem_emptyLeft.mp hq).2.1, fillEmpty_goes m⟩
      · have hlt := Store.emptyLeft_length_lt hr
        have hsub : ∀ q' ∈ s.emptyLeft a (r :: ts), q' ∈ s.emptyLeft a ts := fun q' hq' => by
          rw [Store.emptyLeft_cons] at hq'
          exact (List.mem_filter.mp hq').1
        rw [offer_nothing (hfirst r hr he (hbest q hq))]
        refine ih (r :: ts) (by omega) ?_ fun q' hq' => hfirst q' (hsub q' hq')
        rw [Store.emptyLeft_cons]
        exact List.mem_filter.mpr ⟨hq, by simpa using Ne.symm he⟩

/-! ## The run -/

/-- A planning run of `n` tyres from a store (R122). -/
def whole (b a w : Nat) (s : Store) (n : Nat) : Run := fillEmpty b a w 288 (topUp b a w ⟨s, n, [], false⟩)

theorem planRun_eq {x : Batch} (h : s.batch b = .opened x) (n : Nat) :
    s.planRun b n = ((whole b x.article x.lotWeek s n).store, (whole b x.article x.lotWeek s n).remaining) := by
  unfold Store.planRun
  rw [Store.openBatch_eq_some.mpr h]
  rfl

theorem whole_goes (b a w : Nat) (s : Store) (n : Nat) : Goes b a w ⟨s, n, [], false⟩ (whole b a w s n) :=
  (topUp_goes rfl).trans (fillEmpty_goes 288)

/-- The slot the whole quantity is offered to first: a top-up slot, or, where no top-up slot allows any, an EMPTY
one. -/
def First (s : Store) (a w n q : Nat) : Prop :=
  q < 288 ∧
    ((s.topUpCandidate a w q = true ∧
        ∀ q', q' < q → s.topUpCandidate a w q' = true → ∀ k, ¬ s.PutAllows a w n q' k) ∨
      (∀ q', q' < 288 → s.topUpCandidate a w q' = true → ∀ k, ¬ s.PutAllows a w n q' k) ∧
        s.emptyCandidate a q = true ∧
        ∀ q', q' < 288 → s.emptyCandidate a q' = true → q' ≠ q → s.Before q' q → ∀ k, ¬ s.PutAllows a w n q' k)

/-- A run in which no slot allows any plans nothing. -/
theorem whole_nothing (h : ∀ q, q < 288 → s.PutCandidate a w q → ∀ k, ¬ s.PutAllows a w n q k) :
    (whole b a w s n).remaining = n := by
  obtain ⟨ts, hts, _⟩ := topUpSteps_nothing (b := b) (qs := List.range 288) (s := s) (a := a) (w := w) (n := n)
    (fun q hq hc => h q (List.mem_range.mp hq) (.inl hc)) []
  obtain ⟨us, hus⟩ := fillEmpty_nothing (b := b) (w := w) (n := n) 288 ts fun q (hq : q ∈ s.emptyLeft a ts) =>
    h q (Store.mem_emptyLeft.mp hq).1 (.inr (Store.mem_emptyLeft.mp hq).2.2)
  rw [whole, topUp_eq, hts, hus]

theorem whole_first (hn : n ≠ 0) (hf : First s a w n q) (hk : s.PutAllows a w n q k) :
    ∃ ts, q ∉ ts ∧ Goes b a w (offer b a w ⟨s, n, ts, false⟩ q) (whole b a w s n) := by
  obtain ⟨hq, ⟨hc, hlow⟩ | ⟨hnone, hc, hfirst⟩⟩ := hf
  · obtain ⟨ts, hts, hgoes⟩ := topUp_first (b := b) hn hq hc hlow
    exact ⟨ts, hts, hgoes.trans (fillEmpty_goes 288)⟩
  · obtain ⟨ts, hts, hmem⟩ := topUpSteps_nothing (b := b) (qs := List.range 288) (s := s) (a := a) (w := w) (n := n)
      (fun q' hq' => hnone q' (List.mem_range.mp hq')) []
    rw [whole, topUp_eq, hts]
    refine fillEmpty_first hn 288 ts ?_ (Store.mem_emptyLeft.mpr ⟨hq, fun h => ?_, hc⟩) fun q' hq' => ?_
    · exact Nat.le_trans (List.length_filter_le _ _) (Nat.le_of_eq List.length_range)
    · exact hnone q hq ((hmem q h).resolve_left nofun).2 k hk
    · obtain ⟨hlt, _, hc'⟩ := Store.mem_emptyLeft.mp hq'
      exact hfirst q' hlt hc'

/-- The first slot takes the largest quantity it allows, and where that is all there is nothing else is planned. -/
theorem whole_takes (hn : n ≠ 0) (hf : First s a w n q) (hk : s.PutAllows a w n q k)
    (hmax : ∀ j, s.PutAllows a w n q j → j ≤ k) (hl : s.reservations.length < 256) :
    (whole b a w s n).store.bare q = (s.slot q).awaiting a w k ∧ (whole b a w s n).remaining ≤ n - k ∧
      (k = n → ∀ q', q' ≠ q → (whole b a w s n).store.bare q' = s.bare q') := by
  obtain ⟨ts, hts, hgoes⟩ := whole_first (b := b) hn hf hk
  obtain ⟨t, ht, hoffer⟩ := offer_largest (b := b) hk hmax hl ts
  rw [hoffer] at hgoes
  have hreach := hgoes.reaches
  have hself := (Store.claimPut_self ht hf.1 hk.1).2
  refine ⟨?_, hreach.remaining, fun he q' hq' => ?_⟩
  · rcases hreach.slots q with hsame | ⟨_, hnew, _⟩
    · rw [hsame, updBatch_bare, hself]
    · exact absurd List.mem_cons_self hnew
  · rw [hgoes.stays (by dsimp only; omega)]
    dsimp only
    rw [updBatch_bare, (Store.claimPut_rest ht).1 q' hq']

end Run

end Sys2Proof.Machine

end

/-! # RECEIVE (R120, R121): the batch it plans -/

section

namespace Sys2Proof.Machine

open Sys2Proof

namespace Store

variable {s t : Store} {a w n q k : Nat}

/-! ## The choices of a run in the words of the statement -/

/-- A fitted slot that is eligible for new claims (R6). -/
def PutReady (s : Store) (q : Nat) : Prop :=
  q < 288 ∧ (s.cfg.carousel (q / 72)).fitted = true ∧ (s.slot q).blockReason = none ∧
    (s.carrier (q / 3)).frozen = false ∧ (s.carrier (q / 3)).suspect = false ∧
    ((s.channel (q / 72)).state = .idle ∨ (s.channel (q / 72)).state = .moving ∨ (s.channel (q / 72)).state = .held)

/-- The tyres a slot holds and awaits. -/
def held (s : Store) (q : Nat) : Nat := (s.slot q).count + (s.slot q).incoming

/-- Whether an article is defined and fits a slot's bay (R3). -/
def Fits (s : Store) (a q : Nat) : Prop :=
  ∃ x, s.article a = some x ∧ x.sizeClass ≤ s.cfg.maxClass (q / 72) (q % 3)

/-- The load of the carrier across from a slot's carrier (R5). -/
def across (s : Store) (q : Nat) : Nat := (s.carrier (q / 72 * 24 + (q / 3 + 12) % 24)).load

/-- The distance of two loads. -/
def apart (x y : Nat) : Nat := ((x : Int) - y).natAbs

/-- What a slot allows of `n` tyres, with the fit of an EMPTY one. -/
def Allows (s : Store) (a n q k : Nat) : Prop :=
  1 ≤ k ∧ k ≤ 12 ∧ k ≤ n ∧ s.held q + k ≤ (s.cfg.carousel (q / 72)).bayDepth ∧
    (s.carrier (q / 3)).load + k * s.weightOf a ≤ s.cfg.loadLimit ∧ (s.held q = 0 → s.Fits a q) ∧
    (apart ((s.carrier (q / 3)).load + k * s.weightOf a) (s.across q) ≤ s.cfg.imbalanceLimit ∨
      apart ((s.carrier (q / 3)).load + k * s.weightOf a) (s.across q) < apart (s.carrier (q / 3)).load (s.across q))

theorem inService_iff (n : Nat) : s.inService n = true ↔
    ((s.channel n).state = .idle ∨ (s.channel n).state = .moving ∨ (s.channel n).state = .held) := by
  unfold inService
  cases (s.channel n).state <;> simp

theorem putReady_iff (s : Store) (q : Nat) :
    s.PutReady q ↔ q < 288 ∧ s.fitted (slotCarousel q) = true ∧ s.eligible q = true := by
  simp only [PutReady, eligible, Bool.and_eq_true, Option.isNone_iff_eq_none, Bool.not_eq_true', inService_iff,
    and_assoc]
  exact Iff.rfl

theorem fits_iff (s : Store) (a q : Nat) : s.fits a q = true ↔ s.Fits a q := by
  unfold fits Fits
  split
  · next x hx =>
    rw [decide_eq_true_eq, hx]
    exact ⟨fun h => ⟨x, rfl, h⟩, fun ⟨y, hy, h⟩ => Option.some.inj hy ▸ h⟩
  · next hx =>
    rw [hx]
    exact iff_of_false nofun fun ⟨_, hy, _⟩ => nomatch hy

/-- A top-up slot of an article and a lot week (R124). -/
def TopUpSlot (s : Store) (a w q : Nat) : Prop :=
  s.PutReady q ∧ (s.slot q).article = some a ∧ (s.slot q).lotWeek = some w ∧
    s.held q < (s.cfg.carousel (q / 72)).bayDepth

/-- An EMPTY slot that an article fits (R125). -/
def EmptySlot (s : Store) (a q : Nat) : Prop := s.PutReady q ∧ s.held q = 0 ∧ s.Fits a q

/-- The slot that the whole quantity is offered to first, by what each slot allows. -/
def FirstSlot (s : Store) (a w n q : Nat) : Prop :=
  (s.TopUpSlot a w q ∧ ∀ q', s.TopUpSlot a w q' → q' < q → ∀ k, ¬ s.Allows a n q' k) ∨
    ((∀ q', s.TopUpSlot a w q' → ∀ k, ¬ s.Allows a n q' k) ∧ s.EmptySlot a q ∧
      ∀ q', s.EmptySlot a q' →
        (s.carrier (q' / 3)).load < (s.carrier (q / 3)).load ∨
          (s.carrier (q' / 3)).load = (s.carrier (q / 3)).load ∧ q' < q → ∀ k, ¬ s.Allows a n q' k)

theorem topUpSlot_iff (s : Store) (a w q : Nat) : s.TopUpSlot a w q ↔ q < 288 ∧ s.topUpCandidate a w q = true := by
  simp only [TopUpSlot, putReady_iff, topUpCandidate, Bool.and_eq_true, beq_iff_eq, decide_eq_true_eq, and_assoc]
  exact Iff.rfl

theorem emptySlot_iff (s : Store) (a q : Nat) : s.EmptySlot a q ↔ q < 288 ∧ s.emptyCandidate a q = true := by
  simp only [EmptySlot, putReady_iff, emptyCandidate, Bool.and_eq_true, beq_iff_eq, fits_iff, held]
  grind

theorem absDiff_eq (x y : Nat) : absDiff x y = apart x y := by
  unfold absDiff apart
  omega

theorem quantityAllowed_iff (s : Store) (a n q k : Nat) : s.quantityAllowed q (s.weightOf a) n k = true ↔
    k ≤ n ∧ s.held q + k ≤ (s.cfg.carousel (q / 72)).bayDepth ∧
      (s.carrier (q / 3)).load + k * s.weightOf a ≤ s.cfg.loadLimit ∧
      (apart ((s.carrier (q / 3)).load + k * s.weightOf a) (s.across q) ≤ s.cfg.imbalanceLimit ∨
        apart ((s.carrier (q / 3)).load + k * s.weightOf a) (s.across q) <
          apart (s.carrier (q / 3)).load (s.across q)) := by
  have hopp : oppositeRecord (slotRecord q) = q / 72 * 24 + (q / 3 + 12) % 24 := by
    unfold oppositeRecord slotRecord
    omega
  have hheld : k + (s.slot q).count + (s.slot q).incoming = s.held q + k := by
    unfold held
    omega
  simp only [quantityAllowed, Bool.and_eq_true, Bool.or_eq_true, decide_eq_true_eq, absDiff_eq, hopp, hheld, and_assoc]
  exact Iff.rfl

theorem lotAllowed_of_candidate (hc : s.PutCandidate a w q) :
    s.lotAllowed q a w = true ↔ (s.held q = 0 → s.Fits a q) := by
  simp only [lotAllowed]
  by_cases h0 : (s.slot q).count + (s.slot q).incoming = 0
  · rw [if_pos h0, fits_iff]
    exact ⟨fun h _ => h, fun h => h h0⟩
  · rw [if_neg h0]
    refine iff_of_true ?_ fun h => absurd h h0
    rcases hc with hc | hc
    · simp only [topUpCandidate, Bool.and_eq_true] at hc
      obtain ⟨⟨⟨_, hart⟩, hlot⟩, _⟩ := hc
      rw [hart, hlot]
      rfl
    · simp only [emptyCandidate, Bool.and_eq_true, beq_iff_eq] at hc
      obtain ⟨⟨⟨_, h⟩, _⟩, _⟩ := hc
      exact absurd h h0

theorem PutCandidate.eligible (hc : s.PutCandidate a w q) : s.eligible q = true := by
  rcases hc with hc | hc
  · simp only [topUpCandidate, Bool.and_eq_true] at hc
    obtain ⟨⟨⟨⟨_, he⟩, _⟩, _⟩, _⟩ := hc
    exact he
  · simp only [emptyCandidate, Bool.and_eq_true] at hc
    obtain ⟨⟨_, he⟩, _⟩ := hc
    exact he

/-- What a candidate allows is what the quantity rule and the PUT claim allow. -/
theorem PutCandidate.allows_iff (hc : s.PutCandidate a w q) : s.PutAllows a w n q k ↔ s.Allows a n q k := by
  simp only [PutAllows, Allows, quantityAllowed_iff, lotAllowed_of_candidate hc, hc.eligible, true_and]
  grind

theorem putSlot_iff (s : Store) (a w q : Nat) :
    (s.TopUpSlot a w q ∨ s.EmptySlot a q) ↔ q < 288 ∧ s.PutCandidate a w q := by
  rw [topUpSlot_iff, emptySlot_iff, ← and_or_left, PutCandidate]

theorem FirstSlot.first (h : s.FirstSlot a w n q) : Run.First s a w n q := by
  rcases h with ⟨htop, hlow⟩ | ⟨hnone, hempty, hbest⟩
  · obtain ⟨hq, hc⟩ := (topUpSlot_iff s a w q).mp htop
    refine ⟨hq, .inl ⟨hc, fun q' hlt hc' k => ?_⟩⟩
    rw [PutCandidate.allows_iff (.inl hc')]
    exact hlow q' ((topUpSlot_iff s a w q').mpr ⟨by omega, hc'⟩) hlt k
  · obtain ⟨hq, hc⟩ := (emptySlot_iff s a q).mp hempty
    refine ⟨hq, .inr ⟨fun q' hq' hc' k => ?_, hc, fun q' hq' hc' hne hb k => ?_⟩⟩
    · rw [PutCandidate.allows_iff (.inl hc')]
      exact hnone q' ((topUpSlot_iff s a w q').mpr ⟨hq', hc'⟩) k
    · rw [PutCandidate.allows_iff (w := w) (.inr hc')]
      refine hbest q' ((emptySlot_iff s a q').mpr ⟨hq', hc'⟩) (hb.imp_right fun ⟨hl, hle⟩ => ⟨hl, ?_⟩) k
      omega

theorem FirstSlot.candidate (h : s.FirstSlot a w n q) : s.PutCandidate a w q := by
  rcases h with ⟨htop, _⟩ | ⟨_, hempty, _⟩
  · exact .inl ((topUpSlot_iff s a w q).mp htop).2
  · exact .inr ((emptySlot_iff s a q).mp hempty).2

/-! ## The batch received -/

variable {b : Nat}

/-- The run that plans a batch received in record `b`. -/
@[irreducible] def plannedRun (s : Store) (b : Nat) (x : Batch) : Run :=
  Run.whole b x.article x.lotWeek (s.setBatch b (.opened x)) x.quantity

/-- The run of a batch received, as a chain of offers. -/
theorem plannedRun_reaches (s : Store) (b : Nat) (x : Batch) :
    Run.Reaches b x.article x.lotWeek ⟨s.setBatch b (.opened x), x.quantity, [], false⟩ (s.plannedRun b x) := by
  unfold plannedRun
  exact (Run.whole_goes ..).reaches

theorem plannedRun_def (s : Store) (b : Nat) (x : Batch) :
    s.plannedRun b x = Run.whole b x.article x.lotWeek (s.setBatch b (.opened x)) x.quantity := by
  unfold plannedRun
  rfl

theorem planRun_received (hb : b < 16) (s : Store) (x : Batch) :
    (s.setBatch b (.opened x)).planRun b x.quantity = ((s.plannedRun b x).store, (s.plannedRun b x).remaining) := by
  unfold plannedRun
  exact Run.planRun_eq (setBatch_batch_self _ hb _) _

end Store

namespace Owner

variable {s : Store} {b : Nat} {x : Batch}

/-- The batch record after the run: what was planned, and the shortfall as unplaced. -/
def plannedBatch (s : Store) (b : Nat) (x : Batch) : Batch :=
  { x with planned := x.quantity - (s.plannedRun b x).remaining, unplaced := (s.plannedRun b x).remaining }

theorem received_of_run {r : Store × Nat} (h : (s.setBatch b (.opened x)).planRun b x.quantity = r) :
    received s b x = r.1.updBatch b fun y => { y with unplaced := r.2 } := by
  subst h
  rfl

theorem received_eq (hb : b < 16) (hx : x.planned = 0) :
    received s b x = (s.plannedRun b x).store.setBatch b (.opened (plannedBatch s b x)) := by
  have hopen : (s.setBatch b (.opened x)).batch b = .opened x := Store.setBatch_batch_self _ hb _
  have hbatch := (s.plannedRun_reaches b x).batch x hb hopen
  have hupd := Store.updBatch_opened hbatch fun y => { y with unplaced := (s.plannedRun b x).remaining }
  simp only [hx, Nat.zero_add] at hupd
  refine (received_of_run (Store.planRun_received hb s x)).trans ?_
  rw [plannedBatch, ← hupd]

/-! ## The row's checks -/

theorem receive_badField {ws : List Word}
    (h : ¬ (inRange 1 96 (batchGiven ws).quantity = true ∧ (batchGiven ws).lotWeek ≤ 65535)) :
    receive ws s = .refuse s .badField := by
  have hc : (!inRange 1 96 (batchGiven ws).quantity || decide (65535 < (batchGiven ws).lotWeek)) = true := by
    simp only [Bool.or_eq_true, Bool.not_eq_true', decide_eq_true_eq]
    refine Classical.byContradiction fun hno => ?_
    exact h ⟨by simpa using (not_or.mp hno).1, Nat.le_of_not_lt (not_or.mp hno).2⟩
  exact if_pos hc

section

variable {ws : List Word} (hq : inRange 1 96 (batchGiven ws).quantity = true) (hw : (batchGiven ws).lotWeek ≤ 65535)

include hq hw

theorem receive_inRange :
    ¬ (!inRange 1 96 (batchGiven ws).quantity || decide (65535 < (batchGiven ws).lotWeek)) = true := by
  rw [hq, decide_eq_false (Nat.not_lt_of_le hw)]
  exact nofun

theorem receive_unknownArticle (h : s.article (batchGiven ws).article = none) :
    receive ws s = .refuse s .unknownArticle := by
  unfold receive
  dsimp only
  rw [if_neg (receive_inRange hq hw), if_pos (by rw [h]; rfl)]

variable (ha : s.article (batchGiven ws).article ≠ none)

include ha

theorem receive_noRoom (h : ∀ b, b < 16 → s.batch b ≠ .free) : receive ws s = .refuse s .noRoom := by
  unfold receive
  dsimp only
  rw [if_neg (receive_inRange hq hw), if_neg (by simpa using ha),
    firstBelow_eq_none fun b hb hf => h b hb (beq_iff_eq.mp hf)]

variable (hb : b < 16) (hfree : s.batch b = .free) (hleast : ∀ b', b' < b → s.batch b' ≠ .free)

include hb hfree hleast

theorem receive_planned : receive ws s =
    if (plannedBatch s b (batchGiven ws)).planned = 0 then .refuse s .noSpace
    else .accept (received s b (batchGiven ws))
      (if (plannedBatch s b (batchGiven ws)).planned = (batchGiven ws).quantity then .accepted else .partialDone)
      [dataWord b, dataWord (plannedBatch s b (batchGiven ws)).planned,
        dataWord (plannedBatch s b (batchGiven ws)).unplaced] := by
  have hopen : (received s b (batchGiven ws)).openBatch b = some (plannedBatch s b (batchGiven ws)) := by
    rw [received_eq hb rfl]
    exact Store.openBatch_eq_some.mpr (Store.setBatch_batch_self _ hb _)
  have hfirst : firstBelow 16 (fun b => s.batch b == .free) = some b :=
    firstBelow_eq_some hb (beq_iff_eq.mpr hfree) fun j hj hf => hleast j hj (beq_iff_eq.mp hf)
  unfold receive
  dsimp only
  rw [if_neg (receive_inRange hq hw), if_neg (by simpa using ha), hfirst]
  dsimp only
  rw [hopen]

end

/-! ## The store after the row -/

/-- What a slot is at the end of the event, but for what is reserved in it. -/
theorem received_bare (hb : b < 16) (hx : x.planned = 0) (q : Nat) :
    (received s b x).eventEnd.bare q = (s.plannedRun b x).store.bare q := by
  rw [Store.bare_of_standing (Store.standing_eventEnd _), received_eq hb hx]
  rfl

theorem received_batch (hb : b < 16) (hx : x.planned = 0) :
    (received s b x).eventEnd.batch b = .opened (plannedBatch s b x) := by
  rw [Store.batch, Store.eventEnd_batches, received_eq hb hx]
  exact Store.setBatch_batch_self _ hb _

theorem received_batch_other (hb : b < 16) (hx : x.planned = 0) {b' : Nat} (hne : b' ≠ b) :
    (received s b x).eventEnd.batch b' = s.batch b' := by
  have hrun := (s.plannedRun_reaches b x).moves.batch (b := b') hne
  rw [Store.batch, Store.eventEnd_batches, received_eq hb hx]
  exact ((Store.setBatch_batch_other _ hne _).trans hrun).trans (Store.setBatch_batch_other _ hne _)

theorem received_kept (hb : b < 16) (hx : x.planned = 0) :
    (received s b x).eventEnd.articles = s.articles ∧ (received s b x).eventEnd.notices = s.notices ∧
      ∀ q, ((received s b x).eventEnd.slot q).count = (s.slot q).count := by
  have hreach := s.plannedRun_reaches b x
  refine ⟨?_, ?_, fun q => ?_⟩
  · rw [Store.eventEnd_articles, received_eq hb hx]
    exact hreach.marks.articles
  · rw [Store.eventEnd_notices, received_eq hb hx]
    exact hreach.moves.notices (by simp)
  · have hbare := congrArg Slot.count (received_bare (s := s) hb hx q)
    exact hbare.trans (hreach.moves.slot_count (by simp) q)

/-- A slot whose incoming changes is one the batch was planned into. -/
theorem received_slot (hb : b < 16) (hx : x.planned = 0) {q : Nat}
    (hne : ((received s b x).eventEnd.slot q).incoming ≠ (s.slot q).incoming) :
    (s.TopUpSlot x.article x.lotWeek q ∨ s.EmptySlot x.article q) ∧
      (s.slot q).incoming < ((received s b x).eventEnd.slot q).incoming ∧
      (s.slot q).count + ((received s b x).eventEnd.slot q).incoming ≤ (s.cfg.carousel (q / 72)).bayDepth ∧
      ((received s b x).eventEnd.slot q).article = some x.article ∧
      ((received s b x).eventEnd.slot q).lotWeek = some x.lotWeek := by
  have hend := received_bare (s := s) hb hx q
  rcases (s.plannedRun_reaches b x).slots q with hsame | ⟨hq, _, _, hc, k, hk, hbare, hdepth⟩
  · exact absurd (congrArg Slot.incoming (hend.trans hsame) :) hne
  · have hbare := hend.trans hbare
    have hin : ((received s b x).eventEnd.slot q).incoming = (s.slot q).incoming + k := congrArg Slot.incoming hbare
    have hdepth : (s.slot q).count + (s.slot q).incoming + k ≤ (s.cfg.carousel (q / 72)).bayDepth := hdepth
    refine ⟨(s.putSlot_iff x.article x.lotWeek q).mpr ⟨hq, hc⟩, by omega, by omega,
      (congrArg Slot.article hbare :), (congrArg Slot.lotWeek hbare :)⟩

/-- The first slot takes the largest quantity it allows. -/
theorem received_first (hb : b < 16) (hx : x.planned = 0) (hn : x.quantity ≠ 0) {q k : Nat}
    (hf : s.FirstSlot x.article x.lotWeek x.quantity q) (hk : s.Allows x.article x.quantity q k)
    (hmax : ∀ j, s.Allows x.article x.quantity q j → j ≤ k) (hl : s.reservations.length < 256) :
    (s.plannedRun b x).remaining ≤ x.quantity - k ∧
      ((received s b x).eventEnd.slot q).incoming = (s.slot q).incoming + k ∧
      (k = x.quantity → ∀ q', q' ≠ q →
        ((received s b x).eventEnd.slot q').incoming = (s.slot q').incoming) := by
  have hc : (s.setBatch b (.opened x)).PutCandidate x.article x.lotWeek q := hf.candidate
  have hf : Run.First (s.setBatch b (.opened x)) x.article x.lotWeek x.quantity q := hf.first
  obtain ⟨hself, hrem, hothers⟩ := Run.whole_takes (b := b) hn hf (hc.allows_iff.mpr hk)
    (fun j hj => hmax j (hc.allows_iff.mp hj)) hl
  rw [← Store.plannedRun_def] at hself hrem hothers
  refine ⟨hrem, ?_, fun he q' hq' => ?_⟩
  · exact (congrArg Slot.incoming ((received_bare hb hx q).trans hself) :)
  · exact (congrArg Slot.incoming ((received_bare hb hx q').trans (hothers he q' hq')) :)

/-- The first slot takes at least what it is known to allow. -/
theorem first_planned (hn : x.quantity ≠ 0) {q k : Nat} (hf : s.FirstSlot x.article x.lotWeek x.quantity q)
    (hk : s.Allows x.article x.quantity q k) (hl : s.reservations.length < 256) :
    (s.plannedRun b x).remaining + k ≤ x.quantity := by
  have hc : (s.setBatch b (.opened x)).PutCandidate x.article x.lotWeek q := hf.candidate
  have hfirst : Run.First (s.setBatch b (.opened x)) x.article x.lotWeek x.quantity q := hf.first
  obtain ⟨j, hkj, hj, hmax⟩ := ((hc.allows_iff (n := x.quantity) (k := k)).mpr hk).largest
  have hjn := Store.quantityAllowed_le hj.2.2.1
  have hrem := (Run.whole_takes (b := b) hn hfirst hj hmax hl).2.1
  rw [← Store.plannedRun_def] at hrem
  omega

/-- Where no slot allows any, all of the quantity is left. -/
theorem plannedRun_nothing
    (h : ∀ q k, s.TopUpSlot x.article x.lotWeek q ∨ s.EmptySlot x.article q → ¬ s.Allows x.article x.quantity q k) :
    (s.plannedRun b x).remaining = x.quantity := by
  rw [Store.plannedRun_def]
  refine Run.whole_nothing fun q hq hc k => ?_
  rw [hc.allows_iff]
  exact h q k ((s.putSlot_iff x.article x.lotWeek q).mpr ⟨hq, hc⟩)

end Owner

end Sys2Proof.Machine

end

section

open Sys2Proof Sys2Proof.Machine

/-- Settles O39. -/
theorem receivePlansABatch : Obligations.ReceivePlansABatch := by
  intro s e h ws article week quantity good batch st weight held depth load across apart fits ready topUp empty allows
    first
  have hrow : exec .receive s = .next (s.requestRow (· == Code.receive) Owner.receive) := rfl
  have hkind : (Code.receive == Code.receive) = true := beq_self_eq_true _
  have hgood : inRange 1 96 (Owner.batchGiven ws).quantity = true ∧ (Owner.batchGiven ws).lotWeek ≤ 65535 ↔ good := by
    rw [inRange_iff, and_assoc]
    exact Iff.rfl
  refine ⟨fun hg => ?_, fun hg ha => ?_, fun hg ha hfull => ?_, fun b hg ha hb hfree hleast => ?_⟩
  · exact h.refuses hrow hkind (Owner.receive_badField (mt hgood.mp hg))
  · exact h.refuses hrow hkind (Owner.receive_unknownArticle (hgood.mpr hg).1 (hgood.mpr hg).2 ha)
  · exact h.refuses hrow hkind (Owner.receive_noRoom (hgood.mpr hg).1 (hgood.mpr hg).2 ha hfull)
  · intro short
    have hplan := Owner.receive_planned (hgood.mpr hg).1 (hgood.mpr hg).2 ha hb hfree hleast
    have hshort : short = (s.store.plannedRun b (Owner.batchGiven ws)).remaining :=
      congrArg Prod.snd (Store.planRun_received hb s.store (Owner.batchGiven ws))
    have hle : short ≤ quantity := hshort ▸ (s.store.plannedRun_reaches b (Owner.batchGiven ws)).remaining
    have hpos : (Owner.batchGiven ws).quantity ≠ 0 := Nat.ne_of_gt hg.1
    have hp : (Owner.plannedBatch s.store b (Owner.batchGiven ws)).planned = quantity - short := by rw [hshort]; rfl
    have hu : (Owner.plannedBatch s.store b (Owner.batchGiven ws)).unplaced = short := hshort.symm
    have hbatch : Owner.plannedBatch s.store b (Owner.batchGiven ws) = batch (quantity - short) short := by
      rw [hshort]; rfl
    clear_value short
    refine ⟨fun hno => ?_, fun q k hf hk hl => ?_, fun hall => ?_, fun hsome => ?_⟩
    · rw [hshort, Owner.plannedRun_nothing (s := s.store) (x := Owner.batchGiven ws) hno]
      exact Nat.le_refl _
    · have hrem := Owner.first_planned (s := s.store) (x := Owner.batchGiven ws) (b := b) hpos hf hk hl
      rw [← hshort] at hrem
      exact hrem
    · exact h.refuses hrow hkind (hplan.trans (if_pos (by rw [hp]; omega)))
    · have hst : (if (Owner.plannedBatch s.store b (Owner.batchGiven ws)).planned = (Owner.batchGiven ws).quantity
          then Status.accepted else .partialDone) = if short = 0 then .accepted else .partialDone := by
        rw [hp, show (Owner.batchGiven ws).quantity = quantity from rfl]
        exact ite_cond_congr (propext (by omega))
      rw [if_neg (by rw [hp]; omega), hst, hp, hu] at hplan
      obtain ⟨harticles, hnotices, hcounts⟩ := Owner.received_kept (s := s.store) (x := Owner.batchGiven ws) hb rfl
      refine h.accepts hrow hkind hplan ⟨hbatch ▸ Owner.received_batch hb rfl,
        fun b' hne => Owner.received_batch_other hb rfl hne, fun q k hf hk hmax hl => ?_,
        fun q hne => Owner.received_slot (s := s.store) (x := Owner.batchGiven ws) hb rfl hne, hcounts, harticles,
        hnotices⟩
      exact (Owner.received_first (s := s.store) (x := Owner.batchGiven ws) hb rfl hpos hf hk hmax hl).2

end

/-! # ORDER_OPEN (R93 to R98): its checks and the record it fills -/

section

namespace Sys2Proof.Machine

open Sys2Proof

/-- An order that has tyres to fill. -/
def Order.Unfilled (o : Order) : Prop := ∃ y ∈ o.lines, y.filled ≠ y.quantity

namespace Store

variable {s : Store} {k j l : Nat} {o g : Order}

/-! ## An order with a line to fill -/

/-- The admission of an order with tyres to fill binds it and its lane, and completes nothing (R98, R109). -/
theorem admitTo_unfilled (h : s.order k = some o) (hl : l < 16) (hu : Order.Unfilled o) :
    s.admitTo k l = (s.bound k l o).welcomed k o := by
  have hord : ((s.bound k l o).lane l).order = some k := by rw [bound_lane_self hl, boundLane_order]
  have hno : ¬ ∃ o' m, (s.bound k l o).Completes k m o' := by
    rintro ⟨o', m, ho', _, _, hfilled, _⟩
    cases ho'.symm.trans (bound_order_self (order_lt h) l o)
    obtain ⟨y, hy, hne⟩ := hu
    exact hne (hfilled y hy)
  rw [admitTo_eq h]
  split
  · rw [matchReport_some hord, completionCheck_incomplete hno]
  · rfl

theorem passOver_order_other (h : j ≠ k) : (s.passOver j).order k = s.order k :=
  (passOver_moves_of s j).order (by
    rintro (⟨_, e⟩ | e | e)
    · exact h (Part.order.inj e).symm
    · exact nomatch e
    · exact nomatch e)

theorem passOver_order_self (h : s.order k = some o) : ∃ n, (s.passOver k).order k = some { o with passOver := n } := by
  have hset (n : Nat) : (s.setOrder k (some { o with passOver := n })).order k = some { o with passOver := n } := by
    rw [setOrder, order, list_orders]
    exact putOrder_order_self s (order_lt h) _
  unfold passOver
  rw [h]
  dsimp only
  split
  · split
    · exact ⟨_, hset _⟩
    · exact ⟨_, hset _⟩
  · exact ⟨o.passOver, h⟩

/-! ## An order opened -/

/-- Order `k` has the tag, urgency and lines of the order `g`; it is ADMITTING on the admission list, or ACTIVE with a
lane and off the list. -/
def Opened (s : Store) (k : Nat) (g : Order) : Prop :=
  ∃ o, s.order k = some o ∧ o.tag = g.tag ∧ o.urgency = g.urgency ∧ o.lines = g.lines ∧
    ((o.state = .admitting ∧ o.lane = none ∧ k ∈ s.admission) ∨
      (o.state = .active ∧ o.lane ≠ none ∧ k ∉ s.admission))

theorem Opened.admitted (h : s.Opened k g) (hg : Order.Unfilled g) (hj : s.order j = some o) (hl : l < 16) :
    (s.admitTo j l).Opened k g := by
  obtain ⟨o', ho', htag, hurg, hlines, hstate⟩ := h
  have hadm := admitTo_admission hj hl
  by_cases e : j = k
  · subst e
    obtain rfl := Option.some.inj (hj.symm.trans ho')
    have hu : Order.Unfilled o := by rw [Order.Unfilled, hlines]; exact hg
    refine ⟨s.boundOrder o l, ?_, htag, hurg, hlines, .inr ⟨rfl, nofun, ?_⟩⟩
    · rw [admitTo_unfilled hj hl hu, welcomed_order, bound_order_self (order_lt hj)]
    · rw [hadm]
      simp
  · refine ⟨o', by rw [admitTo_order_other hj hl (Ne.symm e), ho'], htag, hurg, hlines, ?_⟩
    have hmem : k ∈ (s.admitTo j l).admission ↔ k ∈ s.admission := by
      rw [hadm, List.mem_filter]
      exact and_iff_left (bne_iff_ne.mpr (Ne.symm e))
    rw [hmem]
    exact hstate

theorem Opened.passed (h : s.Opened k g) (j : Nat) : (s.passOver j).Opened k g := by
  obtain ⟨o', ho', htag, hurg, hlines, hstate⟩ := h
  have hadm : (s.passOver j).admission = s.admission := (passOver_moves_of s j).admissions (by simp)
  by_cases e : j = k
  · subst e
    obtain ⟨n, hn⟩ := passOver_order_self ho'
    exact ⟨_, hn, htag, hurg, hlines, by rw [hadm]; exact hstate⟩
  · exact ⟨o', by rw [passOver_order_other e, ho'], htag, hurg, hlines, by rw [hadm]; exact hstate⟩

theorem Opened.admissionPass (h : s.Opened k g) (hg : Order.Unfilled g) : s.admissionPass.Opened k g :=
  admissionPass_keeps (P := fun u => u.Opened k g) (fun _ _ _ _ _ ho hl hu => hu.admitted hg ho hl)
    (fun _ j hu => hu.passed j) (fun _ hu => hu) h

/-- The store after an order has taken its record and its place on the admission list, before the admission pass. -/
def enrolled (s : Store) (k : Nat) (o : Order) : Store := ((s.putOrder k (some o)).joinAdmission k).list (.order k)

theorem enrolled_order (hk : k < 64) (o : Order) : (s.enrolled k o).order k = some o := by
  rw [enrolled, order, list_orders]
  exact putOrder_order_self s hk _

theorem enrolled_mem (o : Order) : k ∈ (s.enrolled k o).admission := by
  rw [enrolled, list_admission]
  exact List.mem_append_right _ List.mem_cons_self

theorem enrolled_opened (hk : k < 64) (hs : o.state = .admitting) (hl : o.lane = none) : (s.enrolled k o).Opened k o :=
  ⟨o, enrolled_order hk o, rfl, rfl, rfl, .inl ⟨hs, hl, enrolled_mem o⟩⟩

end Store

/-! ## The row's checks (R94) -/

namespace Owner

variable {s : Store} {ws : List Word}

theorem orderGiven_lines (ws : List Word) : (orderGiven ws).lines = Req.lines ws := rfl

theorem orderInRange_iff (ws : List Word) : orderInRange ws = true ↔
    Req.byte ws 3 0 ≤ 3 ∧ 1 ≤ Req.byte ws 3 1 ∧ Req.byte ws 3 1 ≤ 8 ∧ ∀ l ∈ Req.lines ws,
      1 ≤ l.quantity ∧ l.quantity ≤ 16 ∧ ¬ (l.setFlag = true ∧ l.quantity = 1) ∧ l.article ≤ 511 := by
  simp only [orderInRange, lineInRange, Bool.and_eq_true, decide_eq_true_eq, inRange_iff, List.all_eq_true,
    Bool.not_eq_true', and_assoc]
  simp only [← Bool.not_eq_true, Bool.and_eq_true, beq_iff_eq]

theorem tooLarge_iff (s : Store) (total : Nat) : tooLarge s total = true ↔
    ¬ (total ≤ 32 ∧ ∃ l, l < 16 ∧ (s.cfg.lane l).fitted = true ∧ total ≤ (s.cfg.lane l).capacity) := by
  have hany := toList_any_iff_look s.cfg.lanes Configuration.blankLane fun l => l.fitted && decide (total ≤ l.capacity)
  simp only [Bool.and_eq_true, decide_eq_true_eq] at hany
  rw [tooLarge, Bool.or_eq_true, decide_eq_true_eq, Bool.not_eq_true', ← Bool.not_eq_true, hany,
    Classical.not_and_iff_not_or_not, Nat.not_le]
  exact Iff.rfl

theorem lines_known (hk : ∀ l ∈ Req.lines ws, s.article l.article ≠ none) :
    (orderGiven ws).lines.any (fun l => (s.article l.article).isNone) = false := by
  rw [orderGiven_lines, ← Bool.not_eq_true, List.any_eq_true]
  rintro ⟨l, hl, hn⟩
  exact hk l hl (Option.isNone_iff_eq_none.mp hn)

section

variable (hr : orderInRange ws = true)

theorem orderOpen_badField (h : ¬ orderInRange ws = true) : orderOpen ws s = .refuse s .badField := by
  simp [orderOpen, h]

include hr

theorem orderOpen_unknownArticle (h : ¬ ∀ l ∈ Req.lines ws, s.article l.article ≠ none) :
    orderOpen ws s = .refuse s .unknownArticle := by
  have hany : (orderGiven ws).lines.any (fun l => (s.article l.article).isNone) = true := by
    rw [orderGiven_lines]
    simpa using h
  simp only [orderOpen, hr, hany, Bool.not_true, Bool.false_eq_true, if_false, if_true]

variable (hk : ∀ l ∈ Req.lines ws, s.article l.article ≠ none)

include hk

theorem orderOpen_duplicate {i : Nat} (h : orderTagged s (wordAt ws 2) = some i) :
    orderOpen ws s = .refuse s .duplicate := by
  have htag : orderTagged s (orderGiven ws).tag = some i := h
  simp only [orderOpen, hr, lines_known hk, htag, Bool.not_true, Bool.false_eq_true, if_false, Option.isSome_some,
    if_true]

variable (hf : orderTagged s (wordAt ws 2) = none)

include hf

theorem orderOpen_tooLarge (h : tooLarge s (orderGiven ws).total = true) : orderOpen ws s = .refuse s .tooLarge := by
  have htag : orderTagged s (orderGiven ws).tag = none := hf
  simp only [orderOpen, hr, lines_known hk, htag, h, Bool.not_true, Bool.false_eq_true, if_false, Option.isSome_none,
    if_true]

variable (hl : ¬ tooLarge s (orderGiven ws).total = true)

include hl

theorem orderOpen_noRoom (h : ∀ k, k < 64 → s.order k ≠ none) : orderOpen ws s = .refuse s .noRoom := by
  have htag : orderTagged s (orderGiven ws).tag = none := hf
  have hfirst : firstBelow 64 (fun k => (s.order k).isNone) = none :=
    firstBelow_eq_none fun k hk hn => h k hk (Option.isNone_iff_eq_none.mp hn)
  simp only [orderOpen, hr, lines_known hk, htag, hl, hfirst, Bool.not_true, Bool.false_eq_true, if_false,
    Option.isSome_none]

theorem orderOpen_opens {k : Nat} (hlt : k < 64) (hfree : s.order k = none) (hleast : ∀ j, j < k → s.order j ≠ none) :
    orderOpen ws s = .accept (s.enrolled k (orderGiven ws)).admissionPass .accepted [dataWord k] := by
  have htag : orderTagged s (orderGiven ws).tag = none := hf
  have hfirst : firstBelow 64 (fun k => (s.order k).isNone) = some k :=
    firstBelow_eq_some hlt (Option.isNone_iff_eq_none.mpr hfree) fun j hj hn =>
      hleast j hj (Option.isNone_iff_eq_none.mp hn)
  simp only [orderOpen, hr, lines_known hk, htag, hl, hfirst, Bool.not_true, Bool.false_eq_true, if_false,
    Option.isSome_none]
  rfl

end

end Owner

end Sys2Proof.Machine

end

/-! # The allocation pass over one line (R101 to R106): what one claim does -/

section

namespace Sys2Proof.Machine

open Sys2Proof

namespace Moves

variable {K : Part → Prop} {s t : Store}

/-- A slot, where the slots of no carrier are changed. -/
theorem slot (h : Moves K s t) (hK : ∀ r, ¬ K (.stock r) ∧ ¬ K (.count r)) (q : Nat) : t.slot q = s.slot q := by
  refine h.same (g := fun u => u.slot q) fun p u v hp m => ?_
  have put {j : Nat} {c : Carrier} (hc : c.bays = (u.carrier j).bays) : (u.setCarrier j c).slot q = u.slot q := by
    rw [Store.slot, Store.carrier, Store.setCarrier_carriers, look_put]
    split
    · next hj => rw [hc, hj.1]; rfl
    · rfl
  cases m with
  | mark _ j c hb _ => exact put hb.1
  | stock _ j c hb _ => exact absurd hp (hK j).1
  | count _ j c => exact absurd hp (hK j).2
  | _ => simp [Store.slot, Store.carrier]

/-- The number of reservations, where none leaves. -/
theorem reservations_le (h : Moves K s t) (hK : ¬ K .leaving) : s.reservations.length ≤ t.reservations.length := by
  refine h.keeps (P := fun u => s.reservations.length ≤ u.reservations.length) (fun p u v hp m hu => ?_)
    (Nat.le_refl _)
  cases m with
  | leave => exact absurd hp hK
  | enter => exact Nat.le_trans hu (by simp)
  | present => exact Nat.le_trans hu (by simp [Store.setReservationState])
  | queue => exact Nat.le_trans hu (by simp [Store.setReservationState])
  | requeue => exact Nat.le_trans hu (by simp [Store.setReservationState])
  | quantity => exact Nat.le_trans hu (by simp [Store.raiseQuantity])
  | _ => simpa using hu

end Moves

namespace Store

variable {s t u v : Store} {a k q q' w n : Nat} {x : Line} {week : Option Nat}

theorem takeClaim_slot {claim : Claim} {k : Nat} {f : Slot → Slot} (h : s.takeClaim claim q k f = (.taken, t))
    (hq : q < 288) : t.slot q = (f (s.slot q)).settle ∧ ∀ q', q' ≠ q → t.slot q' = s.slot q' := by
  have hcarriers : ∃ u : Store, u.carriers = s.carriers ∧ ∀ q', t.slot q' = (u.changeSlot q f).slot q' := by
    unfold takeClaim at h
    split at h
    · next r _ =>
      obtain rfl := (Prod.mk.inj h).2
      exact ⟨s.raiseQuantity r.number k, rfl, fun _ => rfl⟩
    · split at h
      · obtain rfl := (Prod.mk.inj h).2
        exact ⟨{ s with reservations := s.reservations ++ [⟨s.freeNumber, claim, q, k, .reserved⟩] }, rfl,
          (place_moves_any _ _).slot fun r => ⟨nofun, nofun⟩⟩
      · exact nomatch congrArg Prod.fst h
  obtain ⟨u, hu, ht⟩ := hcarriers
  refine ⟨?_, fun q' hq' => ?_⟩
  · rw [ht, slot_changeSlot_self hq, slot_of_carriers hu]
  · rw [ht, slot_changeSlot_other hq', slot_of_carriers hu]

/-! ## Candidates (R102, R103) -/

/-- Slot `q` is of the lot week a set is served from, where there is one. -/
def OfWeek (s : Store) (week : Option Nat) (q : Nat) : Prop := ∀ w, week = some w → (s.slot q).lotWeek = some w

/-- Slot `q` is served before slot `q'`: its lot week is older, or they are alike and its number is lower (R103). -/
def ServedBefore (s : Store) (q q' : Nat) : Prop := s.weekKey q < s.weekKey q' ∨ s.weekKey q = s.weekKey q' ∧ q < q'

/-- A slot a line is served from. -/
def Serves (s : Store) (a : Nat) (week : Option Nat) (q : Nat) : Prop :=
  q < 288 ∧ s.candidate a q = true ∧ s.OfWeek week q

/-- The next slot a line is served from. -/
def nextSlot (s : Store) (a : Nat) (week : Option Nat) : Option Nat :=
  week.elim (s.oldestCandidate a) (s.weekCandidate a)

theorem mem_candidates : q ∈ s.candidates a ↔ q < 288 ∧ s.candidate a q = true := by simp [candidates]

theorem olderSlot_eq (s : Store) : s.olderSlot = leastBy s.weekKey := by
  funext best q
  cases best with
  | none => rfl
  | some b => rfl

theorem oldestCandidate_none (h : s.oldestCandidate a = none) : s.candidates a = [] := by
  have hpair : (s.candidates a).Pairwise (· < ·) := List.pairwise_lt_range.filter _
  unfold oldestCandidate at h
  cases hl : s.candidates a with
  | nil => rfl
  | cons c cs =>
    rw [hl] at h hpair
    obtain ⟨r, hr, _⟩ := foldl_leastBy s.weekKey c cs hpair
    rw [olderSlot_eq, List.foldl_cons] at h
    exact nomatch hr.symm.trans h

theorem oldestCandidate_some (h : s.oldestCandidate a = some q) :
    q ∈ s.candidates a ∧ ∀ q' ∈ s.candidates a, NoLater s.weekKey q q' := by
  have hpair : (s.candidates a).Pairwise (· < ·) := List.pairwise_lt_range.filter _
  unfold oldestCandidate at h
  cases hl : s.candidates a with
  | nil => rw [hl] at h; exact nomatch h
  | cons c cs =>
    rw [hl] at h hpair
    obtain ⟨r, hr, hmem, hbest⟩ := foldl_leastBy s.weekKey c cs hpair
    rw [olderSlot_eq, List.foldl_cons] at h
    obtain rfl : r = q := Option.some.inj (hr.symm.trans h)
    exact ⟨hmem, hbest⟩

/-- Where there is no next slot, none serves the line. -/
theorem nextSlot_none (h : s.nextSlot a week = none) (q : Nat) : ¬ s.Serves a week q := by
  rintro ⟨hq, hc, hw⟩
  have hmem : q ∈ s.candidates a := mem_candidates.mpr ⟨hq, hc⟩
  cases week with
  | none =>
    rw [oldestCandidate_none h] at hmem
    exact nomatch hmem
  | some w => exact List.find?_eq_none.mp h q hmem (beq_iff_eq.mpr (hw w rfl))

/-- The next slot serves the line, and none that is served before it does. -/
theorem nextSlot_some (h : s.nextSlot a week = some q) :
    s.Serves a week q ∧ ∀ q', s.Serves a week q' → ¬ s.ServedBefore q' q := by
  cases week with
  | none =>
    obtain ⟨hmem, hbest⟩ := oldestCandidate_some h
    obtain ⟨hq, hc⟩ := mem_candidates.mp hmem
    refine ⟨⟨hq, hc, nofun⟩, fun q' ⟨hq', hc', _⟩ hb => ?_⟩
    have hle := hbest q' (mem_candidates.mpr ⟨hq', hc'⟩)
    unfold NoLater at hle
    unfold ServedBefore at hb
    omega
  | some w =>
    have h : (s.candidates a).find? (fun q => (s.slot q).lotWeek == some w) = some q := h
    have hlot : (s.slot q).lotWeek = some w := beq_iff_eq.mp (List.find?_some h :)
    obtain ⟨hq, hc⟩ := mem_candidates.mp (List.mem_of_find?_eq_some h)
    refine ⟨⟨hq, hc, fun w' hw' => Option.some.inj hw' ▸ hlot⟩, fun q' ⟨hq', hc', hw'⟩ hb => ?_⟩
    have hlot' := hw' w rfl
    have hpair : (s.candidates a).Pairwise (· < ·) := List.pairwise_lt_range.filter _
    obtain ⟨ls, rs, hsplit, hno⟩ := (List.find?_eq_some_iff_append.mp h).2
    rw [hsplit] at hpair
    have hmem : q' ∈ ls ++ q :: rs := hsplit ▸ mem_candidates.mpr ⟨hq', hc'⟩
    have hlt : q' < q := by
      unfold ServedBefore weekKey at hb
      rw [hlot, hlot'] at hb
      omega
    rcases List.mem_append.mp hmem with hl | hr
    · have := hno q' hl
      rw [hlot'] at this
      simp at this
    · rcases List.mem_cons.mp hr with rfl | hr
      · exact absurd hlt (Nat.lt_irrefl _)
      · have := (List.pairwise_cons.mp (List.pairwise_append.mp hpair).2.1).1 q' hr
        omega

/-! ## What is taken from a slot -/

/-- What slot `q` has reserved in `u` beyond what it had in `s`. -/
def took (s u : Store) (q : Nat) : Nat := (u.slot q).reserved - (s.slot q).reserved

/-- What is taken from all the slots together. -/
@[irreducible] def tookAll (s u : Store) : Nat := ((List.range 288).map (s.took u)).sum

theorem sum_range_raised {f g : Nat → Nat} {q k : Nat} (hq : g q = f q + k) (ho : ∀ q', q' ≠ q → g q' = f q') :
    ∀ n, q < n → ((List.range n).map g).sum = ((List.range n).map f).sum + k
  | n + 1, hn => by
    rw [List.range_succ, List.map_append, List.map_append, List.sum_append, List.sum_append]
    simp only [List.map_cons, List.map_nil, List.sum_cons, List.sum_nil]
    by_cases e : q = n
    · subst e
      have hbelow : (List.range q).map g = (List.range q).map f :=
        List.map_congr_left fun q' hq' => ho q' (Nat.ne_of_lt (List.mem_range.mp hq'))
      rw [hbelow, hq]
      omega
    · rw [sum_range_raised hq ho n (by omega), ho n (Ne.symm e)]
      omega

theorem took_self (s : Store) (q : Nat) : s.took s q = 0 := Nat.sub_self _

theorem tookAll_eq (s u : Store) : s.tookAll u = ((List.range 288).map (s.took u)).sum := by
  unfold tookAll
  rfl

theorem le_sum_of_mem {n : Nat} {xs : List Nat} (h : n ∈ xs) : n ≤ xs.sum := by
  induction xs with
  | nil => exact nomatch h
  | cons x xs ih =>
    rw [List.sum_cons]
    rcases List.mem_cons.mp h with rfl | h
    · omega
    · have := ih h
      omega

theorem tookAll_self (s : Store) : s.tookAll s = 0 := by
  rw [tookAll_eq]
  refine List.sum_eq_zero_iff_forall_eq_nat.mpr fun y hy => ?_
  obtain ⟨q, _, rfl⟩ := List.mem_map.mp hy
  exact s.took_self q

theorem take_le_tookAll (hq : q < 288) : s.took u q ≤ s.tookAll u := by
  rw [tookAll_eq]
  exact le_sum_of_mem (List.mem_map_of_mem (List.mem_range.mpr hq))

end Store

end Sys2Proof.Machine

end

/-! # The allocation pass over one line (R101 to R106): the whole walk -/

section

namespace Sys2Proof.Machine

open Sys2Proof

/-- A line with `n` tyres reserved for it, and a set bound to its week. -/
def Line.served (x : Line) (n : Nat) (week : Option Nat) : Line :=
  { x with reservedFor := n, setWeek := if 0 < n ∧ x.setFlag = true then week else x.setWeek }

theorem Line.served_zero_setWeek (x : Line) (week : Option Nat) : (x.served 0 week).setWeek = x.setWeek := by
  simp [served]

theorem Line.served_raised {m : Nat} (h : 0 < m) (x : Line) (n : Nat) (week : Option Nat) :
    { x.served n week with
      reservedFor := (x.served n week).reservedFor + m
      setWeek := if (x.served n week).setFlag then week else (x.served n week).setWeek } = x.served (n + m) week := by
  have hweek : (if (x.served n week).setFlag = true then week else (x.served n week).setWeek) =
      if 0 < n + m ∧ x.setFlag = true then week else x.setWeek := by
    by_cases hset : x.setFlag = true
    · exact (if_pos hset).trans (if_pos (And.intro (by omega) hset)).symm
    · exact (if_neg hset).trans ((if_neg fun hc => hset hc.2).trans (if_neg fun hc => hset hc.2).symm)
  rw [hweek]
  rfl

namespace Store

variable {s t u v : Store} {k q q' m n : Nat} {x y : Line} {week : Option Nat}

/-- What the walk over the one line of order `k` has done from `s` so far: it has claimed in the order of serving, and
the line and the waiting-lines list tell of it. -/
structure Serving (s : Store) (k : Nat) (x : Line) (week : Option Nat) (u : Store) : Prop where
  marks : s.KeepsMarks u
  slots : ∀ q, u.slot q = { s.slot q with reserved := (s.slot q).reserved + s.took u q }
  within : ∀ q, 0 < s.took u q → s.Serves x.article week q ∧ s.took u q ≤ s.available q
  inOrder : ∀ q q', s.Serves x.article week q → 0 < s.took u q' → s.ServedBefore q q' → s.took u q = s.available q
  line : ∃ o, u.order k = some o ∧ o.lines = [x.served (s.tookAll u) week]
  total : s.tookAll u ≤ x.quantity
  waits : (k, 0) ∈ u.waiting ↔ s.tookAll u < x.quantity
  fresh : s.tookAll u = 0 → u = s

theorem Serving.start {o : Order} (ho : s.order k = some o) (hl : o.lines = [x]) (hr : x.reservedFor = 0)
    (hw : (k, 0) ∈ s.waiting) (hq : 0 < x.quantity) : s.Serving k x week s where
  marks := .refl s
  slots q := by rw [took_self]; rfl
  within q h := absurd h (by rw [took_self]; exact Nat.lt_irrefl 0)
  inOrder q q' _ h := absurd h (by rw [took_self]; exact Nat.lt_irrefl 0)
  line := ⟨o, ho, by rw [hl, tookAll_self, Line.served, ← hr, if_neg (by rw [hr]; exact fun h => Nat.lt_irrefl 0 h.1)]⟩
  total := by rw [tookAll_self]; exact Nat.zero_le _
  waits := by rw [tookAll_self]; exact iff_of_true hw hq
  fresh _ := rfl

section

variable (h : s.Serving k x week u)

include h

theorem Serving.available (q : Nat) : u.available q = s.available q - s.took u q := by
  rw [Store.available, Store.available, h.slots]
  dsimp only
  omega

theorem Serving.candidate (q : Nat) :
    u.candidate x.article q = true ↔ s.candidate x.article q = true ∧ s.took u q < s.available q := by
  have heligible : u.eligible q = s.eligible q := (h.marks.alike (by rw [bare, bare, h.slots])).eligible
  have harticle : (u.slot q).article = (s.slot q).article := by rw [h.slots]
  simp only [Store.candidate, Bool.and_eq_true, decide_eq_true_eq, heligible, harticle, h.available]
  constructor
  · rintro ⟨hc, hlt⟩
    exact ⟨⟨hc, by omega⟩, by omega⟩
  · rintro ⟨⟨hc, _⟩, hlt⟩
    exact ⟨hc, by omega⟩

theorem Serving.serves (q : Nat) :
    u.Serves x.article week q ↔ s.Serves x.article week q ∧ s.took u q < s.available q := by
  have hlot : (u.slot q).lotWeek = (s.slot q).lotWeek := by rw [h.slots]
  simp only [Serves, OfWeek, h.candidate, hlot]
  grind

theorem Serving.servedBefore (q q' : Nat) : u.ServedBefore q q' ↔ s.ServedBefore q q' := by
  have hlot (q : Nat) : (u.slot q).lotWeek = (s.slot q).lotWeek := by rw [h.slots]
  simp only [ServedBefore, weekKey, hlot]

theorem Serving.took_le (q : Nat) : s.took u q ≤ s.available q := by
  rcases Nat.eq_zero_or_pos (s.took u q) with h0 | hpos
  · omega
  · exact (h.within q hpos).2

/-- A slot before the next one is exhausted. -/
theorem Serving.exhausted (hq : ¬ u.Serves x.article week q) (hs : s.Serves x.article week q) :
    s.took u q = s.available q := by
  rw [h.serves] at hq
  have hle := h.took_le q
  refine Classical.byContradiction fun hne => ?_
  exact hq ⟨hs, by omega⟩

theorem Serving.lineOf : u.lineOf k 0 = some (x.served (s.tookAll u) week) := by
  obtain ⟨o, ho, hl⟩ := h.line
  rw [Store.lineOf, ho, Option.bind_some, hl]
  rfl

end

theorem need_served (hf : x.filled = 0) (n : Nat) : (x.served n week).need = x.quantity - n := by
  simp only [Line.need, Line.served, hf, Nat.sub_zero]

/-! ## One claim -/

theorem settle_of_count {z : Slot} (h : 0 < z.count) : z.settle = z := if_neg (by omega)

theorem claimPick_allowed {o l a : Nat} (h : s.pickAllowed q a m = true) :
    s.claimPick q o l a m = s.takeClaim (.pick o l) q m fun x => { x with reserved := x.reserved + m } := if_pos h

theorem claimPick_taken {o l a : Nat} (h : s.pickAllowed q a m = true)
    (ht : s.claimPick q o l a m = (.taken, t)) (hq : q < 288) (hc : 0 < (s.slot q).count) :
    t.slot q = { s.slot q with reserved := (s.slot q).reserved + m } ∧ (∀ q', q' ≠ q → t.slot q' = s.slot q') ∧
      s.KeepsMarks t ∧ t.orders = s.orders ∧ t.waiting = s.waiting := by
  have hm : Moves (Part.claiming fun _ => True) s t := by
    have hclaim := claimPick_moves (K := Part.claiming fun _ => True) (s := s) (.any fun _ hp => hp) (o := o) (l := l)
      trivial q a m
    rwa [ht] at hclaim
  rw [claimPick_allowed h] at ht
  obtain ⟨hself, hother⟩ := takeClaim_slot ht hq
  exact ⟨hself.trans (settle_of_count hc), hother, ⟨hm.cfg, hm.articles (by simp), hm.inService, takeClaim_marks ht⟩,
    hm.orders (by simp), hm.waitings (by simp)⟩

theorem putLine_carriers (s : Store) (k l : Nat) (f : Line → Line) : (s.putLine k l f).carriers = s.carriers := by
  unfold putLine
  split
  · rfl
  · rfl

theorem putLine_single {o : Order} (h : s.order k = some o) (hl : o.lines = [y]) (f : Line → Line) :
    (s.putLine k 0 f).order k = some { o with lines := [f y] } := by
  unfold putLine
  rw [h]
  dsimp only
  rw [putOrder_order_self s (order_lt h), hl]
  rfl

/-- What the record of a taken claim does: the line is raised, and leaves the list where it has no need. -/
theorem lineClaimed_single {o : Order} (h : s.order k = some o) (hl : o.lines = [y]) (m : Nat) (week : Option Nat) :
    (s.lineClaimed k 0 m week).carriers = s.carriers ∧ s.KeepsMarks (s.lineClaimed k 0 m week) ∧
      (s.lineClaimed k 0 m week).order k = some { o with lines := [{ y with
        reservedFor := y.reservedFor + m, setWeek := if y.setFlag then week else y.setWeek }] } ∧
      ((k, 0) ∈ (s.lineClaimed k 0 m week).waiting ↔
        (k, 0) ∈ s.waiting ∧ ¬ y.quantity - y.filled - (y.reservedFor + m) = 0) := by
  have horder := putLine_single h hl fun x =>
    { x with reservedFor := x.reservedFor + m, setWeek := if x.setFlag then week else x.setWeek }
  have hm : Moves (fun p => p = .order k ∨ p = .waiting ∨ p = .listing) s (s.lineClaimed k 0 m week) :=
    lineClaimed_moves (.inl rfl) (.inr (.inl rfl)) (.inr (.inr rfl)) s 0 m week
  have hcarriers : (s.lineClaimed k 0 m week).carriers = s.carriers := by
    simp only [lineClaimed, list_carriers]
    split
    · exact putLine_carriers s k 0 _
    · exact putLine_carriers s k 0 _
  refine ⟨hcarriers, ⟨hm.cfg, hm.articles (by simp), hm.inService, fun r => ?_⟩, ?_, ?_⟩
  · rw [carrier, hcarriers]
    exact ⟨rfl, rfl⟩
  · simp only [lineClaimed, order, list_orders]
    split
    · exact horder
    · exact horder
  · have hwait (f : Line → Line) : (s.putLine k 0 f).waiting = s.waiting :=
      (putLine_moves (K := fun p => p = .order k) rfl s 0 f).waitings (by simp)
    have hneed (f : Line → Line) (hf : (s.putLine k 0 f).order k = some { o with lines := [f y] }) :
        ((s.putLine k 0 f).lineOf k 0).any (fun x => x.need == 0) = ((f y).need == 0) := by
      rw [lineOf, hf]
      rfl
    simp only [lineClaimed, list_waiting]
    split
    · next h0 =>
      rw [hneed _ horder] at h0
      exact iff_of_false (fun hmem => by simpa using (List.mem_filter.mp hmem).2) fun hc => hc.2 (beq_iff_eq.mp h0)
    · next h0 =>
      rw [hneed _ horder] at h0
      rw [hwait]
      exact (and_iff_left fun he => h0 (beq_iff_eq.mpr he)).symm

/-- The walk goes on with a claim on the next slot. -/
theorem Serving.claimed (h : s.Serving k x week u) (hf : x.filled = 0) (hlt : s.tookAll u < x.quantity)
    (hnext : u.nextSlot x.article week = some q) (hm : m = min (u.available q) (x.quantity - s.tookAll u))
    (hallowed : u.pickAllowed q x.article m = true) (ht : u.claimPick q k 0 x.article m = (.taken, t)) :
    s.Serving k x week (t.lineClaimed k 0 m week) ∧
      s.took (t.lineClaimed k 0 m week) q = s.took u q + m ∧
      (∀ q', q' ≠ q → s.took (t.lineClaimed k 0 m week) q' = s.took u q') ∧
      s.tookAll (t.lineClaimed k 0 m week) = s.tookAll u + m := by
  obtain ⟨hserves, hbest⟩ := nextSlot_some hnext
  obtain ⟨hs, hroom⟩ := (h.serves q).mp hserves
  have hq := hs.1
  have havail := h.available q
  have hcount : 0 < (u.slot q).count := by
    have : 0 < u.available q := by omega
    unfold Store.available at this
    omega
  obtain ⟨hself, hother, hmarks, horders, hwaiting⟩ := claimPick_taken hallowed ht hq hcount
  obtain ⟨o, ho, hlines⟩ := h.line
  have hto : t.order k = some o := by rw [order, horders]; exact ho
  obtain ⟨hcarriers, hmarks', horder, hwaits⟩ := lineClaimed_single hto hlines m week
  generalize t.lineClaimed k 0 m week = v at *
  have hslot (q' : Nat) : v.slot q' = t.slot q' := slot_of_carriers hcarriers q'
  have htook : s.took v q = s.took u q + m := by
    rw [took, hslot, hself, took, h.slots]
    dsimp only
    omega
  have htook' (q' : Nat) (hne : q' ≠ q) : s.took v q' = s.took u q' := by rw [took, hslot, hother q' hne, took]
  have hall : s.tookAll v = s.tookAll u + m := by
    rw [tookAll_eq, tookAll_eq]
    exact sum_range_raised htook htook' 288 hq
  have hpos : 0 < m := by omega
  have hbefore : ¬ s.ServedBefore q q := by unfold ServedBefore; omega
  refine ⟨⟨(h.marks.trans hmarks).trans hmarks', fun q' => ?_, fun q' hq' => ?_, fun q₁ q₂ hs₁ hpos₂ hb => ?_,
    ⟨_, horder, ?_⟩, by omega, ?_, fun h0 => by omega⟩, htook, htook', hall⟩
  · by_cases e : q' = q
    · subst e
      rw [hslot, hself, htook, h.slots]
      simp only [Nat.add_assoc]
    · rw [hslot, hother q' e, htook' q' e, h.slots]
  · by_cases e : q' = q
    · subst e
      exact ⟨hs, by omega⟩
    · rw [htook' q' e] at hq' ⊢
      exact h.within q' hq'
  · have hne : q₁ ≠ q := by
      rintro rfl
      by_cases e : q₂ = q₁
      · subst e
        exact hbefore hb
      · rw [htook' q₂ e] at hpos₂
        have := h.inOrder q₁ q₂ hs₁ hpos₂ hb
        omega
    rw [htook' q₁ hne]
    by_cases e : q₂ = q
    · subst e
      exact h.exhausted (fun hu => hbest q₁ hu ((h.servedBefore q₁ q₂).mpr hb)) hs₁
    · rw [htook' q₂ e] at hpos₂
      exact h.inOrder q₁ q₂ hs₁ hpos₂ hb
  · rw [hall, Line.served_raised hpos]
  · rw [hwaits, hwaiting, h.waits, hall]
    simp only [Line.served, hf]
    omega

end Store

end Sys2Proof.Machine

end

/-! # The allocation pass over one line (R101 to R106): how the walk ends -/

section

namespace Sys2Proof.Machine

open Sys2Proof

namespace Store

variable {s t u v : Store} {o l k q q' m n : Nat} {x y : Line} {week : Option Nat}

/-! ## One round of the walk -/

theorem serveLine_filled (hl : s.lineOf o l = some x) (hn : x.need = 0) (n : Nat) :
    serveLine o l week n s = (s, false) := by
  cases n with
  | zero => rfl
  | succ n =>
    unfold serveLine
    rw [hl]
    exact if_pos hn

theorem serveLine_next (hl : s.lineOf o l = some x) (hn : x.need ≠ 0) (n : Nat) :
    (s.nextSlot x.article week = none → serveLine o l week (n + 1) s = (s, false)) ∧
    (∀ q t, s.nextSlot x.article week = some q →
      (s.claimPick q o l x.article (min (s.available q) x.need) = (.taken, t) →
        serveLine o l week (n + 1) s =
          serveLine o l week n (t.lineClaimed o l (min (s.available q) x.need) week)) ∧
      (s.claimPick q o l x.article (min (s.available q) x.need) = (.full, t) →
        serveLine o l week (n + 1) s = (t, true))) := by
  cases week with
  | none =>
    refine ⟨fun hq => ?_, fun q t hq => ⟨fun ht => ?_, fun ht => ?_⟩⟩
    · rw [serveLine, hl]
      dsimp only
      rw [if_neg hn, show s.oldestCandidate x.article = _ from hq]
    all_goals
      rw [serveLine, hl]
      dsimp only
      rw [if_neg hn, show s.oldestCandidate x.article = _ from hq]
      dsimp only
      rw [ht]
  | some w =>
    refine ⟨fun hq => ?_, fun q t hq => ⟨fun ht => ?_, fun ht => ?_⟩⟩
    · rw [serveLine, hl]
      dsimp only
      rw [if_neg hn, show s.weekCandidate x.article w = _ from hq]
    all_goals
      rw [serveLine, hl]
      dsimp only
      rw [if_neg hn, show s.weekCandidate x.article w = _ from hq]
      dsimp only
      rw [ht]

/-- A PICK claim that passes its checks is taken, or finds the reservation list full. -/
theorem claimPick_answer {a : Nat} (h : s.pickAllowed q a m = true) :
    (∃ t, s.claimPick q o l a m = (.taken, t)) ∨
      s.claimPick q o l a m = (.full, s) ∧ 256 ≤ s.reservations.length := by
  rw [claimPick_allowed h]
  unfold takeClaim
  split
  · exact .inl ⟨_, rfl⟩
  · split
    · exact .inl ⟨_, rfl⟩
    · next hl => exact .inr ⟨rfl, Nat.le_of_not_lt hl⟩

/-! ## The walk -/

/-- How a walk over a line ends: the line is covered, the slots that serve it are exhausted, or the reservation list is
full. -/
def ServedOut (s : Store) (x : Line) (week : Option Nat) (v : Store) : Prop :=
  s.tookAll v = x.quantity ∨ (∀ q, s.Serves x.article week q → s.took v q = s.available q) ∨
    256 ≤ v.reservations.length

/-- The candidates left after a claim that exhausts its slot. -/
theorem Serving.candidates_lt (h : s.Serving k x week u) (h' : s.Serving k x week v)
    (hq : u.Serves x.article week q) (htook : s.took v q = s.available q)
    (hother : ∀ q', q' ≠ q → s.took v q' = s.took u q') :
    (v.candidates x.article).length < (u.candidates x.article).length := by
  have hleft : v.candidates x.article = (u.candidates x.article).filter (· != q) := by
    rw [candidates, candidates, List.filter_filter]
    refine List.filter_congr fun q' _ => Bool.eq_iff_iff.mpr ?_
    rw [Bool.and_eq_true, h.candidate, h'.candidate, bne_iff_ne]
    by_cases e : q' = q
    · subst e
      exact iff_of_false (fun hc => by omega) fun hc => hc.1 rfl
    · rw [hother q' e]
      exact (and_iff_right e).symm
  rw [hleft]
  exact List.length_filter_lt_length_iff_exists.mpr ⟨q, mem_candidates.mpr ⟨hq.1, hq.2.1⟩, by simp⟩

theorem Serving.serveLine (hf : x.filled = 0)
    (hbound : ∀ q, q < 288 → s.candidate x.article q = true → min (s.available q) x.quantity ≤ 12) (n : Nat)
    (h : s.Serving k x week u) (hn : s.tookAll u = x.quantity ∨ (u.candidates x.article).length < n) :
    s.Serving k x week (serveLine k 0 week n u).1 ∧ s.ServedOut x week (serveLine k 0 week n u).1 := by
  induction n generalizing u with
  | zero => exact ⟨h, .inl (hn.resolve_right (Nat.not_lt_zero _))⟩
  | succ n ih =>
    have hneed := need_served (week := week) hf (s.tookAll u)
    by_cases hdone : s.tookAll u = x.quantity
    · rw [serveLine_filled h.lineOf (by omega)]
      exact ⟨h, .inl hdone⟩
    have hlt : s.tookAll u < x.quantity := Nat.lt_of_le_of_ne h.total hdone
    obtain ⟨hnone, hsome⟩ := serveLine_next (week := week) h.lineOf (by omega) n
    cases hnext : u.nextSlot x.article week with
    | none =>
      rw [hnone hnext]
      exact ⟨h, .inr (.inl fun q hq => h.exhausted (nextSlot_none hnext q) hq)⟩
    | some q =>
      obtain ⟨hserves, _⟩ := nextSlot_some hnext
      obtain ⟨hs, hroom⟩ := (h.serves q).mp hserves
      have havail := h.available q
      have hbound := hbound q hs.1 hs.2.1
      obtain ⟨m, hm⟩ : ∃ m, m = min (u.available q) (x.quantity - s.tookAll u) := ⟨_, rfl⟩
      have hm' : min (u.available q) (x.served (s.tookAll u) week).need = m := by rw [hneed, hm]
      obtain ⟨hgo, hfull⟩ : (∀ t, u.claimPick q k 0 x.article m = (.taken, t) →
            Store.serveLine k 0 week (n + 1) u = Store.serveLine k 0 week n (t.lineClaimed k 0 m week)) ∧
          ∀ t, u.claimPick q k 0 x.article m = (.full, t) → Store.serveLine k 0 week (n + 1) u = (t, true) := by
        rw [← hm']
        exact ⟨fun t => (hsome q t hnext).1, fun t => (hsome q t hnext).2⟩
      have hallowed : u.pickAllowed q x.article m = true := by
        have hc := hserves.2.1
        simp only [Store.candidate, Bool.and_eq_true, decide_eq_true_eq] at hc
        simp only [pickAllowed, Bool.and_eq_true, decide_eq_true_eq]
        exact ⟨⟨hc.1, inRange_iff.mpr ⟨by omega, by omega⟩⟩, by omega⟩
      rcases claimPick_answer (o := k) (l := 0) hallowed with ⟨t, ht⟩ | ⟨ht, hlen⟩
      · obtain ⟨hnew, hself, hother, hall⟩ := h.claimed hf hlt hnext hm hallowed ht
        rw [hgo t ht]
        refine ih hnew ?_
        by_cases hcover : s.tookAll u + m = x.quantity
        · exact .inl (hall.trans hcover)
        · have hex : s.took (t.lineClaimed k 0 m week) q = s.available q := by omega
          have hfewer := h.candidates_lt hnew hserves hex hother
          exact .inr (by omega)
      · rw [hfull u ht]
        exact ⟨h, .inr (.inr hlen)⟩

/-! ## The lot week of a set (R104) -/

/-- A lot week covers a quantity, from the candidates of its own. -/
def Covers (s : Store) (a quantity w : Nat) : Prop := quantity ≤ s.weekOffer a w

/-- A week that covers anything is a candidate's. -/
theorem Covers.candidate {a w : Nat} (h : s.Covers a n w) (hn : 0 < n) :
    ∃ q, s.Serves a (some w) q ∧ 0 < s.available q := by
  refine Classical.byContradiction fun hno => ?_
  have h0 : s.weekOffer a w = 0 := List.sum_eq_zero_iff_forall_eq_nat.mpr fun y hy => by
    obtain ⟨q, hq, rfl⟩ := List.mem_map.mp hy
    obtain ⟨hmem, hlot⟩ := List.mem_filter.mp hq
    obtain ⟨hlt, hc⟩ := mem_candidates.mp hmem
    refine Classical.byContradiction fun hpos => ?_
    exact hno ⟨q, ⟨hlt, hc, fun w' hw' => Option.some.inj hw' ▸ beq_iff_eq.mp hlot⟩, by omega⟩
  unfold Covers at h
  omega

theorem mem_weeks {a w : Nat} (h : s.Covers a n w) (hn : 0 < n) :
    w ∈ ((s.candidates a).filterMap fun q => (s.slot q).lotWeek).filter fun w => n ≤ s.weekOffer a w := by
  obtain ⟨q, ⟨hq, hc, hw⟩, _⟩ := h.candidate hn
  exact List.mem_filter.mpr ⟨List.mem_filterMap.mpr ⟨q, mem_candidates.mpr ⟨hq, hc⟩, hw w rfl⟩, decide_eq_true h⟩

theorem chooseWeek_none {a : Nat} (h : ∀ w, ¬ s.Covers a n w) : s.chooseWeek a n = none := by
  unfold chooseWeek
  rw [List.min?_eq_none_iff, List.filter_eq_nil_iff]
  exact fun w _ hw => h w (of_decide_eq_true (p := n ≤ s.weekOffer a w) hw)

theorem chooseWeek_oldest {a w : Nat} (h : s.Covers a n w) (hn : 0 < n) (hmin : ∀ w', w' < w → ¬ s.Covers a n w') :
    s.chooseWeek a n = some w := by
  unfold chooseWeek
  rw [List.min?_eq_some_iff]
  refine ⟨mem_weeks h hn, fun w' hw' => ?_⟩
  refine Classical.byContradiction fun hlt => ?_
  exact hmin w' (by omega) (of_decide_eq_true (p := n ≤ s.weekOffer a w') (List.mem_filter.mp hw').2)

/-! ## The entry of the waiting-lines list -/

theorem serveEntry_plain (hl : s.lineOf o l = some x) (hs : x.setFlag = false) :
    s.serveEntry (o, l) = serveLine o l none 289 s := by
  unfold serveEntry
  rw [hl]
  dsimp only
  rw [if_neg (by rw [hs]; exact Bool.false_ne_true)]

theorem serveEntry_set (hl : s.lineOf o l = some x) (hs : x.setFlag = true) (hw : x.setWeek = none) :
    (s.chooseWeek x.article x.quantity = none → s.serveEntry (o, l) = (s, false)) ∧
    (∀ w, s.chooseWeek x.article x.quantity = some w → s.serveEntry (o, l) = serveLine o l (some w) 289 s) := by
  refine ⟨fun hc => ?_, fun w hc => ?_⟩
  all_goals
    unfold serveEntry
    rw [hl]
    dsimp only
    rw [if_pos hs, hw]
    dsimp only
    rw [hc]

theorem serveEntries_single (e : Nat × Nat) (s : Store) : serveEntries [e] s = (s.serveEntry e).1 := by
  simp only [serveEntries]
  split
  · rfl
  · rfl

theorem candidates_length (s : Store) (a : Nat) : (s.candidates a).length < 289 :=
  Nat.lt_succ_of_le (Nat.le_trans (List.length_filter_le _ _) (Nat.le_of_eq List.length_range))

end Store

end Sys2Proof.Machine

end

/-! # ORDER_OPEN (R93 to R106): the single line that is served in the same event -/

section

namespace Sys2Proof.Machine

open Sys2Proof

namespace Store

variable {s t u v : Store} {o l k q q' m n : Nat} {x y : Line} {week : Option Nat} {g : Order}

/-! ## The walk over a single line, by its set flag -/

section

variable (ho : s.order k = some g) (hl : g.lines = [x]) (hf : x.filled = 0) (hr : x.reservedFor = 0)
  (hsw : x.setWeek = none) (hw : (k, 0) ∈ s.waiting) (hq : 0 < x.quantity)
  (hbound : ∀ q, q < 288 → s.candidate x.article q = true → min (s.available q) x.quantity ≤ 12)

include ho hl hf hr hw hq hbound

theorem serveLine_single (week : Option Nat) :
    s.Serving k x week (serveLine k 0 week 289 s).1 ∧ s.ServedOut x week (serveLine k 0 week 289 s).1 :=
  (Serving.start ho hl hr hw hq).serveLine hf hbound 289 (.inr (s.candidates_length x.article))

include hsw

/-- A line is served from all the slots that serve it; a set from the oldest lot week that covers it, and not at all
where none does. -/
theorem serveEntry_single : ∃ week, s.Serving k x week (s.serveEntry (k, 0)).1 ∧
    (x.setFlag = false → week = none ∧ s.ServedOut x none (s.serveEntry (k, 0)).1) ∧
    (x.setFlag = true → (∀ w, ¬ s.Covers x.article x.quantity w) → (s.serveEntry (k, 0)).1 = s) ∧
    ∀ w, x.setFlag = true → s.Covers x.article x.quantity w → (∀ w', w' < w → ¬ s.Covers x.article x.quantity w') →
      week = some w ∧ s.ServedOut x (some w) (s.serveEntry (k, 0)).1 := by
  have hline : s.lineOf k 0 = some x := by
    rw [lineOf, ho, Option.bind_some, hl]
    rfl
  have hwalk := serveLine_single ho hl hf hr hw hq hbound
  cases hset : x.setFlag with
  | false =>
    rw [serveEntry_plain hline hset]
    obtain ⟨hserving, hout⟩ := hwalk none
    exact ⟨none, hserving, fun _ => ⟨rfl, hout⟩, nofun, nofun⟩
  | true =>
    obtain ⟨hnone, hsome⟩ := serveEntry_set hline hset hsw
    cases hc : s.chooseWeek x.article x.quantity with
    | none =>
      rw [hnone hc]
      refine ⟨none, .start ho hl hr hw hq, nofun, fun _ _ => rfl, fun w _ hcov hmin => ?_⟩
      exact nomatch hc.symm.trans (chooseWeek_oldest hcov hq hmin)
    | some w =>
      rw [hsome w hc]
      obtain ⟨hserving, hout⟩ := hwalk (some w)
      refine ⟨some w, hserving, nofun, fun _ hno => ?_, fun w' _ hcov hmin => ?_⟩
      · exact nomatch hc.symm.trans (chooseWeek_none hno)
      · obtain rfl := Option.some.inj (hc.symm.trans (chooseWeek_oldest hcov hq hmin))
        exact ⟨rfl, hout⟩

end

/-- A walk that some slot serves and that finds room takes something. -/
theorem Serving.takes (h : s.Serving k x week v) (hout : s.ServedOut x week v) (hq : 0 < x.quantity)
    (hs : s.Serves x.article week q) (ha : 0 < s.available q) (hroom : s.reservations.length < 256) :
    0 < s.tookAll v := by
  refine Classical.byContradiction fun h0 => ?_
  have h0 : s.tookAll v = 0 := by omega
  rcases hout with hall | hex | hfull
  · omega
  · have hle := take_le_tookAll (s := s) (u := v) hs.1
    rw [hex q hs] at hle
    omega
  · rw [h.fresh h0] at hfull
    omega

/-! ## The event -/

/-- What the Order Table's own updates leave of the Stock Map. -/
theorem stockMap_of_ordering (h : Moves Part.ordering s t) :
    t.cfg = s.cfg ∧ t.carriers = s.carriers ∧ t.channels = s.channels ∧ t.reservations = s.reservations ∧
      t.articles = s.articles := by
  have hcarriers : t.carriers = s.carriers := h.same (g := Store.carriers) fun p u v hp m => by
    cases m <;> first | exact hp.elim | simp
  have hchannels : t.channels = s.channels := h.same (g := Store.channels) fun p u v hp m => by
    cases m <;> first | exact hp.elim | simp
  have hreservations : t.reservations = s.reservations := h.same (g := Store.reservations) fun p u v hp m => by
    cases m <;> first | exact hp.elim | simp
  exact ⟨h.cfg, hcarriers, hchannels, hreservations, h.articles (by simp)⟩

/-- The admission pass over one order that has not been passed over (R96). -/
theorem admissionPass_single (ha : s.admission = [k]) (ho : s.order k = some g) (hp : g.passOver = 0) :
    (s.laneFor g.total = none → s.admissionPass = s) ∧
      ∀ l, s.laneFor g.total = some l → s.admissionPass = (s.admitTo k l).triggerPass := by
  have hbind : (s.order k).bind (fun o => s.laneFor o.total) = s.laneFor g.total := by rw [ho]; rfl
  have hcount : s.passCount k = 0 := by rw [passCount, ho]; exact hp
  refine ⟨fun hn => ?_, fun l hl => ?_⟩
  · have hwalk : admissionWalk [k] [] s false = (s, false) := by
      rw [admissionWalk, hbind, hn]
      dsimp only
      rw [hcount, if_neg (by decide)]
      rfl
    simp only [Store.admissionPass, ha, hwalk, Bool.false_eq_true, if_false]
  · have hwalk : admissionWalk [k] [] s false = (s.admitTo k l, true) := by
      rw [admissionWalk, hbind, hl]
      rfl
    simp only [Store.admissionPass, ha, hwalk, if_true]

theorem enrolled_admission (h : s.admission = []) (k : Nat) (g : Order) : (s.enrolled k g).admission = [k] := by
  rw [enrolled, list_admission, joinAdmission]
  simp [h]

theorem enrolled_moves (s : Store) (k : Nat) (g : Order) : Moves Part.ordering s (s.enrolled k g) :=
  ((putOrder_moves trivial s _).trans (joinAdmission_moves _ _)).trans (list_moves trivial _ _)

theorem enrolled_waiting (s : Store) (k : Nat) (g : Order) : (s.enrolled k g).waiting = s.waiting := by
  rw [enrolled, list_waiting]
  rfl

/-- A single line waits once its order has been welcomed. -/
theorem welcomed_waiting (hw : s.waiting = []) (hl : g.lines = [x]) (k : Nat) :
    (s.welcomed k g).waiting = [(k, 0)] := by
  have hrange : List.range g.lines.length = [0] := by rw [hl]; rfl
  simp only [welcomed, raise_waiting, list_waiting, hrange, List.foldl_cons, List.foldl_nil, joinWaiting, hw]
  rfl

/-- What the event does where the order of one line is admitted and nothing else waits: its line is served. -/
structure Opens (s : Store) (k : Nat) (x : Line) (u t : Store) : Prop where
  order : ∃ g, u.order k = some g ∧ g.lines = [x]
  waiting : u.waiting = [(k, 0)]
  carriers : u.carriers = s.carriers
  channels : u.channels = s.channels
  reservations : u.reservations = s.reservations
  slot : ∀ q, t.slot q = (u.serveEntry (k, 0)).1.slot q
  orders : t.order k = (u.serveEntry (k, 0)).1.order k
  waits : t.waiting = (u.serveEntry (k, 0)).1.waiting
  kept : t.reservations = (u.serveEntry (k, 0)).1.reservations

theorem eventEnd_single {e : Nat × Nat} (hp : u.passDue = true) (hw : u.waiting = [e]) :
    u.eventEnd = (({ u with passDue := false } : Store).serveEntry e).1.agreeAll := by
  rw [eventEnd, allocationPass, if_pos hp, hw, serveEntries_single]

/-- The admitted order of one line is the one line that the event serves. -/
theorem opens_of_active {o : Order} (ha : s.admission = []) (hw : s.waiting = []) (hk : k < 64)
    (hp : g.passOver = 0) (hg : Order.Unfilled g) (hadm : g.state = .admitting) (hl : g.lines = [x])
    (ho : (s.enrolled k g).admissionPass.eventEnd.order k = some o) (hs : o.state = .active) :
    ∃ u, s.Opens k x u (s.enrolled k g).admissionPass.eventEnd := by
  have horder := enrolled_order (s := s) hk g
  obtain ⟨hnone, hsome⟩ := admissionPass_single (enrolled_admission ha k g) horder hp
  cases hlane : (s.enrolled k g).laneFor g.total with
  | none =>
    have hstands := eventEnd_order (s.enrolled k g).admissionPass k
    rw [ho, hnone hlane, horder] at hstands
    have hstate : o.state = g.state := (congrArg Order.state (Option.some.inj hstands) :)
    rw [hs, hadm] at hstate
    exact nomatch hstate
  | some l =>
    have hbound := admitTo_unfilled horder (laneFor_lt hlane) hg
    have hpass := hsome l hlane
    have hwaiting : ((s.enrolled k g).bound k l g).waiting = [] := by
      simp only [bound, list_waiting, putLane_waiting]
      exact (enrolled_waiting s k g).trans hw
    have hmoves : Moves Part.ordering s (s.enrolled k g).admissionPass :=
      (enrolled_moves s k g).trans (admissionPass_moves _)
    obtain ⟨_, hcarriers, hchannels, hreservations, _⟩ := stockMap_of_ordering hmoves
    have hwait : (s.enrolled k g).admissionPass.waiting = [(k, 0)] := by
      rw [hpass, hbound]
      exact welcomed_waiting hwaiting hl k
    have hline : (s.enrolled k g).admissionPass.order k = some ((s.enrolled k g).boundOrder g l) := by
      rw [hpass, hbound]
      exact (welcomed_order _ k k g).trans (bound_order_self hk l g)
    have hend := eventEnd_single (u := (s.enrolled k g).admissionPass) (by rw [hpass]; rfl) hwait
    have hagree := agreeAll_moves (K := fun p => ∃ i, p = .panel i) (fun i => ⟨i, rfl⟩)
      (({ (s.enrolled k g).admissionPass with passDue := false } : Store).serveEntry (k, 0)).1
    rw [hend]
    refine ⟨{ (s.enrolled k g).admissionPass with passDue := false }, ⟨⟨_, hline, hl⟩, hwait, hcarriers, hchannels,
      hreservations, hagree.slot (by simp), hagree.order (by simp), hagree.waitings (by simp), ?_⟩⟩
    exact hagree.same (g := Store.reservations) fun p u v ⟨i, hp⟩ m => by
      subst hp
      cases m
      simp

end Store

end Sys2Proof.Machine

end

/-! # ORDER_OPEN (R93 to R106): the row -/

section

namespace Sys2Proof.Machine

open Sys2Proof

namespace Store

variable {s t u v : Store} {k q n : Nat} {x : Line} {week : Option Nat}

/-! ## The walk in the words of the statement -/

theorem inService_eq (s : Store) (n : Nat) :
    s.inService n = [ChannelState.idle, .moving, .held].contains (s.channel n).state := by
  unfold inService
  cases (s.channel n).state <;> rfl

theorem candidate_eq (s : Store) (a q : Nat) : s.candidate a q =
    ((s.slot q).blockReason.isNone && decide (0 < (s.slot q).count - (s.slot q).reserved) &&
      !(s.carrier (q / 3)).frozen && !(s.carrier (q / 3)).suspect &&
      [ChannelState.idle, .moving, .held].contains (s.channel (q / 72)).state && (s.slot q).article == some a) := by
  rw [← inService_eq]
  simp only [candidate, eligible, available, slotRecord, slotCarousel]
  refine Bool.eq_iff_iff.mpr ?_
  simp only [Bool.and_eq_true]
  grind

theorem weekOffer_eq (s : Store) (a w : Nat) : s.weekOffer a w =
    (((List.range 288).filter fun q => s.candidate a q && (s.slot q).lotWeek == some w).map s.available).sum := by
  unfold weekOffer candidates
  rw [List.filter_filter]
  congr 2
  exact List.filter_congr fun q _ => Bool.and_comm _ _

/-- A walk for `n` tyres of which `r` are reserved, as it took from the candidates of which `P` holds: in the order of
serving, each until it is exhausted. -/
def ServesFrom (s : Store) (candidate : Nat → Bool) (n r : Nat) (t : Store) (P : Nat → Prop) : Prop :=
  (∀ q, q < 288 → s.took t q ≤ s.available q ∧ (0 < s.took t q → candidate q = true ∧ P q)) ∧
    (∀ q q', q < 288 → q' < 288 → candidate q = true → P q → 0 < s.took t q' →
      s.weekKey q < s.weekKey q' ∨ s.weekKey q = s.weekKey q' ∧ q < q' → s.took t q = s.available q) ∧
    (r = n ∨ (∀ q, q < 288 → candidate q = true → P q → s.took t q = s.available q) ∨ 256 ≤ t.reservations.length)

theorem Serving.servesFrom (h : s.Serving k x week v) (hout : s.ServedOut x week v) {P : Nat → Prop}
    (hP : ∀ q, s.OfWeek week q ↔ P q) : s.ServesFrom (s.candidate x.article) x.quantity (s.tookAll v) v P := by
  refine ⟨fun q _ => ⟨h.took_le q, fun hpos => ?_⟩, fun q q' hq _ hc hp hpos hb => ?_, ?_⟩
  · obtain ⟨⟨_, hc, hw⟩, _⟩ := h.within q hpos
    exact ⟨hc, (hP q).mp hw⟩
  · exact h.inOrder q q' ⟨hq, hc, (hP q).mpr hp⟩ hpos hb
  · exact hout.imp_right fun hrest => hrest.imp_left fun hex q hq hc hp => hex q ⟨hq, hc, (hP q).mpr hp⟩

/-- The choices of the walk read the carriers, the channels and the tables alone. -/
theorem Opens.same (h : s.Opens k x u t) : u.available = s.available ∧ u.candidate = s.candidate ∧
    u.weekKey = s.weekKey ∧ u.weekOffer = s.weekOffer ∧ u.took (u.serveEntry (k, 0)).1 = s.took t := by
  have hslot := slot_of_carriers h.carriers
  have havail : u.available = s.available := funext fun q => by rw [available, available, hslot]
  have hcand : u.candidate = s.candidate := funext fun a => funext fun q => by
    rw [candidate_eq, candidate_eq, hslot, carrier, carrier, channel, channel, h.carriers, h.channels]
  refine ⟨havail, hcand, funext fun q => by rw [weekKey, weekKey, hslot], funext fun a => funext fun w => ?_,
    funext fun q => by rw [took, took, hslot, h.slot]⟩
  rw [weekOffer_eq, weekOffer_eq, hcand, havail]
  simp only [hslot]

theorem Opens.servesFrom (h : s.Opens k x u t) {c : Nat → Bool} {n r : Nat} {P : Nat → Prop}
    (hs : u.ServesFrom c n r (u.serveEntry (k, 0)).1 P) : s.ServesFrom c n r t P := by
  obtain ⟨havail, _, hkey, _, htook⟩ := h.same
  unfold ServesFrom at hs ⊢
  rw [havail, hkey, htook, ← h.kept] at hs
  exact hs

/-- The line of an order of one line that is admitted is served in the same event (R101 to R106). -/
theorem Opens.served (h : s.Opens k x u t) (hf : x.filled = 0) (hr : x.reservedFor = 0) (hsw : x.setWeek = none)
    (hq : 0 < x.quantity) {c : Nat → Bool} (hc : ∀ q, s.candidate x.article q = c q)
    (hbound : ∀ q, q < 288 → c q = true → min (s.available q) x.quantity ≤ 12) {o : Order} {y : Line}
    (ho : t.order k = some o) (hy : o.lines = [y]) {offer : Nat → Nat}
    (hoffer : ∀ w, offer w =
      (((List.range 288).filter fun q => c q && (s.slot q).lotWeek == some w).map s.available).sum) :
    y.reservedFor = ((List.range 288).map (s.took t)).sum ∧ y.reservedFor ≤ x.quantity ∧
      ((k, 0) ∈ t.waiting ↔ y.reservedFor < x.quantity) ∧
      (x.setFlag = false → s.ServesFrom c x.quantity y.reservedFor t fun _ => True) ∧
      (x.setFlag = true → (∀ w, ¬ x.quantity ≤ offer w) → y.reservedFor = 0 ∧ y.setWeek = none) ∧
      ∀ w, x.setFlag = true → x.quantity ≤ offer w → (∀ w', w' < w → ¬ x.quantity ≤ offer w') →
        s.ServesFrom c x.quantity y.reservedFor t (fun q => (s.slot q).lotWeek = some w) ∧
          (s.reservations.length < 256 → y.setWeek = some w) := by
  obtain rfl : c = s.candidate x.article := (funext hc).symm
  obtain rfl : offer = s.weekOffer x.article := funext fun w => (hoffer w).trans (weekOffer_eq s x.article w).symm
  obtain ⟨havail, hcand, _, hweeks, htook⟩ := h.same
  obtain ⟨g, hg, hlines⟩ := h.order
  have hslot := slot_of_carriers h.carriers
  obtain ⟨week, hserving, hplain, hnone, hset⟩ := serveEntry_single hg hlines hf hr hsw
    (by rw [h.waiting]; exact List.mem_singleton_self _) hq (by rw [hcand, havail]; exact hbound)
  obtain ⟨o', ho', hl'⟩ := hserving.line
  rw [← h.orders, ho] at ho'
  obtain rfl := Option.some.inj ho'
  obtain rfl : y = x.served (u.tookAll (u.serveEntry (k, 0)).1) week := List.singleton_inj.mp (hy.symm.trans hl')
  have hall := tookAll_eq u (u.serveEntry (k, 0)).1
  rw [htook] at hall
  refine ⟨hall, hserving.total, by rw [h.waits]; exact hserving.waits, fun hs => ?_, fun hs hno => ?_,
    fun w hs hcov hmin => ?_⟩
  · obtain ⟨rfl, hout⟩ := hplain hs
    have hfrom := hserving.servesFrom hout (P := fun _ => True) fun q => iff_of_true nofun trivial
    rw [hcand] at hfrom
    exact h.servesFrom hfrom
  · have hstill := hnone hs (by simp only [Covers, hweeks]; exact hno)
    have h0 : u.tookAll (u.serveEntry (k, 0)).1 = 0 := by rw [hstill, tookAll_self]
    refine ⟨h0, ?_⟩
    rw [h0]
    exact (x.served_zero_setWeek week).trans hsw
  · have hcov' : u.Covers x.article x.quantity w := by rw [Covers, hweeks]; exact hcov
    obtain ⟨rfl, hout⟩ := hset w hs hcov' (by simp only [Covers, hweeks]; exact hmin)
    refine ⟨?_, fun hroom => ?_⟩
    · have hfrom := hserving.servesFrom hout (P := fun q => (s.slot q).lotWeek = some w) fun q => by
        rw [OfWeek, hslot]
        exact ⟨fun hw => hw w rfl, fun hw w' hw' => Option.some.inj hw' ▸ hw⟩
      rw [hcand] at hfrom
      exact h.servesFrom hfrom
    · obtain ⟨q, hq', ha⟩ := hcov'.candidate hq
      have hpos := hserving.takes hout hq hq' ha (by rw [h.reservations]; exact hroom)
      exact if_pos ⟨hpos, hs⟩

/-! ## The record at the end of the event -/

theorem admission_of_standing (h : t.standing = s.standing) : t.admission = s.admission :=
  congrArg Store.admission (a₁ := t.standing) (a₂ := s.standing) h

theorem carriers_of_standing (h : t.standing = s.standing) :
    t.carriers.map Carrier.standing = s.carriers.map Carrier.standing :=
  congrArg Store.carriers (a₁ := t.standing) (a₂ := s.standing) h

theorem Opened.ended {g : Order} (h : s.Opened k g) : ∃ o, s.eventEnd.order k = some o ∧ o.tag = g.tag ∧
    o.urgency = g.urgency ∧ o.lines.map Line.standing = g.lines.map Line.standing ∧
    ((o.state = .admitting ∧ o.lane = none ∧ k ∈ s.eventEnd.admission) ∨
      (o.state = .active ∧ o.lane ≠ none ∧ k ∉ s.eventEnd.admission)) := by
  obtain ⟨o', ho', htag, hurg, hlines, hstate⟩ := h
  have hstands := eventEnd_order s k
  have hadm : s.eventEnd.admission = s.admission := admission_of_standing (standing_eventEnd s)
  rw [ho', Option.map_some] at hstands
  obtain ⟨o, ho, he⟩ := Option.map_eq_some_iff.mp hstands
  have hs : o.state = o'.state := (congrArg Order.state he :)
  have hl : o.lane = o'.lane := (congrArg Order.lane he :)
  refine ⟨o, ho, (congrArg Order.tag he :).trans htag, (congrArg Order.urgency he :).trans hurg,
    (congrArg Order.lines he :).trans (congrArg (List.map Line.standing) hlines), ?_⟩
  rw [hadm, hs, hl]
  exact hstate

end Store

namespace Owner

variable {ws : List Word} {x : Line}

/-- A line as an ORDER_OPEN gives it has nothing filled, reserved or bound. -/
theorem line_given (h : x ∈ Req.lines ws) : x.filled = 0 ∧ x.reservedFor = 0 ∧ x.setWeek = none := by
  obtain ⟨i, _, rfl⟩ := List.mem_map.mp h
  exact ⟨rfl, rfl, rfl⟩

theorem given_unfilled (h : orderInRange ws = true) : Order.Unfilled (orderGiven ws) := by
  obtain ⟨_, hpos, _, hlines⟩ := (orderInRange_iff ws).mp h
  have hmem : Req.line ws 0 ∈ Req.lines ws := List.mem_map_of_mem (List.mem_range.mpr hpos)
  obtain ⟨hq, _⟩ := hlines _ hmem
  refine ⟨_, hmem, ?_⟩
  rw [(line_given hmem).1]
  omega

theorem orderTagged_ne_none {s : Store} {tag : Word} (h : orderTagged s tag = none) {k : Nat} {o : Order}
    (ho : s.order k = some o) : o.tag ≠ tag := by
  intro ht
  have hno := List.find?_range_eq_none.mp h k (Store.order_lt ho)
  rw [ho, Option.any_some, beq_iff_eq.mpr ht] at hno
  exact nomatch hno

end Owner

end Sys2Proof.Machine

end

section

open Sys2Proof Sys2Proof.Machine

/-- Settles O40. -/
theorem orderOpenFillsARecord : Obligations.OrderOpenFillsARecord := by
  intro s e h ws urgency count lines total good known fresh fits
  have hrow : exec .orderOpen s = .next (s.requestRow (· == Code.orderOpen) Owner.orderOpen) := rfl
  have hkind : (Code.orderOpen == Code.orderOpen) = true := beq_self_eq_true _
  have hgood : Owner.orderInRange ws = true ↔ good := Owner.orderInRange_iff ws
  have hfits : Owner.tooLarge s.store (Owner.orderGiven ws).total = true ↔ ¬ fits := Owner.tooLarge_iff _ _
  refine ⟨fun hg => ?_, fun hg hk => ?_, fun hg hk hf => ?_, fun hg hk hf hn => ?_, fun hg hk hf hfit hfull => ?_,
    fun k hg hk hf hfit hlt hfree hleast => ?_⟩
  · exact h.refuses hrow hkind (Owner.orderOpen_badField (mt hgood.mp hg))
  · exact h.refuses hrow hkind (Owner.orderOpen_unknownArticle (hgood.mpr hg) hk)
  · cases htag : Owner.orderTagged s.store (wordAt ws 2) with
    | none => exact absurd (fun k o ho => Owner.orderTagged_ne_none htag ho) hf
    | some i => exact h.refuses hrow hkind (Owner.orderOpen_duplicate (hgood.mpr hg) hk htag)
  · exact h.refuses hrow hkind (Owner.orderOpen_tooLarge (hgood.mpr hg) hk (Owner.orderTagged_none hf) (hfits.mpr hn))
  · exact h.refuses hrow hkind (Owner.orderOpen_noRoom (hgood.mpr hg) hk (Owner.orderTagged_none hf)
      (fun hl => hfits.mp hl hfit) hfull)
  · have hunfilled := Owner.given_unfilled (hgood.mpr hg)
    have hmoves : Moves Part.ordering s.store (s.store.enrolled k (Owner.orderGiven ws)).admissionPass :=
      (Store.enrolled_moves _ _ _).trans (Store.admissionPass_moves _)
    refine h.accepts hrow hkind (Owner.orderOpen_opens (hgood.mpr hg) hk (Owner.orderTagged_none hf)
      (fun hl => hfits.mp hl hfit) hlt hfree hleast) ⟨?_, ?_, ?_, ?_, ?_, ?_⟩
    · exact ((Store.enrolled_opened hlt rfl rfl).admissionPass hunfilled).ended
    · intro o x y ha hw ho hs hx hy st free week candidate took offer covers hbound serves
      have hline : x ∈ lines := hx ▸ List.mem_singleton_self x
      obtain ⟨hfilled, hreserved, hweek⟩ := Owner.line_given hline
      have hpos : 0 < x.quantity := (hg.2.2.2 x hline).1
      obtain ⟨u, hopens⟩ := Store.opens_of_active ha hw hlt rfl hunfilled rfl hx ho hs
      exact hopens.served hfilled hreserved hweek hpos (Store.candidate_eq s.store x.article) hbound ho hy
        fun _ => rfl
    · exact Store.eventEnd_keeps_listed _ ((Store.admissionPass_moves _).listed (Store.mem_list_writeBack _ _))
    · rw [Store.eventEnd_articles]
      exact hmoves.articles (by simp)
    · rw [Store.eventEnd_batches]
      exact hmoves.batches (by simp)
    · rw [Store.carriers_of_standing (Store.standing_eventEnd _), (Store.stockMap_of_ordering hmoves).2.1]

end

/-! # A confirmation at a face (R62 to R65): the part all items share -/

section

namespace Sys2Proof.Machine

open Sys2Proof

namespace Part

/-- What follows a confirmation, but for the commit of an audit: audits, displays, services and the end of a
presentation. -/
@[simp] def finishing : Part → Prop
  | .closing _ => True
  | .pass => True
  | p => auditing p

theorem finishing_of_motion : ∀ p, motion p → finishing p := by
  intro p h
  cases p <;> simp_all

theorem finishing_of_auditing : ∀ p, auditing p → finishing p := by
  intro p h
  cases p <;> simp_all

/-- What the confirmation of a reservation touches: all but an opening and the end of a presentation. -/
@[simp] def confirming : Part → Prop
  | .closing _ => False
  | p => releasing p

theorem confirming_of_ordering : ∀ p, ordering p → confirming p := by
  intro p h
  cases p <;> simp_all

theorem confirming_of_auditing : ∀ p, auditing p → confirming p := by
  intro p h
  cases p <;> simp_all

end Part

namespace Store

variable {s t u : Store} {p b n f : Nat}

/-! ## The key taken (R62, R88) -/

/-- Face `p` after the break of its bay `b`: the bay leaves the held bays, and the selection passes to the last held. -/
def released (s : Store) (p b : Nat) : Face :=
  { s.face p with
    held := (s.face p).held.filter (· != b)
    selected :=
      if (s.face p).selected = some b then ((s.face p).held.filter (· != b)).getLast? else (s.face p).selected }

theorem bayBreak_ignored (h : b ∉ (s.face p).held) : s.bayBreak p b = s := by
  unfold bayBreak
  exact if_neg fun hc => h (List.contains_iff_mem.mp hc)

theorem bayBreak_confirms (h : b ∈ (s.face p).held) :
    s.bayBreak p b = (s.putFace p (s.released p b)).confirmBay p b := by
  unfold bayBreak
  exact if_pos (List.contains_iff_mem.mpr h)

/-- The store once the head item of bay `b` has left its list. -/
def headTaken (s : Store) (p b : Nat) (rest : List Item) : Store :=
  s.putFace p { s.released p b with bays := put (s.face p).bays b rest }

theorem headTaken_face (hp : p < 8) (rest : List Item) :
    (s.headTaken p b rest).face p = { s.released p b with bays := put (s.face p).bays b rest } :=
  putFace_face_self s hp _

theorem confirmBay_head (hp : p < 8) {it : Item} {rest : List Item} (h : look (s.face p).bays [] b = it :: rest) :
    (s.putFace p (s.released p b)).confirmBay p b =
      ((s.headTaken p b rest).dispatch p b it).checkPresentation (p / 2) (p % 2) := by
  have hface : (s.putFace p (s.released p b)).face p = s.released p b := putFace_face_self s hp _
  have hlook : look (s.released p b).bays [] b = it :: rest := h
  have htaking : (s.putFace p (s.released p b)).putFace p
      { s.released p b with bays := put (s.released p b).bays b rest } = s.headTaken p b rest := by
    simp only [headTaken, putFace, put_put]
    rfl
  simp only [confirmBay, hface]
  rw [hlook]
  dsimp only
  rw [htaking]

theorem confirmBay_none (hp : p < 8) (h : look (s.face p).bays [] b = []) :
    (s.putFace p (s.released p b)).confirmBay p b = (s.putFace p (s.released p b)).list (.status (4 + p)) := by
  have hface : (s.putFace p (s.released p b)).face p = s.released p b := putFace_face_self s hp _
  have hlook : look (s.released p b).bays [] b = [] := h
  simp only [confirmBay, hface]
  rw [hlook]

/-! ## The check of a presentation (R59, R62, R66) -/

theorem faceIndex_div_mod (p : Nat) : faceIndex (p / 2) (p % 2) = p := by
  unfold faceIndex
  omega

/-- A presentation of work closes without a commit. -/
theorem closePresentation_moves_work (h : (s.face (faceIndex n f)).kind ≠ some .count) :
    Moves Part.finishing s (s.closePresentation n f) := by
  simp only [closePresentation]
  split
  · exact .refl _
  · next c hc =>
    rw [if_neg h]
    refine .after (list_moves (by simp) _ _) (.after (derive_moves (by simp) (by simp) _)
      (.after ((serviceCheck_moves (.any fun _ h => h)).mono Part.finishing_of_motion) ?_))
    exact (Moves.one (by simp) (.closes s _ (by rw [hc]; exact nofun))).trans
      (markFaceOpen_moves (by simp) (by simp) _ _)

theorem checkPresentation_moves_work (h : (s.face (faceIndex n f)).kind ≠ some .count) :
    Moves Part.finishing s (s.checkPresentation n f) := by
  simp only [checkPresentation]
  split
  · exact closePresentation_moves_work h
  · exact (derive_moves (by simp) (by simp) _).trans (list_moves (by simp) _ _)

/-- What follows a confirmation changes no count, no order, no lane, no batch and no article. -/
theorem finishing_counts (h : Moves Part.finishing s t) (q : Nat) : (t.slot q).count = (s.slot q).count :=
  h.slot_count (by simp) q

/-! ## The event -/

theorem eventEnd_count (s : Store) (q : Nat) : (s.eventEnd.slot q).count = (s.slot q).count :=
  (congrArg Slot.count (slot_of_standing (standing_eventEnd s) q) :)

end Store

/-- A key break that is taken acts as the break of its bay, on the holder emptied. -/
theorem State.bayKeyBreak_ends {s : State} {p : Fin 8} {key : Key} {b : Nat} (hw : s.path.condition = .working)
    (ht : s.store.takesKeys p) (hh : (s.store.panel p).holder = some ⟨key, false⟩)
    (hf : (s.store.face p).state = .presenting) (hk : (key, b) ∈ [(Key.bay0, 0), (.bay1, 1), (.bay2, 2)]) :
    s.Ends (.bayKeyBreak p) fun t => t.JobsAre ((s.store.emptyHolder p).bayBreak p b).eventEnd ∧
      ({ s with store := ((s.store.emptyHolder p).bayBreak p b).eventEnd } : State).Settles t := by
  obtain ⟨hkey, _⟩ := keyBay_of_mem hk
  have hkind : ((keyBay key).isSome && !false) = true := by rw [hkey]; rfl
  have hact : (s.store.emptyHolder p).actKey p ⟨key, false⟩ = (s.store.emptyHolder p).bayBreak p b :=
    (Store.actKey_bay (s := s.store.emptyHolder p) hf hkey).trans (if_neg Bool.false_ne_true)
  exact State.floorEvent_ends (exec_bayKeyBreak p s) hw _
    ((Store.takeKeyIf_takes ht hh hkind).trans (congrArg Store.eventEnd hact))

end Sys2Proof.Machine

end

/-! # A pick confirmed (R19, R108 to R110, R142): its line, its lane and its order -/

section

namespace Sys2Proof.Machine

open Sys2Proof

/-- A line after a confirmation of `k` tyres against `q` (R108). -/
def Line.confirmed (y : Line) (k q : Nat) : Line :=
  Line.unbind { y with filled := y.filled + k, reservedFor := y.reservedFor - q }

theorem Line.unbind_filled (y : Line) : y.unbind.filled = y.filled ∧ y.unbind.quantity = y.quantity := by
  unfold unbind
  split
  · exact ⟨rfl, rfl⟩
  · exact ⟨rfl, rfl⟩

theorem Line.confirmed_filled (y : Line) (k q : Nat) :
    (y.confirmed k q).filled = y.filled + k ∧ (y.confirmed k q).quantity = y.quantity :=
  Line.unbind_filled _

/-- An order after a confirmation for its line `l`. -/
def Order.confirmed (x : Order) (l k q : Nat) : Order :=
  { x with lines := x.lines.modify l fun y => y.confirmed k q }

/-- A lane after a confirmation of tyres of a weight and a tolerance (R142). -/
def Lane.confirmed (x : Lane) (window weight tolerance : Nat) : Lane :=
  Lane.weighAfresh window
    { x with expected := min 32767 (x.expected + weight), tolerance := x.tolerance + tolerance }

namespace Store

variable {s t u : Store} {o l k q num ln j m : Nat} {x : Order} {y : Line} {r : Reservation}

/-! ## The line (R108) -/

theorem putLine_order (h : s.order o = some x) (l : Nat) (f : Line → Line) :
    (s.putLine o l f).order o = some { x with lines := x.lines.modify l f } := by
  unfold putLine
  rw [h]
  exact putOrder_order_self s (order_lt h) _

/-- The record of a line confirmed, before the line joins the list again. -/
theorem lineConfirmed_after (s : Store) (o l k q : Nat) :
    Moves (fun p => p = .waiting ∨ p = .notice ∨ p = .listing)
      (s.putLine o l fun y => y.confirmed k q) (s.lineConfirmed o l k q) := by
  have hjoin (u : Store) : Moves (fun p => p = .waiting ∨ p = .notice ∨ p = .listing) u (u.rejoin o l) := by
    unfold rejoin
    split
    · exact .refl _
    · split
      · exact joinWaiting_moves (.inl rfl) _ _
      · exact .refl _
  have hthen (c : Bool) (u : Store) : Moves (fun p => p = .waiting ∨ p = .notice ∨ p = .listing) u
      (if c then u.rejoin o l else u) := by
    split
    · exact hjoin u
    · exact .refl _
  simp only [lineConfirmed]
  refine .after (list_moves (.inr (.inr rfl)) _ _) ?_
  split
  · exact .after (raise_moves (.inr (.inl rfl)) _ _ _) (hthen _ _)
  · exact hthen _ _

theorem lineConfirmed_order (h : s.order o = some x) (l k q : Nat) :
    (s.lineConfirmed o l k q).order o = some (x.confirmed l k q) :=
  ((lineConfirmed_after s o l k q).order (by simp)).trans (putLine_order h l _)

theorem lineConfirmed_lane (s : Store) (o l k q m : Nat) : (s.lineConfirmed o l k q).lane m = s.lane m :=
  ((lineConfirmed_after s o l k q).lane (by simp)).trans
    ((putLine_moves (K := fun p => p = .order o) rfl s l _).lane (by simp))

theorem lineConfirmed_cfg (s : Store) (o l k q : Nat) : (s.lineConfirmed o l k q).cfg = s.cfg :=
  (lineConfirmed_moves s o l k q).cfg

/-- A short pick tells the order of it. -/
theorem lineConfirmed_short (h : k < q) : (s.lineConfirmed o l k q).Raised (.order o) Flag.orderShort := by
  simp only [lineConfirmed, if_pos h]
  exact (raise_raised _ _ _).of_notices (list_notices _ _)

/-! ## The completion check and what it leaves -/

theorem completionCheck_cases (s : Store) (j : Nat) :
    s.completionCheck j = s ∨ ∃ o l, s.Completes j l o ∧ s.completionCheck j = s.complete j l o := by
  by_cases hc : ∃ o l, s.Completes j l o
  · obtain ⟨o, l, hc⟩ := hc
    exact .inr ⟨o, l, hc, completionCheck_complete hc⟩
  · exact .inl (completionCheck_incomplete hc)

/-- A lane keeps its expected weight and its tolerance at a completion. -/
theorem complete_weights {x : Order} (s : Store) (j l m : Nat) :
    ((s.complete j l x).lane m).expected = (s.lane m).expected ∧
      ((s.complete j l x).lane m).tolerance = (s.lane m).tolerance := by
  by_cases e : m = l
  · subst e
    by_cases hm : m < 16
    · rw [complete_lane_self hm]
      exact ⟨rfl, rfl⟩
    · rw [lane, complete_lanes, put_outside _ _ _ (Nat.le_of_not_lt hm)]
      exact ⟨rfl, rfl⟩
  · rw [complete_lane_other e]
    exact ⟨rfl, rfl⟩

/-- Order `o` is the order `x`, ACTIVE, or `x` completed. -/
def ActiveOrDone (s : Store) (o : Nat) (x : Order) : Prop :=
  x.state = .active ∧ (s.order o = some x ∨ s.order o = some { x with state := .complete })

/-- The weights of lane `m` are those of `e` and `c`. -/
def WeighedAt (s : Store) (m : Nat) (e : Int) (c : Nat) : Prop := (s.lane m).expected = e ∧ (s.lane m).tolerance = c

theorem ActiveOrDone.completionCheck (h : s.ActiveOrDone o x) (j : Nat) : (s.completionCheck j).ActiveOrDone o x := by
  obtain ⟨ha, ho⟩ := h
  refine ⟨ha, ?_⟩
  rcases completionCheck_cases s j with e | ⟨x', l, hc, e⟩
  · rw [e]
    exact ho
  · rw [e]
    by_cases hj : o = j
    · subst hj
      have hx : x' = x := by
        rcases ho with ho | ho
        · exact Option.some.inj (hc.1.symm.trans ho)
        · obtain rfl := Option.some.inj (hc.1.symm.trans ho)
          exact nomatch hc.2.2.1
      subst hx
      exact .inr (complete_order (order_lt hc.1))
    · rw [complete_order_other hj]
      exact ho

theorem WeighedAt.completionCheck {e : Int} {c : Nat} (h : s.WeighedAt m e c) (j : Nat) :
    (s.completionCheck j).WeighedAt m e c := by
  rcases completionCheck_cases s j with heq | ⟨x', l, _, heq⟩
  · rw [heq]
    exact h
  · rw [heq]
    obtain ⟨he, hc⟩ := complete_weights (x := x') s j l m
    exact ⟨he.trans h.1, hc.trans h.2⟩

theorem withReport_keeps {P : Store → Prop} (hP : ∀ u j, P u → P (u.completionCheck j)) {v : Store × Bool}
    (h : P v.1) (l : Nat) : P (withReport v l) := by
  unfold withReport
  split
  · unfold matchReport
    split
    · exact hP _ _ h
    · exact h
  · exact h

theorem cancellationEnd_ignored (h : s.order o = some x) (hs : x.state ≠ .cancelling) : s.cancellationEnd o = s := by
  unfold cancellationEnd
  rw [h]
  exact if_neg fun hc => hs hc.1

theorem orderIs_iff (h : s.order o = some x) (st : OrderState) : s.orderIs o st = true ↔ x.state = st := by
  rw [orderIs, h, Option.any_some, beq_iff_eq]

/-- The checks of a confirmation of an ACTIVE order are the check of its completion, or nothing. -/
theorem orderChecks_keeps {P : Store → Prop} (hP : ∀ u j, P u → P (u.completionCheck j)) (h : s.ActiveOrDone o x)
    (hs : P s) (l : Nat) : P (s.orderChecks o l) := by
  obtain ⟨ha, ho⟩ := h
  unfold orderChecks
  split
  · split
    · exact hP _ _ hs
    · exact hs
  · next hno =>
    rcases ho with ho | ho
    · exact absurd ((orderIs_iff ho .active).mpr ha) hno
    · rw [cancellationEnd_ignored ho nofun]
      exact hs

/-! ## The lane of the line (R142) -/

/-- The lane of order `o` takes a confirmation of `k` tyres of a weight and a tolerance, with its report of MATCH. -/
def laneConfirmed (s : Store) (o k weight tolerance : Nat) : Store :=
  match (s.order o).bind fun x => x.lane with
  | some ln => withReport (s.confirmLane ln k weight tolerance) ln
  | none => s

theorem laneConfirmed_some (h : s.order o = some x) (hl : x.lane = some ln) (k w c : Nat) :
    s.laneConfirmed o k w c = withReport (s.confirmLane ln k w c) ln := by
  have hbind : ((s.order o).bind fun x => x.lane) = some ln := by rw [h, Option.bind_some, hl]
  unfold laneConfirmed
  rw [hbind]

theorem confirmLane_order (s : Store) (ln k w c o : Nat) : (s.confirmLane ln k w c).1.order o = s.order o := by
  simp only [confirmLane]
  split
  · rfl
  · exact ((putLane_moves (K := fun p => p = .lane ln ∨ p = .listing) (.inl rfl) s _).trans
      (list_moves (.inr rfl) _ _)).order (by simp)

/-- An order's lane and the confirmation keep what every completion check and the lane's own change keep. -/
theorem laneConfirmed_keeps {P : Store → Prop} (hP : ∀ u j, P u → P (u.completionCheck j)) {w c : Nat}
    (hl : ∀ ln, P (s.confirmLane ln k w c).1) (hs : P s) : P (s.laneConfirmed o k w c) := by
  unfold laneConfirmed
  split
  · next ln _ => exact withReport_keeps hP (hl ln) ln
  · exact hs

theorem confirmLane_taken (hk : 0 < k) (ha : (s.lane ln).state = .assigned) (w c : Nat) :
    s.confirmLane ln k w c = ((s.putLane ln ((s.lane ln).confirmed s.cfg.arrivalWindow w c)).list (.lane ln),
      ((s.lane ln).confirmed s.cfg.arrivalWindow w c).weight == some .matched &&
        (s.lane ln).weight != some .matched) := by
  have hno : ¬ (k = 0 ∨ (s.lane ln).state ≠ .assigned) := by
    rintro (h0 | hne)
    · omega
    · exact hne ha
  simp only [confirmLane]
  rw [if_neg hno]
  rfl

end Store

theorem Lane.confirmed_weights (x : Lane) (window w c : Nat) :
    (x.confirmed window w c).expected = min 32767 (x.expected + w) ∧
      (x.confirmed window w c).tolerance = x.tolerance + c ∧ (x.confirmed window w c).state = x.state ∧
      (x.confirmed window w c).order = x.order := by
  unfold confirmed weighAfresh
  split
  · exact ⟨rfl, rfl, rfl, rfl⟩
  · exact ⟨rfl, rfl, rfl, rfl⟩

/-- A lane confirmed is in MATCH where its settled reading agrees with its new expected weight. -/
theorem Lane.confirmed_matched (x : Lane) (window w c : Nat) : (x.confirmed window w c).weight = some .matched ↔
    ∃ v, x.settled = some v ∧ (v - min 32767 (x.expected + w)).natAbs ≤ x.tolerance + c := by
  have hagrees (z : Lane) : (z.weighAfresh window).weight = some .matched ↔ z.agreesNow = true := by
    unfold weighAfresh
    split
    · next h => exact iff_of_true rfl h
    · next h => exact iff_of_false nofun h
  rw [confirmed, hagrees]
  unfold agreesNow
  dsimp only
  cases x.settled with
  | none => exact iff_of_false nofun nofun
  | some v =>
    dsimp only
    rw [agrees, decide_eq_true_eq]
    exact ⟨fun h => ⟨v, rfl, h⟩, fun ⟨v', hv', h⟩ => Option.some.inj hv' ▸ h⟩

end Sys2Proof.Machine

end

/-! # A pick confirmed (R19, R108 to R110, R142): the whole operation -/

section

namespace Sys2Proof.Machine

open Sys2Proof

namespace Store

variable {s t u : Store} {o l k q num ln j m i : Nat} {x : Order} {y : Line} {r : Reservation}

/-! ## The steps -/

/-- The slot after a pick of `k` tyres: the reservation has left the list. -/
def picked (s : Store) (num k : Nat) (r : Reservation) : Store :=
  (s.dropReservation num).changeSlot r.slot fun x =>
    { x with count := x.count - k, reserved := x.reserved - r.quantity }

/-- The line after the pick. -/
def credited (s : Store) (num k : Nat) (r : Reservation) (o l : Nat) : Store :=
  (s.picked num k r).lineConfirmed o l k r.quantity

/-- The article a slot holds, 0 where it holds none. -/
def articleOf (s : Store) (q : Nat) : Nat := (s.slot q).article.getD 0

/-- The lane after the pick. -/
def pickWeighed (s : Store) (num k : Nat) (r : Reservation) (o l : Nat) : Store :=
  (s.credited num k r o l).laneConfirmed o k (k * s.weightOf (s.articleOf r.slot))
    (k * s.toleranceOf (s.articleOf r.slot))

/-- The order after the pick. -/
def checked (s : Store) (num k : Nat) (r : Reservation) (o l : Nat) : Store :=
  (s.pickWeighed num k r o l).orderChecks o l

/-- The audit that a short pick asks for. -/
def auditShort (s : Store) (k : Nat) (r : Reservation) : Store :=
  if k < r.quantity then s.stockAudit (slotRecord r.slot) .shortPick else s

theorem pickConfirm_eq (h : s.reservation num = some r) (hc : r.claim = .pick o l) (k : Nat) :
    s.pickConfirm num k =
      (((s.checked num k r o l).auditShort k r).drainedCheck (slotRecord r.slot)).triggerPass := by
  unfold pickConfirm
  rw [h]
  dsimp only
  rw [hc]
  rfl

/-! ## What the steps touch -/

theorem picked_slot (hq : r.slot < 288) :
    ((s.picked num k r).slot r.slot).count = (s.slot r.slot).count - k ∧
      ∀ q, q ≠ r.slot → (s.picked num k r).slot q = s.slot q := by
  refine ⟨?_, fun q hne => ?_⟩
  · rw [picked, slot_changeSlot_self hq, settle_count]
    rfl
  · rw [picked, slot_changeSlot_other hne]
    rfl

theorem picked_moves (s : Store) (num k : Nat) (r : Reservation) :
    Moves (fun p => p = .leaving ∨ p = .count (slotRecord r.slot) ∨ p = .listing) s (s.picked num k r) := by
  unfold picked changeSlot
  refine .after (updCarrier_moves ?_ ?_ (.count _ _ _)) (.one (.inl rfl) (.leave s num))
  · exact .inr (.inl rfl)
  · exact .inr (.inr rfl)

theorem laneConfirmed_moves (s : Store) (o k w c : Nat) : Moves Part.ordering s (s.laneConfirmed o k w c) := by
  unfold laneConfirmed
  split
  · exact withReport_moves (confirmLane_moves _ _ _ _ _) _
  · exact .refl _

theorem checked_moves_picked (s : Store) (num k : Nat) (r : Reservation) (o l : Nat) :
    Moves Part.ordering (s.picked num k r) (s.checked num k r o l) :=
  ((lineConfirmed_moves _ o l k r.quantity).trans (laneConfirmed_moves _ o k _ _)).trans (orderChecks_moves _ o l)

theorem auditShort_moves (s : Store) (k : Nat) (r : Reservation) : Moves Part.auditing s (s.auditShort k r) := by
  unfold auditShort
  split
  · exact stockAudit_moves _ _ _
  · exact .refl _

/-- What follows the checks of a pick confirmed. -/
theorem pickConfirm_finishing (h : s.reservation num = some r) (hc : r.claim = .pick o l) (k : Nat) :
    Moves Part.finishing (s.checked num k r o l) (s.pickConfirm num k) := by
  rw [pickConfirm_eq h hc]
  exact (((auditShort_moves _ k r).mono Part.finishing_of_auditing).trans
    ((drainedCheck_moves_any _ _).mono Part.finishing_of_motion)).trans (triggerPass_moves (by simp) _)

theorem checked_moves (s : Store) (num k : Nat) (r : Reservation) (o l : Nat) :
    Moves Part.confirming s (s.checked num k r o l) :=
  ((picked_moves s num k r).mono (by rintro p (rfl | rfl | rfl) <;> simp)).trans
    ((checked_moves_picked s num k r o l).mono Part.confirming_of_ordering)

/-- A face that works goes on working through the confirmation of a pick. -/
theorem pickConfirm_face (h : s.reservation num = some r) (hc : r.claim = .pick o l) (k : Nat)
    (hf : (s.face i).state = .presenting) : ((s.pickConfirm num k).face i).kind = (s.face i).kind := by
  have hm := pickConfirm_eq h hc k
  have hthen : Moves Part.confirming (s.checked num k r o l) (s.pickConfirm num k) := by
    rw [hm]
    refine (((auditShort_moves _ k r).mono Part.confirming_of_auditing).trans
      ((drainedCheck_moves_any _ _).mono fun p hp => ?_)).trans (triggerPass_moves (by simp) _)
    exact Part.confirming_of_auditing p (Part.auditing_of_motion p hp)
  exact (((checked_moves s num k r o l).trans hthen).presenting (by simp) (by simp) hf).2.2

/-- All that follows the checks, up to the end of the event. -/
theorem pick_finishing (h : s.reservation num = some r) (hc : r.claim = .pick o l) (k : Nat)
    (hf : (s.face i).state = .presenting) (hw : (s.face i).kind = some .work) :
    Moves Part.finishing (s.checked num k r o l) ((s.pickConfirm num k).checkPresentation (i / 2) (i % 2)) := by
  refine (pickConfirm_finishing h hc k).trans (checkPresentation_moves_work ?_)
  rw [faceIndex_div_mod, pickConfirm_face h hc k hf, hw]
  exact nofun

/-! ## Counts -/

theorem checked_count (hq : r.slot < 288) :
    ((s.checked num k r o l).slot r.slot).count = (s.slot r.slot).count - k ∧
      ∀ q, q ≠ r.slot → ((s.checked num k r o l).slot q).count = (s.slot q).count := by
  have hm := checked_moves_picked s num k r o l
  obtain ⟨hself, hother⟩ := picked_slot (s := s) (num := num) (k := k) hq
  exact ⟨(hm.slot_count (by simp) _).trans hself, fun q hne => by
    rw [hm.slot_count (by simp) q, hother q hne]⟩

/-! ## The order and the lane -/

theorem credited_order (h : s.order o = some x) (num k l : Nat) (r : Reservation) :
    (s.credited num k r o l).order o = some (x.confirmed l k r.quantity) :=
  lineConfirmed_order (((picked_moves s num k r).order (by simp)).trans h) l k r.quantity

theorem credited_lane (s : Store) (num k : Nat) (r : Reservation) (o l m : Nat) :
    (s.credited num k r o l).lane m = s.lane m :=
  (lineConfirmed_lane _ o l k r.quantity m).trans ((picked_moves s num k r).lane (by simp))

theorem credited_cfg (s : Store) (num k : Nat) (r : Reservation) (o l : Nat) : (s.credited num k r o l).cfg = s.cfg :=
  (lineConfirmed_cfg _ o l k r.quantity).trans (picked_moves s num k r).cfg

theorem pickWeighed_activeOrDone (h : s.order o = some x) (ha : x.state = .active) (num k l : Nat) (r : Reservation) :
    (s.pickWeighed num k r o l).ActiveOrDone o (x.confirmed l k r.quantity) := by
  have hbase : (s.credited num k r o l).ActiveOrDone o (x.confirmed l k r.quantity) :=
    ⟨ha, .inl (credited_order h num k l r)⟩
  refine laneConfirmed_keeps (P := fun u => u.ActiveOrDone o (x.confirmed l k r.quantity))
    (fun _ j hu => hu.completionCheck j) (fun ln => ?_) hbase
  exact ⟨ha, .inl ((confirmLane_order _ ln k _ _ o).trans (credited_order h num k l r))⟩

theorem checked_activeOrDone (h : s.order o = some x) (ha : x.state = .active) (num k l : Nat) (r : Reservation) :
    (s.checked num k r o l).ActiveOrDone o (x.confirmed l k r.quantity) :=
  orderChecks_keeps (P := fun u => u.ActiveOrDone o (x.confirmed l k r.quantity))
    (fun _ j hu => hu.completionCheck j) (pickWeighed_activeOrDone h ha num k l r)
    (pickWeighed_activeOrDone h ha num k l r) l

/-- The store once the lane has taken the pick, before a report of MATCH. -/
def laneTaken (s : Store) (num k : Nat) (r : Reservation) (o l ln : Nat) : Store :=
  ((s.credited num k r o l).putLane ln ((s.lane ln).confirmed s.cfg.arrivalWindow
    (k * s.weightOf (s.articleOf r.slot)) (k * s.toleranceOf (s.articleOf r.slot)))).list (.lane ln)

section

variable (h : s.order o = some x) (ha : x.state = .active) (hlane : x.lane = some ln) (hln : ln < 16) (hk : 0 < k)
  (hs : (s.lane ln).state = .assigned)

include hln in
theorem laneTaken_lane : (s.laneTaken num k r o l ln).lane ln = (s.lane ln).confirmed s.cfg.arrivalWindow
    (k * s.weightOf (s.articleOf r.slot)) (k * s.toleranceOf (s.articleOf r.slot)) := by
  rw [laneTaken, lane, list_lanes]
  exact putLane_lane_self _ hln _

include h in
theorem laneTaken_order : (s.laneTaken num k r o l ln).order o = some (x.confirmed l k r.quantity) := by
  rw [laneTaken, order, list_orders]
  exact credited_order h num k l r

include h hlane hk hs in
theorem pickWeighed_eq : s.pickWeighed num k r o l =
    withReport (s.laneTaken num k r o l ln, ((s.lane ln).confirmed s.cfg.arrivalWindow
      (k * s.weightOf (s.articleOf r.slot)) (k * s.toleranceOf (s.articleOf r.slot))).weight == some .matched &&
        (s.lane ln).weight != some .matched) ln := by
  have hstate : ((s.credited num k r o l).lane ln).state = .assigned := by rw [credited_lane]; exact hs
  rw [pickWeighed, laneConfirmed_some (credited_order h num k l r) (ln := ln) hlane, confirmLane_taken hk hstate,
    credited_lane, credited_cfg]
  rfl

include h ha hlane hln hk hs in
/-- The lane expects the weight of the pick more, and its tolerance is wider (R142). -/
theorem checked_weighedAt : (s.checked num k r o l).WeighedAt ln
    (min 32767 ((s.lane ln).expected + (k * s.weightOf (s.articleOf r.slot) : Nat)))
    ((s.lane ln).tolerance + k * s.toleranceOf (s.articleOf r.slot)) := by
  obtain ⟨he, hc, _⟩ := (s.lane ln).confirmed_weights s.cfg.arrivalWindow (k * s.weightOf (s.articleOf r.slot))
    (k * s.toleranceOf (s.articleOf r.slot))
  have hkeeps := fun (u : Store) (j : Nat) (hu : u.WeighedAt ln
    (min 32767 ((s.lane ln).expected + (k * s.weightOf (s.articleOf r.slot) : Nat)))
    ((s.lane ln).tolerance + k * s.toleranceOf (s.articleOf r.slot))) => hu.completionCheck j
  refine orderChecks_keeps hkeeps (pickWeighed_activeOrDone h ha num k l r) ?_ l
  rw [pickWeighed_eq h hlane hk hs]
  refine withReport_keeps hkeeps ?_ ln
  rw [WeighedAt, laneTaken_lane hln]
  exact ⟨he, hc⟩

end

end Store

end Sys2Proof.Machine

end

/-! # A pick that fills the last line (R109, R110): the completion -/

section

namespace Sys2Proof.Machine

open Sys2Proof

namespace Store

variable {s t u : Store} {o l k q num ln j m i : Nat} {x : Order} {y : Line} {r : Reservation}

/-! ## Whether the order is complete -/

/-- An order is filled by a confirmation for its line where the line is covered and the others are filled. -/
theorem confirmed_filled (hy : x.lines[l]? = some y) (k q : Nat) :
    (∀ z ∈ (x.confirmed l k q).lines, z.filled = z.quantity) ↔
      y.filled + k = y.quantity ∧ ∀ j z, j ≠ l → x.lines[j]? = some z → z.filled = z.quantity := by
  obtain ⟨hfill, hquantity⟩ := y.confirmed_filled k q
  have hself : (x.confirmed l k q).lines[l]? = some (y.confirmed k q) := by
    rw [Order.confirmed, List.getElem?_modify, hy]
    simp
  have hother (j : Nat) (hj : j ≠ l) : (x.confirmed l k q).lines[j]? = x.lines[j]? := by
    rw [Order.confirmed, List.getElem?_modify]
    simp [Ne.symm hj]
  constructor
  · refine fun h => ⟨?_, fun j z hj hz => h z (List.mem_of_getElem? ((hother j hj).trans hz))⟩
    have := h _ (List.mem_of_getElem? hself)
    omega
  · rintro ⟨hl, hrest⟩ z hz
    obtain ⟨j, hj⟩ := List.mem_iff_getElem?.mp hz
    by_cases e : j = l
    · subst e
      obtain rfl := Option.some.inj (hself.symm.trans hj)
      omega
    · exact hrest j z e ((hother j e).symm.trans hj)

/-- What a pick ends the order by: the settled reading agrees with the new weight, the line is covered, and the others
are filled (R109). -/
def PickEnds (s : Store) (x : Order) (y : Line) (l k ln : Nat) (e : Int) (c : Nat) : Prop :=
  (∃ w, (s.lane ln).settled = some w ∧ (w - e).natAbs ≤ c) ∧ y.filled + k = y.quantity ∧
    ∀ j y', j ≠ l → x.lines[j]? = some y' → y'.filled = y'.quantity

section

variable (h : s.order o = some x) (ha : x.state = .active) (hlane : x.lane = some ln) (hln : ln < 16) (hk : 0 < k)
  (hs : (s.lane ln).state = .assigned) (hy : x.lines[l]? = some y)

include h ha hlane hln hy

theorem laneTaken_completes : (s.laneTaken num k r o l ln).Completes o ln (x.confirmed l k r.quantity) ↔
    s.PickEnds x y l k ln (min 32767 ((s.lane ln).expected + (k * s.weightOf (s.articleOf r.slot) : Nat)))
      ((s.lane ln).tolerance + k * s.toleranceOf (s.articleOf r.slot)) := by
  rw [Completes, laneTaken_lane hln, Lane.confirmed_matched, confirmed_filled hy k r.quantity]
  constructor
  · rintro ⟨_, _, _, hfilled, hw⟩
    exact ⟨hw, hfilled⟩
  · rintro ⟨hw, hfilled⟩
    exact ⟨laneTaken_order h, hlane, ha, hfilled, hw⟩

omit ha hy in
/-- Only the order itself can be found complete, on its own lane. -/
theorem laneTaken_completes_only {x' : Order} {m : Nat} (hc : (s.laneTaken num k r o l ln).Completes o m x') :
    (s.laneTaken num k r o l ln).Completes o ln (x.confirmed l k r.quantity) := by
  obtain rfl := Option.some.inj (hc.1.symm.trans (laneTaken_order h))
  obtain rfl := Option.some.inj (hc.2.1.symm.trans (show (x.confirmed l k r.quantity).lane = some ln from hlane))
  exact hc

include hk hs

omit hy in
/-- Where the pick does not end the order, its checks change nothing. -/
theorem pickChecked_goesOn (hord : (s.lane ln).order = some o)
    (hno : ¬ (s.laneTaken num k r o l ln).Completes o ln (x.confirmed l k r.quantity)) :
    s.checked num k r o l = s.laneTaken num k r o l ln := by
  have hlord : ((s.laneTaken num k r o l ln).lane ln).order = some o := by
    rw [laneTaken_lane hln]
    exact ((s.lane ln).confirmed_weights _ _ _).2.2.2.trans hord
  have hstill : (s.laneTaken num k r o l ln).completionCheck o = s.laneTaken num k r o l ln :=
    completionCheck_incomplete fun ⟨_, _, hc⟩ => hno (laneTaken_completes_only h hlane hln hc)
  have hweighed : s.pickWeighed num k r o l = s.laneTaken num k r o l ln := by
    rw [pickWeighed_eq h hlane hk hs, withReport]
    split
    · rw [matchReport_some hlord, hstill]
    · rfl
  rw [checked, hweighed, orderChecks, if_pos ((orderIs_iff (laneTaken_order h) .active).mpr ha)]
  split
  · exact hstill
  · rfl

/-- Where the pick ends the order, its checks complete it. -/
theorem pickChecked_completes (hord : (s.lane ln).order = some o)
    (hc : (s.laneTaken num k r o l ln).Completes o ln (x.confirmed l k r.quantity)) :
    s.checked num k r o l = (s.laneTaken num k r o l ln).complete o ln (x.confirmed l k r.quantity) := by
  have hlord : ((s.laneTaken num k r o l ln).lane ln).order = some o := by
    rw [laneTaken_lane hln]
    exact ((s.lane ln).confirmed_weights _ _ _).2.2.2.trans hord
  have hcheck := completionCheck_complete hc
  have hfilled : ((s.laneTaken num k r o l ln).lineOf o l).any Line.isFilled = true := by
    have hline : (s.laneTaken num k r o l ln).lineOf o l = some (y.confirmed k r.quantity) := by
      rw [lineOf, laneTaken_order h, Option.bind_some, Order.confirmed, List.getElem?_modify, hy]
      simp
    have hmem := hc.2.2.2.1 _ (List.mem_of_getElem? (show (x.confirmed l k r.quantity).lines[l]? =
      some (y.confirmed k r.quantity) by rw [Order.confirmed, List.getElem?_modify, hy]; simp))
    rw [hline, Option.any_some]
    exact beq_iff_eq.mpr hmem
  rw [checked, pickWeighed_eq h hlane hk hs, withReport]
  split
  · rw [matchReport_some hlord, hcheck]
    have hdone := complete_order (s := s.laneTaken num k r o l ln) (l := ln) (o := x.confirmed l k r.quantity)
      (order_lt h)
    rw [orderChecks, if_neg fun hactive => nomatch (orderIs_iff hdone .active).mp hactive]
    exact cancellationEnd_ignored hdone nofun
  · dsimp only
    rw [orderChecks, if_pos ((orderIs_iff (laneTaken_order h) .active).mpr ha), if_pos hfilled, hcheck]

end

/-! ## The end of the event -/

/-- What an event that ends a pick keeps of an order and of a lane. -/
theorem finished_order (hm : Moves Part.finishing s t) (o : Nat) :
    (t.eventEnd.order o).map Order.standing = (s.order o).map Order.standing := by
  rw [eventEnd_order, hm.order (by simp)]

theorem finished_lane (hm : Moves Part.finishing s t) (m : Nat) : t.eventEnd.lane m = s.lane m := by
  rw [eventEnd_lane, hm.lane (by simp)]

theorem finished_count (hm : Moves Part.finishing s t) (q : Nat) :
    (t.eventEnd.slot q).count = (s.slot q).count := by
  rw [eventEnd_count, hm.slot_count (by simp)]

theorem lanes_of_standing (h : t.standing = s.standing) : t.lanes = s.lanes :=
  congrArg Store.lanes (a₁ := t.standing) (a₂ := s.standing) h

theorem finished_tables (hm : Moves Part.finishing s t) :
    t.eventEnd.articles = s.articles ∧ t.eventEnd.batches = s.batches ∧ t.eventEnd.lanes = s.lanes := by
  refine ⟨(eventEnd_articles t).trans (hm.articles (by simp)), (eventEnd_batches t).trans (hm.batches (by simp)),
    (lanes_of_standing (standing_eventEnd t)).trans (hm.lanes (by simp))⟩

theorem finished_raised (hm : Moves Part.finishing s t) {src : Source} {f : Half} (h : s.Raised src f) :
    t.eventEnd.Raised src f := (hm.raised h).eventEnd

/-- An order that stands like another has its state, its tag and its lines but for what is reserved. -/
theorem order_stands {x : Order} (h : (t.order o).map Order.standing = some x.standing) :
    ∃ x', t.order o = some x' ∧ x'.state = x.state ∧ x'.tag = x.tag ∧
      x'.lines.map Line.standing = x.lines.map Line.standing := by
  obtain ⟨x', hx', he⟩ := Option.map_eq_some_iff.mp h
  exact ⟨x', hx', (congrArg Order.state he :), (congrArg Order.tag he :), (congrArg Order.lines he :)⟩

theorem line_stands {ys zs : List Line} (h : ys.map Line.standing = zs.map Line.standing) {z : Line}
    (hz : zs[l]? = some z) : ys.length = zs.length ∧ ∃ y, ys[l]? = some y ∧ y.filled = z.filled := by
  have hl := congrArg List.length h
  rw [List.length_map, List.length_map] at hl
  have hget := congrArg (fun ls => ls[l]?) h
  simp only [List.getElem?_map, hz, Option.map_some] at hget
  obtain ⟨y, hy, he⟩ := Option.map_eq_some_iff.mp hget
  exact ⟨hl, y, hy, (congrArg Line.filled he :)⟩

end Store

end Sys2Proof.Machine

end

/-! # BAY_KEY_BREAK on a pick or a put (R19, R20, R108, R127, R142) -/

section

namespace Sys2Proof.Machine

open Sys2Proof

theorem State.JobsAre.slot {t : State} {x : Store} (h : t.JobsAre x) (q : Nat) : t.store.slot q = x.slot q := by
  rw [h]; rfl

theorem State.JobsAre.batch {t : State} {x : Store} (h : t.JobsAre x) (b : Nat) : t.store.batch b = x.batch b := by
  rw [h]; rfl

theorem State.JobsAre.lanes {t : State} {x : Store} (h : t.JobsAre x) : t.store.lanes = x.lanes := by
  rw [h]

/-- The batch after a put of `k` of `q` planned tyres (R127). -/
def Batch.putIn (y : Batch) (k q : Nat) : Batch :=
  { y with planned := y.planned - q, placed := y.placed + k, unplaced := y.unplaced + (q - k) }

namespace Store

variable {s : Store} {o l k q num ln i a b : Nat} {x : Order} {y : Line} {r : Reservation} {z : Article} {it : Item}

theorem dispatch_pick (h : it.ref = .pick num) (i b : Nat) : s.dispatch i b it = s.pickConfirm num it.displayed := by
  unfold dispatch
  rw [h]

theorem dispatch_put (h : it.ref = .put num) (i b : Nat) : s.dispatch i b it = s.putConfirm num it.displayed := by
  unfold dispatch
  rw [h]

/-! ## A pick -/

/-- The store at the end of the event of a pick confirmed at face `i`. -/
def pickEnd (s : Store) (i num k : Nat) : Store :=
  ((s.pickConfirm num k).checkPresentation (i / 2) (i % 2)).eventEnd

section

variable (hr : s.reservation num = some r) (hc : r.claim = .pick o l) (hf : (s.face i).state = .presenting)
  (hw : (s.face i).kind = some .work)

include hr hc hf hw

theorem pickEnd_count (hq : r.slot < 288) :
    ((s.pickEnd i num k).slot r.slot).count = (s.slot r.slot).count - k ∧
      ∀ q, q ≠ r.slot → ((s.pickEnd i num k).slot q).count = (s.slot q).count := by
  have hm := pick_finishing hr hc k hf hw
  obtain ⟨hself, hother⟩ := checked_count (s := s) (num := num) (k := k) (o := o) (l := l) hq
  exact ⟨(finished_count hm _).trans hself, fun q hne => (finished_count hm q).trans (hother q hne)⟩

theorem pickEnd_short (hk : k < r.quantity) : (s.pickEnd i num k).Raised (.order o) Flag.orderShort := by
  have hshort : (s.credited num k r o l).Raised (.order o) Flag.orderShort := lineConfirmed_short hk
  exact finished_raised (pick_finishing hr hc k hf hw)
    (((laneConfirmed_moves _ o k _ _).trans (orderChecks_moves _ o l)).raised hshort)

theorem pickEnd_tables :
    (s.pickEnd i num k).articles = s.articles ∧ (s.pickEnd i num k).batches = s.batches := by
  obtain ⟨harticles, hbatches, _⟩ := finished_tables (pick_finishing hr hc k hf hw)
  have hm := (checked_moves_picked s num k r o l)
  have hp := picked_moves s num k r
  exact ⟨harticles.trans ((hm.articles (by simp)).trans (hp.articles (by simp))),
    hbatches.trans ((hm.batches (by simp)).trans (hp.batches (by simp)))⟩

/-- An ACTIVE order has its line filled by the pick, and is ACTIVE or COMPLETE. -/
theorem pickEnd_line (ho : s.order o = some x) (ha : x.state = .active) (hy : x.lines[l]? = some y) :
    ∃ x' y', (s.pickEnd i num k).order o = some x' ∧ x'.lines[l]? = some y' ∧ y'.filled = y.filled + k ∧
      x'.tag = x.tag ∧ x'.lines.length = x.lines.length := by
  have hfin := finished_order (pick_finishing hr hc k hf hw) o
  have hconfirmed : (x.confirmed l k r.quantity).lines[l]? = some (y.confirmed k r.quantity) := by
    rw [Order.confirmed, List.getElem?_modify, hy]
    simp
  have hstands : ∃ x', (s.pickEnd i num k).order o = some x' ∧ x'.tag = x.tag ∧
      x'.lines.map Line.standing = (x.confirmed l k r.quantity).lines.map Line.standing := by
    rcases (checked_activeOrDone ho ha num k l r).2 with hck | hck
    · rw [hck] at hfin
      obtain ⟨x', hx', _, htag, hlines⟩ := order_stands hfin
      exact ⟨x', hx', htag, hlines⟩
    · rw [hck] at hfin
      obtain ⟨x', hx', _, htag, hlines⟩ := order_stands hfin
      exact ⟨x', hx', htag, hlines⟩
  obtain ⟨x', hx', htag, hlines⟩ := hstands
  obtain ⟨hlen, y', hy', hfilled⟩ := line_stands hlines hconfirmed
  refine ⟨x', y', hx', hy', hfilled.trans (y.confirmed_filled k r.quantity).1, htag, hlen.trans ?_⟩
  exact List.length_modify _ _ _

section

variable (ho : s.order o = some x) (ha : x.state = .active) (hlane : x.lane = some ln) (hln : ln < 16) (hk : 0 < k)
  (hs : (s.lane ln).state = .assigned) (hart : (s.slot r.slot).article = some a) (hz : s.article a = some z)

include ho ha hlane hln hk hs hart hz

omit hr hc hf hw ho ha hlane hln hk hs in
theorem slot_weights :
    s.weightOf (s.articleOf r.slot) = z.weight ∧ s.toleranceOf (s.articleOf r.slot) = z.tolerance := by
  have harticle : s.articleOf r.slot = a := by rw [articleOf, hart]; rfl
  rw [harticle, weightOf, toleranceOf, hz]
  exact ⟨rfl, rfl⟩

theorem pickEnd_lane : ((s.pickEnd i num k).lane ln).expected = min 32767 ((s.lane ln).expected + k * z.weight) ∧
    ((s.pickEnd i num k).lane ln).tolerance = (s.lane ln).tolerance + k * z.tolerance := by
  have hweighed := checked_weighedAt (num := num) (r := r) (l := l) ho ha hlane hln hk hs
  obtain ⟨hwt, htol⟩ := slot_weights hart hz
  rw [hwt, htol] at hweighed
  rw [pickEnd, finished_lane (pick_finishing hr hc k hf hw)]
  exact ⟨by rw [hweighed.1]; push_cast; rfl, hweighed.2⟩

/-- The pick that ends the order completes it and its lane; another leaves both (R109, R110). -/
theorem pickEnd_completes (hy : x.lines[l]? = some y) (hord : (s.lane ln).order = some o) :
    (s.PickEnds x y l k ln (min 32767 ((s.lane ln).expected + k * z.weight)) ((s.lane ln).tolerance + k * z.tolerance) →
      (∃ x', (s.pickEnd i num k).order o = some x' ∧ x'.state = .complete) ∧
        ((s.pickEnd i num k).lane ln).state = .done ∧ (s.pickEnd i num k).Raised (.order o) Flag.orderComplete) ∧
    (¬ s.PickEnds x y l k ln (min 32767 ((s.lane ln).expected + k * z.weight))
        ((s.lane ln).tolerance + k * z.tolerance) →
      (∃ x', (s.pickEnd i num k).order o = some x' ∧ x'.state = .active) ∧
        ((s.pickEnd i num k).lane ln).state = .assigned) := by
  have hm := pick_finishing hr hc k hf hw
  have hiff := laneTaken_completes (num := num) (r := r) (k := k) ho ha hlane hln hy
  obtain ⟨hwt, htol⟩ := slot_weights hart hz
  rw [hwt, htol] at hiff
  push_cast at hiff
  have horder := finished_order hm o
  have hlaneEnd := finished_lane hm ln
  refine ⟨fun hends => ?_, fun hno => ?_⟩
  · have hcomplete := hiff.mpr hends
    have hck := pickChecked_completes ho ha hlane hln hk hs hy hord hcomplete
    rw [hck] at horder hlaneEnd hm
    rw [complete_order (order_lt ho)] at horder
    obtain ⟨x', hx', hstate, _⟩ := order_stands horder
    refine ⟨⟨x', hx', hstate⟩, ?_, finished_raised hm complete_raised⟩
    rw [pickEnd, hlaneEnd, complete_lane_self hln]
  · have hck := pickChecked_goesOn (num := num) (r := r) (l := l) ho ha hlane hln hk hs hord (mt hiff.mp hno)
    rw [hck] at horder hlaneEnd
    rw [laneTaken_order ho] at horder
    obtain ⟨x', hx', hstate, _⟩ := order_stands horder
    refine ⟨⟨x', hx', hstate.trans ha⟩, ?_⟩
    rw [pickEnd, hlaneEnd, laneTaken_lane hln]
    exact ((s.lane ln).confirmed_weights _ _ _).2.2.1.trans hs

end

end

/-! ## A put -/

/-- The store at the end of the event of a put confirmed at face `i`. -/
def putEnd (s : Store) (i num k : Nat) : Store :=
  ((s.putConfirm num k).checkPresentation (i / 2) (i % 2)).eventEnd

/-- The slot after a put of `k` tyres: the reservation has left the list. -/
def putIn (s : Store) (num k : Nat) (r : Reservation) : Store :=
  (s.dropReservation num).changeSlot r.slot fun x =>
    { x with count := x.count + k, incoming := x.incoming - r.quantity }

theorem putConfirm_eq (h : s.reservation num = some r) (hc : r.claim = .put b) (k : Nat) :
    s.putConfirm num k =
      ((((s.putIn num k r).batchConfirmed b k r.quantity).drainedCheck (slotRecord r.slot)).triggerPass) := by
  unfold putConfirm
  rw [h]
  dsimp only
  rw [hc]
  rfl

theorem putIn_moves (s : Store) (num k : Nat) (r : Reservation) :
    Moves (fun p => p = .leaving ∨ p = .count (slotRecord r.slot) ∨ p = .listing) s (s.putIn num k r) := by
  unfold putIn changeSlot
  refine .after (updCarrier_moves ?_ ?_ (.count _ _ _)) (.one (.inl rfl) (.leave s num))
  · exact .inr (.inl rfl)
  · exact .inr (.inr rfl)

theorem putIn_slot (hq : r.slot < 288) : ((s.putIn num k r).slot r.slot).count = (s.slot r.slot).count + k ∧
    ∀ q, q ≠ r.slot → (s.putIn num k r).slot q = s.slot q := by
  refine ⟨?_, fun q hne => ?_⟩
  · rw [putIn, slot_changeSlot_self hq, settle_count]
    rfl
  · rw [putIn, slot_changeSlot_other hne]
    rfl

/-! ### The batch (R127, R129) -/

section

variable {v : Batch} (hb : b < 16) (hv : s.batch b = .opened v)

include hb hv

theorem addUnplaced_batch (d : Nat) :
    (s.addUnplaced b d).batch b = .opened { v with unplaced := v.unplaced + d } := by
  have hset : (s.updBatch b fun y => { y with unplaced := y.unplaced + d }).batch b =
      .opened { v with unplaced := v.unplaced + d } := by
    rw [updBatch_opened hv, setBatch_batch_self _ hb]
  simp only [addUnplaced]
  split
  · exact hset
  · exact hset

omit hb in
theorem batchCheck_opened : s.batchCheck b =
    if v.planned = 0 then (s.setBatch b (.done v)).raise (.batch b) Flag.batchDone else s := by
  unfold batchCheck
  rw [openBatch_eq_some.mpr hv]

/-- The batch after a put of `k` of `q` planned tyres; with nothing planned left it is DONE. -/
theorem batchConfirmed_batch (k q : Nat) :
    (v.planned ≤ q → (s.batchConfirmed b k q).batch b = .done (v.putIn k q) ∧
      (s.batchConfirmed b k q).Raised (.batch b) Flag.batchDone) ∧
    (q < v.planned → (s.batchConfirmed b k q).batch b = .opened (v.putIn k q)) := by
  have hupd : (s.updBatch b fun y => { y with planned := y.planned - q, placed := y.placed + k }).batch b =
      .opened { v with planned := v.planned - q, placed := v.placed + k } := by
    rw [updBatch_opened hv, setBatch_batch_self _ hb]
  have hadd := addUnplaced_batch hb hupd (q - k)
  have hcheck := batchCheck_opened hadd
  refine ⟨fun hle => ?_, fun hlt => ?_⟩
  · rw [batchConfirmed, hcheck, if_pos (Nat.sub_eq_zero_of_le hle)]
    exact ⟨setBatch_batch_self _ hb _, raise_raised _ _ _⟩
  · rw [batchConfirmed, hcheck, if_neg (Nat.sub_ne_zero_of_lt hlt)]
    exact hadd

end

theorem batchConfirmed_short (h : k < q) : (s.batchConfirmed b k q).Raised (.batch b) Flag.batchUnplaced := by
  have hraised (u : Store) : (u.addUnplaced b (q - k)).Raised (.batch b) Flag.batchUnplaced := by
    simp only [addUnplaced]
    rw [if_pos (Nat.sub_pos_of_lt h)]
    exact raise_raised _ _ _
  exact (batchCheck_moves (K := fun p => p = .batch b ∨ p = .notice) (.inl rfl) (.inr rfl) _).raised (hraised _)

/-! ### The event -/

section

variable (hr : s.reservation num = some r) (hc : r.claim = .put b) (hf : (s.face i).state = .presenting)
  (hw : (s.face i).kind = some .work)

include hr hc hf hw

/-- All that follows the batch, up to the end of the event. -/
theorem put_finishing (k : Nat) : Moves Part.finishing ((s.putIn num k r).batchConfirmed b k r.quantity)
    ((s.putConfirm num k).checkPresentation (i / 2) (i % 2)) := by
  have heq := putConfirm_eq hr hc k
  have hthen : Moves Part.motion ((s.putIn num k r).batchConfirmed b k r.quantity)
      (((s.putIn num k r).batchConfirmed b k r.quantity).drainedCheck (slotRecord r.slot)) := drainedCheck_moves_any _ _
  have hall : Moves Part.confirming s (s.putConfirm num k) := by
    rw [heq]
    refine (((putIn_moves s num k r).mono ?_).trans ((batchConfirmed_moves (by simp) (by simp) _ k r.quantity).trans
      (hthen.mono fun p hp => Part.confirming_of_auditing p (Part.auditing_of_motion p hp)))).trans
      (triggerPass_moves (by simp) _)
    rintro p (rfl | rfl | rfl)
    all_goals simp
  refine .trans ?_ (checkPresentation_moves_work ?_)
  · rw [heq]
    exact (hthen.mono Part.finishing_of_motion).trans (triggerPass_moves (by simp) _)
  · rw [faceIndex_div_mod, (hall.presenting (by simp) (by simp) hf).2.2, hw]
    exact nofun

theorem putEnd_count (hq : r.slot < 288) :
    ((s.putEnd i num k).slot r.slot).count = (s.slot r.slot).count + k ∧
      ∀ q, q ≠ r.slot → ((s.putEnd i num k).slot q).count = (s.slot q).count := by
  have hm := put_finishing hr hc hf hw k
  have hbatch := batchConfirmed_moves (K := fun p => p = .batch b ∨ p = .notice) (.inl rfl) (.inr rfl)
    (s.putIn num k r) k r.quantity
  obtain ⟨hself, hother⟩ := putIn_slot (s := s) (num := num) (k := k) hq
  refine ⟨(finished_count hm _).trans ((hbatch.slot_count (by simp) _).trans hself), fun q hne => ?_⟩
  rw [putEnd, finished_count hm q, hbatch.slot_count (by simp) q, hother q hne]

theorem putEnd_short (hk : k < r.quantity) : (s.putEnd i num k).Raised (.batch b) Flag.batchUnplaced :=
  finished_raised (put_finishing hr hc hf hw k) (batchConfirmed_short hk)

theorem putEnd_batch {v : Batch} (hb : b < 16) (hv : s.batch b = .opened v) :
    (v.planned ≤ r.quantity → (s.putEnd i num k).batch b = .done (v.putIn k r.quantity) ∧
      (s.putEnd i num k).Raised (.batch b) Flag.batchDone) ∧
    (r.quantity < v.planned → (s.putEnd i num k).batch b = .opened (v.putIn k r.quantity)) := by
  have hm := put_finishing hr hc hf hw k
  have hin : (s.putIn num k r).batch b = .opened v := ((putIn_moves s num k r).batch (by simp)).trans hv
  have hend : (s.putEnd i num k).batch b = ((s.putIn num k r).batchConfirmed b k r.quantity).batch b := by
    rw [putEnd, batch, batch, (finished_tables hm).2.1]
  obtain ⟨hdone, hopen⟩ := batchConfirmed_batch hb hin k r.quantity
  refine ⟨fun hle => ⟨hend.trans (hdone hle).1, finished_raised hm (hdone hle).2⟩, fun hlt => hend.trans (hopen hlt)⟩

theorem putEnd_tables : (s.putEnd i num k).articles = s.articles ∧ (s.putEnd i num k).lanes = s.lanes := by
  obtain ⟨harticles, _, hlanes⟩ := finished_tables (put_finishing hr hc hf hw k)
  have hbatch := batchConfirmed_moves (K := fun p => p = .batch b ∨ p = .notice) (.inl rfl) (.inr rfl)
    (s.putIn num k r) k r.quantity
  have hin := putIn_moves s num k r
  exact ⟨harticles.trans ((hbatch.articles (by simp)).trans (hin.articles (by simp))),
    hlanes.trans ((hbatch.lanes (by simp)).trans (hin.lanes (by simp)))⟩

end

end Store

end Sys2Proof.Machine

end

/-! # BAY_KEY_BREAK on a count: the recount rule, and a presentation that goes on (R65, R160, R161) -/

section

namespace Sys2Proof.Machine

open Sys2Proof

/-! ## The recount rule -/

/-- What a count of `k` after the counts `cs` makes of a bay (R160, R161). -/
def countResult (depth : Nat) (article : Option Nat) (book k : Nat) (cs : List Nat) : Option BayResult :=
  if k = book then some .verified
  else if k ∈ cs then
    some (if depth < k then .disputed else if article = none ∧ 0 < k then .foreign else .adjusted k)
  else if cs.length = 2 then some .disputed else none

/-- The rule with the newest count named: it decides against the book first, then against the counts before it. -/
theorem recount_append {cs : List Nat} (h : cs.length ≤ 2) (book k : Nat) : recount book (cs ++ [k]) =
    if k = book then .verified else if k ∈ cs then .adjusted k else if cs.length = 2 then .disputed else .again := by
  match cs, h with
  | [], _ => simp [recount]
  | [c], _ => simp [recount]
  | [c, d], _ => simp [recount]

theorem bayResultOf_recount {cs : List Nat} (h : cs.length ≤ 2) (depth : Nat) (article : Option Nat) (book k : Nat) :
    bayResultOf depth article (recount book (cs ++ [k])) = countResult depth article book k cs := by
  rw [recount_append h, countResult]
  split
  · rfl
  · split
    · rfl
    · split
      · rfl
      · rfl

/-- An entry once bay `b` has a further count and the result of the rule. -/
def AuditEntry.counted (e : AuditEntry) (b book k : Nat) (result : Option BayResult) : AuditEntry :=
  { e with bays := put e.bays b ⟨some book, (look e.bays BayCount.blank b).counts ++ [k], result⟩ }

theorem AuditEntry.counted_result (e : AuditEntry) {b : Nat} (hb : b < 3) (book k : Nat) (result : Option BayResult) :
    (look (e.counted b book k result).bays BayCount.blank b).result = result := by
  rw [counted, look_put_same _ _ _ _ hb]

theorem AuditEntry.counted_other (e : AuditEntry) {b b' : Nat} (h : b' ≠ b) (book k : Nat) (result : Option BayResult) :
    look (e.counted b book k result).bays BayCount.blank b' = look e.bays BayCount.blank b' :=
  look_put_other _ _ _ _ _ (Ne.symm h)

theorem Face.isWorked_iff (f : Face) : f.isWorked = true ↔ ∀ b, b < 3 → look f.bays [] b = [] := by
  simp only [Face.isWorked, List.all_eq_true, List.isEmpty_iff]
  refine ⟨fun h b hb => h _ ?_, fun h x hx => ?_⟩
  · simp [look, hb]
  · obtain ⟨b, hb, rfl⟩ := Vector.mem_iff_getElem.mp (Vector.mem_toList_iff.mp hx)
    have hlook := h b hb
    rwa [look, Vector.getElem?_eq_getElem hb] at hlook

namespace Store

variable {s t : Store} {a b book i k n f p : Nat} {e : AuditEntry} {it : Item} {rest : List Item}

theorem entry_of_listed (h : s.audit a = .listed e) : s.entry a = some e := by
  simp only [entry, h]

/-- The rule's result for bay `b` of an entry, of the counts before the newest. -/
def bayCounted (s : Store) (e : AuditEntry) (b book k : Nat) : Option BayResult :=
  countResult (s.depthOf (recordOf e.carousel e.carrier * 3 + b))
    (s.slot (recordOf e.carousel e.carrier * 3 + b)).article book k (look e.bays BayCount.blank b).counts

theorem countConfirm_eq (h : s.audit a = .listed e) (hbook : (look e.bays BayCount.blank b).book = some book)
    (hlen : (look e.bays BayCount.blank b).counts.length ≤ 2) (k : Nat) : s.countConfirm a b k =
      (s.setAudit a (.listed (e.counted b book k (s.bayCounted e b book k))), (s.bayCounted e b book k).isNone) := by
  have hresult : bayResultOf (s.depthOf (recordOf e.carousel e.carrier * 3 + b))
      (s.slot (recordOf e.carousel e.carrier * 3 + b)).article
      (recount ((look e.bays BayCount.blank b).book.getD 0) ((look e.bays BayCount.blank b).counts ++ [k])) =
      s.bayCounted e b book k := by
    rw [hbook]
    exact bayResultOf_recount hlen _ _ book k
  simp only [countConfirm, entry_of_listed h, hresult]
  rw [hbook]
  rfl

/-- The store once bay `b` of audit `a` has a further count; where the rule calls for another the bay is offered
again. -/
def countTaken (s : Store) (i b a book k : Nat) (e : AuditEntry) : Store :=
  if s.bayCounted e b book k = none then
    (s.setAudit a (.listed (e.counted b book k (s.bayCounted e b book k)))).recountItem i b a
  else s.setAudit a (.listed (e.counted b book k (s.bayCounted e b book k)))

theorem dispatch_count (href : it.ref = .count a) (h : s.audit a = .listed e)
    (hbook : (look e.bays BayCount.blank b).book = some book)
    (hlen : (look e.bays BayCount.blank b).counts.length ≤ 2) (i : Nat) :
    s.dispatch i b it = s.countTaken i b a book it.displayed e := by
  simp only [dispatch, href, countConfirm_eq h hbook hlen, Option.isNone_iff_eq_none, countTaken]

theorem countTaken_audit (ha : a < 16) :
    (s.countTaken i b a book k e).audit a = .listed (e.counted b book k (s.bayCounted e b book k)) := by
  unfold countTaken
  split
  · exact setAudit_audit_self s ha _
  · exact setAudit_audit_self s ha _

theorem countTaken_carriers : (s.countTaken i b a book k e).carriers = s.carriers := by
  unfold countTaken
  split
  · rfl
  · rfl

theorem countTaken_auditList : (s.countTaken i b a book k e).auditList = s.auditList := by
  unfold countTaken
  split
  · rfl
  · rfl

theorem countTaken_passDue : (s.countTaken i b a book k e).passDue = s.passDue := by
  unfold countTaken
  split
  · rfl
  · rfl

theorem countTaken_face (hi : i < 8) : (s.countTaken i b a book k e).face i = { s.face i with
    bays := if s.bayCounted e b book k = none then put (s.face i).bays b [countItem a] else (s.face i).bays } := by
  unfold countTaken
  split
  · exact putFace_face_self _ hi _
  · rfl

/-! ## A presentation that goes on (R62) -/

theorem checkPresentation_goesOn (h : ¬ (s.face (faceIndex n f)).isWorked = true) :
    s.checkPresentation n f = (s.derive (faceIndex n f)).list (.status (4 + faceIndex n f)) := by
  simp only [checkPresentation]
  exact if_neg h

theorem checkPresentation_closes (h : (s.face (faceIndex n f)).isWorked = true) :
    s.checkPresentation n f = s.closePresentation n f := by
  simp only [checkPresentation]
  exact if_pos h

/-- A display derived, and its record listed, leaves all but the display, at the end of the event too. -/
theorem derived_eventEnd (hp : p < 8) (hd : s.passDue = false) :
    ((s.derive p).list (.status (4 + p))).eventEnd.audits = s.audits ∧
    ((s.derive p).list (.status (4 + p))).eventEnd.auditList = s.auditList ∧
    ((s.derive p).list (.status (4 + p))).eventEnd.carriers = s.carriers ∧
    ((s.derive p).list (.status (4 + p))).eventEnd.face p = { s.face p with desired := s.desiredOf p } := by
  have hpass : ((s.derive p).list (.status (4 + p))).passDue = false := by
    rw [list_passDue, derive, setFace_passDue, hd]
  have hface : ((s.derive p).list (.status (4 + p))).face p = (s.derive p).face p := by rw [face, list_faces]; rfl
  obtain ⟨ps, hps⟩ := eventEnd_panels_only hpass
  rw [hps]
  refine ⟨?_, ?_, ?_, hface.trans (derive_face_self s hp)⟩
  · exact (list_audits _ _).trans (setFace_audits _ _ _)
  · exact (list_auditList _ _).trans (setFace_auditList _ _ _)
  · exact (list_carriers _ _).trans (setFace_carriers _ _ _)

/-- The store at the end of the event of a count confirmed at face `i`. -/
def countEnd (s : Store) (i b a book k : Nat) (e : AuditEntry) : Store :=
  ((s.countTaken i b a book k e).checkPresentation (i / 2) (i % 2)).eventEnd

section

variable (hp : p < 8) (hb : b < 3)

include hp hb

/-- The face still has an item: the bay is counted again, has more to count, or another bay has. -/
theorem countTaken_unworked (hmore : s.bayCounted e b book k = none ∨ look (s.face p).bays [] b ≠ [] ∨
    ∃ b', b' < 3 ∧ b' ≠ b ∧ look (s.face p).bays [] b' ≠ []) :
    ¬ ((s.countTaken p b a book k e).face p).isWorked = true := by
  rw [Face.isWorked_iff, countTaken_face hp]
  intro hall
  rcases hmore with hnone | hrest | ⟨b', hb', hne, hlook⟩
  · have hbay := hall b hb
    rw [if_pos hnone] at hbay
    exact absurd ((look_put_same _ _ _ _ hb).symm.trans hbay) (List.cons_ne_nil _ _)
  · have hbay := hall b hb
    dsimp only at hbay
    split at hbay
    · exact absurd ((look_put_same _ _ _ _ hb).symm.trans hbay) (List.cons_ne_nil _ _)
    · exact hrest hbay
  · have hbay := hall b' hb'
    dsimp only at hbay
    split at hbay
    · exact hlook ((look_put_other _ _ _ _ _ (Ne.symm hne)).symm.trans hbay)
    · exact hlook hbay

/-- A count that leaves the presentation open changes the entry and the bay, and nothing of stock or list. -/
theorem countEnd_goesOn (ha : a < 16) (hd : s.passDue = false)
    (hmore : s.bayCounted e b book k = none ∨ look (s.face p).bays [] b ≠ [] ∨
      ∃ b', b' < 3 ∧ b' ≠ b ∧ look (s.face p).bays [] b' ≠ []) :
    (s.countEnd p b a book k e).audit a = .listed (e.counted b book k (s.bayCounted e b book k)) ∧
    ((s.countEnd p b a book k e).face p).bays =
      (if s.bayCounted e b book k = none then put (s.face p).bays b [countItem a] else (s.face p).bays) ∧
    ((s.countEnd p b a book k e).face p).state = (s.face p).state ∧
    (s.countEnd p b a book k e).carriers = s.carriers ∧ (s.countEnd p b a book k e).auditList = s.auditList ∧
    .status (4 + p) ∈ (s.countEnd p b a book k e).writeBack := by
  have hun : ¬ ((s.countTaken p b a book k e).face (faceIndex (p / 2) (p % 2))).isWorked = true := by
    rw [faceIndex_div_mod]
    exact countTaken_unworked hp hb hmore
  have hcheck := checkPresentation_goesOn hun
  rw [faceIndex_div_mod] at hcheck
  obtain ⟨haudits, hlist, hcarriers, hface⟩ := derived_eventEnd (s := s.countTaken p b a book k e) hp
    (countTaken_passDue.trans hd)
  rw [countEnd, hcheck]
  refine ⟨?_, ?_, ?_, hcarriers.trans countTaken_carriers, hlist.trans countTaken_auditList,
    eventEnd_keeps_listed _ (mem_list_writeBack _ _)⟩
  · rw [audit, haudits]
    exact countTaken_audit ha
  · rw [hface, countTaken_face hp]
  · rw [hface, countTaken_face hp]

end

end Store

end Sys2Proof.Machine

end

/-! # The commit of an audit whose count presentation has closed (R21, R162, R163) -/

section

namespace Sys2Proof.Machine

open Sys2Proof

/-! ## The slots of a committed carrier (R21) -/

/-- The count of a slot whose bay has a result. -/
def committedCount (result : Option BayResult) (count : Nat) : Nat :=
  match result with
  | some (.adjusted v) => v
  | _ => count

/-- What the commit makes of a slot, with the article it leaves. -/
def Slot.committed (result : Option BayResult) (x : Slot) : Slot := (Store.commitSlot result x).settle

namespace Slot

variable {result : Option BayResult} {x : Slot}

theorem committed_count : (x.committed result).count = committedCount result x.count := by
  rw [committed, Store.settle_count]
  cases result with
  | none => rfl
  | some r => cases r <;> rfl

theorem settle_blockReason (x : Slot) : x.settle.blockReason = x.blockReason := by
  unfold settle
  split <;> rfl

theorem settle_article (h : x.count + x.incoming = 0) : x.settle.article = none := by
  rw [settle, if_pos h]

theorem committed_article (h : (x.committed result).count + x.incoming = 0) : (x.committed result).article = none := by
  refine settle_article ?_
  rw [committed, Store.settle_count] at h
  have hincoming : (Store.commitSlot result x).incoming = x.incoming := by
    cases result with
    | none => rfl
    | some r => cases r <;> rfl
  rw [hincoming, h]

theorem committed_disputed : (x.committed (some .disputed)).blockReason = some .disputed := settle_blockReason _

theorem committed_foreign : (x.committed (some .foreign)).blockReason = some .foreign := settle_blockReason _

theorem clearAuditReason_eq (r : Option BlockReason) :
    Store.clearAuditReason r = if r = some .disputed ∨ r = some .foreign then none else r := by
  cases r with
  | none => rfl
  | some r => cases r <;> rfl

theorem committed_cleared (h : result = some .verified ∨ ∃ v, result = some (.adjusted v)) :
    (x.committed result).blockReason =
      if x.blockReason = some .disputed ∨ x.blockReason = some .foreign then none else x.blockReason := by
  rw [← clearAuditReason_eq, committed, settle_blockReason]
  rcases h with rfl | ⟨v, rfl⟩
  · rfl
  · rfl

end Slot

namespace Store

variable {s t : Store} {a b r i n f : Nat} {e : AuditEntry} {c d : Carrier}

theorem commitCarrier_bay (s : Store) (e : AuditEntry) (c : Carrier) (hb : b < 3) :
    look (s.commitCarrier e c).bays Slot.empty b =
      (look c.bays Slot.empty b).committed (look e.bays BayCount.blank b).result := by
  match b, hb with
  | 0, _ => simp [commitCarrier, reload, onBay, look_put, Slot.committed]
  | 1, _ => simp [commitCarrier, reload, onBay, look_put, Slot.committed]
  | 2, _ => simp [commitCarrier, reload, onBay, look_put, Slot.committed]

/-! ## The commit up to the promotion (R163) -/

/-- The store once an audit has been committed and told, before the promotion of others. -/
def auditCommitted (s : Store) (a : Nat) (e : AuditEntry) : Store :=
  let u := s.updCarrier (recordOf e.carousel e.carrier) (s.commitCarrier e)
  (({ u.setAudit a (.committed e) with auditList := u.auditList.filter (· != a) } : Store).setFrozen
    (recordOf e.carousel e.carrier) false).raise (.audit a) Flag.auditCommitted

theorem commitAudit_eq (h : s.audit a = .listed e) :
    s.commitAudit a = (((s.auditCommitted a e).promote true).countingCheck e.carousel).triggerPass := by
  simp only [commitAudit, entry_of_listed h]
  rfl

theorem auditCommitted_audits : (s.auditCommitted a e).audits = put s.audits a (.committed e) := by
  refine (updCarrier_audits _ _ _).trans ?_
  show put (s.updCarrier _ _).audits a _ = _
  rw [updCarrier_audits]

theorem auditCommitted_auditList : (s.auditCommitted a e).auditList = s.auditList.filter (· != a) := by
  refine (updCarrier_auditList _ _ _).trans ?_
  show (s.updCarrier _ _).auditList.filter _ = _
  rw [updCarrier_auditList]

theorem auditCommitted_carrier_other (h : r ≠ recordOf e.carousel e.carrier) :
    (s.auditCommitted a e).carrier r = s.carrier r := by
  show look (updCarrier _ _ _).carriers Carrier.blank r = _
  rw [updCarrier_carriers, look_put_other _ _ _ _ _ (Ne.symm h)]
  show look (s.updCarrier _ _).carriers Carrier.blank r = _
  rw [updCarrier_carriers, look_put_other _ _ _ _ _ (Ne.symm h)]
  rfl

theorem auditCommitted_carrier_self (h : recordOf e.carousel e.carrier < 96) :
    (s.auditCommitted a e).carrier (recordOf e.carousel e.carrier) =
      { s.commitCarrier e (s.carrier (recordOf e.carousel e.carrier)) with frozen := false } := by
  show look (updCarrier _ _ _).carriers Carrier.blank _ = _
  rw [updCarrier_carriers, look_put_same _ _ _ _ h]
  have hcarrier : (s.updCarrier (recordOf e.carousel e.carrier) (s.commitCarrier e)).carrier
      (recordOf e.carousel e.carrier) = s.commitCarrier e (s.carrier (recordOf e.carousel e.carrier)) := by
    rw [carrier, updCarrier_carriers, look_put_same _ _ _ _ h]
  exact congrArg (fun c : Carrier => { c with frozen := false }) hcarrier

theorem auditCommitted_raised : (s.auditCommitted a e).Raised (.audit a) Flag.auditCommitted := raise_raised _ _ _

theorem auditCommitted_listed : .carrier (recordOf e.carousel e.carrier) ∈ (s.auditCommitted a e).writeBack :=
  mem_list_writeBack _ _

/-! ## An audit done stays done -/

/-- Audit `a` of carrier record `r` is committed with entry `e`, off the list, and its carrier stands like `c`. -/
structure AuditDone (s : Store) (a : Nat) (e : AuditEntry) (r : Nat) (c : Carrier) : Prop where
  committed : s.audit a = .committed e
  unlisted : a ∉ s.auditList
  carrier : (s.carrier r).standing = c.standing

namespace AuditDone

theorem of_standing (h : s.AuditDone a e r c) (hst : t.standing = s.standing) : t.AuditDone a e r c where
  committed := by
    have ha : (t.audit a).standing = (s.audit a).standing := by rw [← standing_audit, ← standing_audit, hst]
    exact (AuditRecord.committed_iff_of_standing ha e).mpr h.committed
  unlisted := by
    rw [auditList_of_standing hst]
    exact h.unlisted
  carrier := by
    rw [← standing_carrier, hst, standing_carrier]
    exact h.carrier

/-- An entry made for another carrier takes another record. -/
theorem withEntry (h : s.AuditDone a e r c) {a' r' : Nat} (hfree : s.audit a' = .free) (hr : r' ≠ r)
    (origin : AuditOrigin) : (s.withEntry r' a' origin).AuditDone a e r c := by
  have hne : a' ≠ a := by
    rintro rfl
    rw [h.committed] at hfree
    exact nomatch hfree
  refine ⟨((AuditsGoOn.withEntry hfree r' origin).committed a e).mpr h.committed, ?_, ?_⟩
  · rw [withEntry_auditList, List.mem_append, List.mem_singleton]
    exact fun hm => hm.elim h.unlisted fun he => hne he.symm
  · have hcarrier : (s.withEntry r' a' origin).carrier r = s.carrier r := by
      rw [Store.carrier, Store.withEntry, setFrozen, updCarrier_carriers, look_put_other _ _ _ _ _ hr]
      rfl
    rw [hcarrier]
    exact h.carrier

theorem askAudit (h : s.AuditDone a e r c) {r' : Nat} (hr : r' ≠ r) (origin : AuditOrigin) :
    (s.askAudit r' origin true).2.AuditDone a e r c := by
  cases hentry : s.entryOf r' with
  | some b =>
    rw [askAudit_merged hentry]
    exact h
  | none =>
    cases hfree : s.freeAudit with
    | none =>
      rw [askAudit_full hentry hfree]
      exact h
    | some b =>
      rw [askAudit_told hentry hfree]
      have hcreated := (h.withEntry (freeAudit_free hfree) hr origin).of_standing standing_created
      exact hcreated.of_standing (standing_raise _ _ _)

/-- The promotion passes over a carrier that wants no audit (R156). -/
theorem promoteOne (h : s.AuditDone a e r c) (hc : c.auditWanted = false) (r' : Nat) :
    (promoteOne true s r').AuditDone a e r c := by
  by_cases hw : s.Wanted r'
  · rw [promoteOne_wanted hw]
    refine h.askAudit ?_ _
    rintro rfl
    have hwanted : (s.carrier r').auditWanted = c.auditWanted := (congrArg Carrier.auditWanted h.carrier :)
    obtain ⟨_, hwants⟩ := hw
    exact Bool.false_ne_true (hc.symm.trans (hwanted.symm.trans hwants))
  · rw [promoteOne_unwanted hw]
    exact h

theorem promote (h : s.AuditDone a e r c) (hc : c.auditWanted = false) : (s.promote true).AuditDone a e r c := by
  rw [Store.promote]
  generalize List.range 96 = rs
  induction rs generalizing s with
  | nil => exact h
  | cons r' rs ih => exact ih (h.promoteOne hc r')

/-- The marks of the carrier. -/
theorem marks (h : s.AuditDone a e r c) : (s.carrier r).suspect = c.suspect ∧
    (s.carrier r).auditWanted = c.auditWanted ∧ (s.carrier r).frozen = c.frozen :=
  ⟨(congrArg Carrier.suspect h.carrier :), (congrArg Carrier.auditWanted h.carrier :),
    (congrArg Carrier.frozen h.carrier :)⟩

/-- The slots of the carrier, but for what is reserved. -/
theorem slot (h : s.AuditDone a e r c) (hb : b < 3) :
    s.bare (3 * r + b) = { look c.bays Slot.empty b with reserved := 0 } := by
  have hrecord : slotRecord (3 * r + b) = r := by unfold slotRecord; omega
  have hbay : slotBay (3 * r + b) = b := by unfold slotBay; omega
  have hlook := (congrArg (fun c : Carrier => look c.bays Slot.empty b) h.carrier :)
  have hmap := fun c : Carrier => look_map (fun x : Slot => { x with reserved := 0 }) c.bays Slot.empty b
  rw [bare, Store.slot, hrecord, hbay]
  exact (hmap _).symm.trans (hlook.trans (hmap _))

end AuditDone

theorem auditCommitted_done (ha : a < 16) :
    (s.auditCommitted a e).AuditDone a e r ((s.auditCommitted a e).carrier r) where
  committed := by
    rw [audit, auditCommitted_audits]
    exact look_put_same _ _ _ _ ha
  unlisted := by
    rw [auditCommitted_auditList]
    simp
  carrier := rfl

end Store

end Sys2Proof.Machine

end

/-! # BAY_KEY_BREAK on the count that decides the last bay: the presentation closes (R66, R162, R163) -/

section

namespace Sys2Proof.Machine

open Sys2Proof

/-- A carrier without any of the marks that an audit ends, and not open at a face. -/
structure Carrier.Cleared (c : Carrier) : Prop where
  suspect : c.suspect = false
  auditWanted : c.auditWanted = false
  frozen : c.frozen = false
  faceOpen : c.faceOpen = false

namespace Store

variable {s t y : Store} {a b book k i n f p r : Nat} {e : AuditEntry} {c : Carrier} {x : BayResult}

/-! ## The list entry of a carrier (R152) -/

theorem entryOf_of_audits (h : t.audits = s.audits) (hl : t.auditList = s.auditList) (r : Nat) :
    t.entryOf r = s.entryOf r := by
  have hfor : t.entryFor r = s.entryFor r := by
    funext a
    simp only [entryFor, entry, audit, h]
  rw [entryOf, hfor, hl]
  rfl

theorem entryOf_counted (he : s.audit a = .listed e) (ha : a < 16) (b book k : Nat) (result : Option BayResult)
    (r : Nat) : (s.setAudit a (.listed (e.counted b book k result))).entryOf r = s.entryOf r := by
  have hfor : (s.setAudit a (.listed (e.counted b book k result))).entryFor r = s.entryFor r := by
    funext a'
    by_cases h : a' = a
    · subst h
      simp only [entryFor, entry, setAudit_audit_self s ha, he]
      rfl
    · simp only [entryFor, entry, setAudit_audit_other s h]
  rw [entryOf, setAudit_auditList, hfor]
  rfl

/-! ## The close of a count presentation (R66) -/

/-- The store once a presentation on carrier record `r` has ended at face `i`. -/
def closing (s : Store) (i r : Nat) : Store := (s.putFace i ((s.face i).ended .idle)).markFaceOpen r false

theorem closing_audits : (s.closing i r).audits = s.audits := markFaceOpen_audits _ _ _

theorem closing_auditList : (s.closing i r).auditList = s.auditList := updCarrier_auditList _ _ _

theorem closing_carrier_other (h : n ≠ r) : (s.closing i r).carrier n = s.carrier n := by
  rw [closing, carrier, markFaceOpen, updCarrier_carriers, look_put_other _ _ _ _ _ (Ne.symm h)]
  rfl

theorem closing_carrier_self (h : r < 96) : (s.closing i r).carrier r = { s.carrier r with faceOpen := false } := by
  rw [closing, carrier, markFaceOpen, updCarrier_carriers, look_put_same _ _ _ _ h]
  rfl

/-- What follows a commit at face `i` of carousel `n`. -/
def windUp (y : Store) (n i : Nat) : Store :=
  (((((y.promote true).countingCheck n).triggerPass).serviceCheck n).derive i).list (.status (4 + i))

theorem countClosed_commits (he : s.audit a = .listed e)
    (hall : ∀ b, b < 3 → (look e.bays BayCount.blank b).result ≠ none) : s.countClosed a = s.commitAudit a := by
  have hresults : e.bays.toList.all (fun b => b.result.isSome) = true := by
    rw [List.all_eq_true]
    intro z hz
    obtain ⟨b, hb, rfl⟩ := Vector.mem_iff_getElem.mp (Vector.mem_toList_iff.mp hz)
    have hlook := hall b hb
    rw [look, Vector.getElem?_eq_getElem hb] at hlook
    exact Option.isSome_iff_ne_none.mpr hlook
  simp only [countClosed, entry_of_listed he, if_pos hresults]

theorem closePresentation_commits (hc : (s.face (faceIndex n f)).carrier = some e.carrier)
    (hk : (s.face (faceIndex n f)).kind = some .count) (hn : e.carousel = n) (he : s.audit a = .listed e)
    (hof : s.entryOf (recordOf e.carousel e.carrier) = some a)
    (hall : ∀ b, b < 3 → (look e.bays BayCount.blank b).result ≠ none) : s.closePresentation n f =
      ((s.closing (faceIndex n f) (recordOf e.carousel e.carrier)).auditCommitted a e).windUp n (faceIndex n f) := by
  subst hn
  have hentry : ((s.putFace (faceIndex e.carousel f) ((s.face (faceIndex e.carousel f)).ended .idle)).markFaceOpen
      (recordOf e.carousel e.carrier) false).entryOf (recordOf e.carousel e.carrier) = some a :=
    (entryOf_of_audits closing_audits closing_auditList _).trans hof
  have hlisted : (s.closing (faceIndex e.carousel f) (recordOf e.carousel e.carrier)).audit a = .listed e := by
    rw [audit, closing_audits]
    exact he
  have hclosed := (countClosed_commits hlisted hall).trans (commitAudit_eq hlisted)
  simp only [closePresentation, hc, hk, if_true, hentry]
  exact congrArg (fun u : Store => ((u.serviceCheck e.carousel).derive (faceIndex e.carousel f)).list
    (.status (4 + faceIndex e.carousel f))) hclosed

/-- The carrier of an audit committed when its presentation has closed. -/
theorem closed_carrier (h : recordOf e.carousel e.carrier < 96) :
    (((s.closing i (recordOf e.carousel e.carrier)).auditCommitted a e).carrier
      (recordOf e.carousel e.carrier)).Cleared ∧
    ∀ b, b < 3 → look (((s.closing i (recordOf e.carousel e.carrier)).auditCommitted a e).carrier
      (recordOf e.carousel e.carrier)).bays Slot.empty b =
        (s.slot (3 * recordOf e.carousel e.carrier + b)).committed (look e.bays BayCount.blank b).result := by
  rw [auditCommitted_carrier_self h, closing_carrier_self h]
  refine ⟨⟨rfl, rfl, rfl, rfl⟩, fun b hb => ?_⟩
  have hbays (c : Carrier) : ({ c with frozen := false } : Carrier).bays = c.bays := rfl
  rw [hbays, commitCarrier_bay _ _ _ hb]
  have hrecord : slotRecord (3 * recordOf e.carousel e.carrier + b) = recordOf e.carousel e.carrier := by
    unfold slotRecord; omega
  have hbay : slotBay (3 * recordOf e.carousel e.carrier + b) = b := by unfold slotBay; omega
  rw [slot, hrecord, hbay]

/-! ## What follows the commit -/

theorem windUp_moves (y : Store) (n i : Nat) : Moves Part.finishing y (y.windUp n i) := by
  refine .after (list_moves (by simp) _ _) (.after (derive_moves (by simp) (by simp) _)
    (.after ((serviceCheck_moves_any _ _).mono Part.finishing_of_motion) (.after (triggerPass_moves (by simp) _) ?_)))
  exact ((promote_moves y true).mono Part.finishing_of_auditing).trans
    ((countingCheck_moves_any _ _).mono Part.finishing_of_motion)

theorem windUp_listed (y : Store) (n i : Nat) : .status (4 + i) ∈ (y.windUp n i).writeBack := mem_list_writeBack _ _

theorem standing_windUp (y : Store) (n i : Nat) : (y.windUp n i).standing = (y.promote true).standing := by
  rw [windUp, standing_list, standing_derive, standing_serviceCheck, standing_triggerPass, standing_countingCheck]

theorem AuditDone.windUp (h : y.AuditDone a e r c) (hc : c.auditWanted = false) (n i : Nat) :
    (y.windUp n i).eventEnd.AuditDone a e r c :=
  ((h.promote hc).of_standing (standing_windUp y n i)).of_standing (standing_eventEnd _)

/-! ### A carousel with nothing to do -/

/-- With no entry of the carousel READY the counting check does nothing (R158). -/
theorem countingCheck_noReady (h : ∀ a e, s.audit a = .listed e → e.carousel ≠ n ∨ e.state ≠ .ready) :
    s.countingCheck n = s := by
  have hnone : s.auditList.find? (s.entryIn n (· == .ready)) = none := by
    refine List.find?_eq_none.mpr fun a _ => ?_
    cases he : s.entry a with
    | none => simp [entryIn, he]
    | some e =>
      have hentry := h a e (audit_of_entry he)
      simp only [entryIn, he, Bool.and_eq_true, beq_iff_eq]
      exact fun hand => hentry.elim (fun hne => hne hand.1) fun hne => hne hand.2
  unfold countingCheck
  split
  · rw [hnone]
  · rfl

/-- With an empty queue the service check does nothing (R37). -/
theorem serviceCheck_empty (h : (s.channel n).queue = []) : s.serviceCheck n = s := by
  simp [serviceCheck, h]

/-- With no line waiting an allocation pass changes nothing (R101). -/
theorem eventEnd_unwaited (h : s.waiting = []) : s.eventEnd = ({ s with passDue := false } : Store).eventEnd := by
  have hpass : s.allocationPass = { s with passDue := false } := by
    unfold allocationPass
    split
    · rw [h]
      rfl
    · next hd =>
      rw [Bool.not_eq_true] at hd
      rw [← hd]
  rw [eventEnd, hpass, eventEnd]
  rfl

/-- With no carrier wanted, no entry READY, an empty queue and no line waiting, only the display is derived. -/
theorem windUp_idle (hi : i < 8) (hwanted : ∀ r, r < 96 → ¬ y.Wanted r)
    (hready : ∀ a e, y.audit a = .listed e → e.carousel ≠ n ∨ e.state ≠ .ready) (hq : (y.channel n).queue = [])
    (hw : y.waiting = []) : (y.windUp n i).eventEnd.carriers = y.carriers ∧
      ∃ d, (y.windUp n i).eventEnd.face i = { y.face i with desired := d } := by
  have hpromote : y.promote true = y := promote_still (fun r hr hwr => absurd hwr (hwanted r hr)) true
  have hservice : y.triggerPass.serviceCheck n = y.triggerPass := serviceCheck_empty hq
  have heq : y.windUp n i = (y.triggerPass.derive i).list (.status (4 + i)) := by
    rw [windUp, hpromote, countingCheck_noReady hready, hservice]
  have hwaiting : (y.windUp n i).waiting = [] := by
    rw [heq, list_waiting, derive, setFace_waiting]
    exact hw
  obtain ⟨ps, hps⟩ := eventEnd_panels_only (s := ({ y.windUp n i with passDue := false } : Store)) rfl
  rw [eventEnd_unwaited hwaiting, hps]
  refine ⟨?_, y.triggerPass.desiredOf i, ?_⟩
  · show (y.windUp n i).carriers = y.carriers
    rw [heq, list_carriers, derive, setFace_carriers]
    rfl
  · show (y.windUp n i).face i = _
    have hface : ((y.triggerPass.derive i).list (.status (4 + i))).face i = (y.triggerPass.derive i).face i := by
      rw [face, list_faces]
      rfl
    rw [heq, hface]
    exact derive_face_self _ hi

/-! ## The event -/

/-- The store once the last count has been committed. -/
def lastCounted (s : Store) (p b a book k : Nat) (e : AuditEntry) : Store :=
  ((s.countTaken p b a book k e).closing p (recordOf e.carousel e.carrier)).auditCommitted a
    (e.counted b book k (s.bayCounted e b book k))

section

variable (hp : p < 8) (hb : b < 3) (ha : a < 16) (he : s.audit a = .listed e)
  (hresult : s.bayCounted e b book k ≠ none) (hlt : e.carrier < 24) (hn : e.carousel = p / 2)

include hp hlt hn in
theorem record_lt : recordOf e.carousel e.carrier < 96 := by
  unfold recordOf
  omega

include hresult in
theorem countTaken_decided : s.countTaken p b a book k e =
    s.setAudit a (.listed (e.counted b book k (s.bayCounted e b book k))) := if_neg hresult

include hp hb ha he hresult hn in
theorem countEnd_closes (hempty : ∀ b', b' < 3 → look (s.face p).bays [] b' = [])
    (hkind : (s.face p).kind = some .count) (hcarrier : (s.face p).carrier = some e.carrier)
    (hof : s.entryOf (recordOf e.carousel e.carrier) = some a)
    (hothers : ∀ b', b' < 3 → b' ≠ b → (look e.bays BayCount.blank b').result ≠ none) :
    s.countEnd p b a book k e = ((s.lastCounted p b a book k e).windUp (p / 2) p).eventEnd := by
  have hface : (s.countTaken p b a book k e).face p = s.face p := by
    rw [countTaken_face hp, if_neg hresult]
  have hworked : ((s.countTaken p b a book k e).face (faceIndex (p / 2) (p % 2))).isWorked = true := by
    rw [faceIndex_div_mod, hface]
    exact (Face.isWorked_iff _).mpr hempty
  have hentry : (s.countTaken p b a book k e).entryOf (recordOf e.carousel e.carrier) = some a := by
    rw [countTaken_decided hresult, entryOf_counted he ha]
    exact hof
  have hall : ∀ b', b' < 3 →
      (look (e.counted b book k (s.bayCounted e b book k)).bays BayCount.blank b').result ≠ none := by
    intro b' hb'
    by_cases heq : b' = b
    · subst heq
      rw [AuditEntry.counted_result e hb]
      exact hresult
    · rw [AuditEntry.counted_other e heq]
      exact hothers b' hb' heq
  have hclose := closePresentation_commits (s := s.countTaken p b a book k e) (n := p / 2) (f := p % 2)
    (e := e.counted b book k (s.bayCounted e b book k))
    (by rw [faceIndex_div_mod, hface]; exact hcarrier) (by rw [faceIndex_div_mod, hface]; exact hkind) hn
    (countTaken_audit ha) hentry hall
  rw [faceIndex_div_mod] at hclose
  rw [countEnd, checkPresentation_closes hworked, hclose]
  rfl

include hp hlt hn

/-- The carrier of the committed audit: its bays follow the results, its marks are cleared. -/
theorem lastCounted_carrier :
    ((s.lastCounted p b a book k e).carrier (recordOf e.carousel e.carrier)).Cleared ∧
      ∀ b', b' < 3 → look ((s.lastCounted p b a book k e).carrier (recordOf e.carousel e.carrier)).bays Slot.empty b' =
        (s.slot (3 * recordOf e.carousel e.carrier + b')).committed
          (look (e.counted b book k (s.bayCounted e b book k)).bays BayCount.blank b').result := by
  have hclosed := closed_carrier (s := s.countTaken p b a book k e) (a := a) (i := p)
    (e := e.counted b book k (s.bayCounted e b book k)) (record_lt hp hlt hn)
  simp only [slot_of_carriers (countTaken_carriers (s := s))] at hclosed
  exact hclosed

omit hp hlt hn in
theorem lastCounted_carrier_other (h : r ≠ recordOf e.carousel e.carrier) :
    (s.lastCounted p b a book k e).carrier r = s.carrier r := by
  have hclosed : (s.lastCounted p b a book k e).carrier r = _ :=
    auditCommitted_carrier_other (e := e.counted b book k (s.bayCounted e b book k)) h
  rw [hclosed, closing_carrier_other h, carrier, countTaken_carriers]
  rfl

end

end Store

end Sys2Proof.Machine

end

/-! # BAY_KEY_BREAK on a count: the end of the event -/

section

namespace Sys2Proof.Machine

open Sys2Proof

namespace Store

variable {s t y : Store} {a b book k i n f p r q : Nat} {e : AuditEntry} {c : Carrier} {x : BayResult}

/-! ## What the commit leaves -/

theorem auditCommitted_faces : (s.auditCommitted a e).faces = s.faces :=
  (updCarrier_faces _ _ _).trans (updCarrier_faces _ _ _)

theorem auditCommitted_channels : (s.auditCommitted a e).channels = s.channels :=
  (updCarrier_channels _ _ _).trans (updCarrier_channels _ _ _)

theorem auditCommitted_waiting : (s.auditCommitted a e).waiting = s.waiting :=
  (updCarrier_waiting _ _ _).trans (updCarrier_waiting _ _ _)

theorem closing_face (hi : i < 8) : (s.closing i r).face i = (s.face i).ended .idle := by
  rw [closing, face, markFaceOpen, updCarrier_faces]
  exact putFace_face_self s hi _

section

variable (hresult : s.bayCounted e b book k ≠ none)

include hresult

theorem lastCounted_face (hp : p < 8) : (s.lastCounted p b a book k e).face p = (s.face p).ended .idle := by
  rw [lastCounted, face, auditCommitted_faces, countTaken_decided hresult]
  exact closing_face hp

theorem lastCounted_channel (n : Nat) : (s.lastCounted p b a book k e).channel n = s.channel n := by
  rw [lastCounted, channel, auditCommitted_channels, closing, markFaceOpen, updCarrier_channels,
    countTaken_decided hresult]
  rfl

theorem lastCounted_waiting : (s.lastCounted p b a book k e).waiting = s.waiting := by
  rw [lastCounted, auditCommitted_waiting, closing, markFaceOpen, updCarrier_waiting, countTaken_decided hresult]
  rfl

theorem lastCounted_audit_other {a' : Nat} (h : a' ≠ a) : (s.lastCounted p b a book k e).audit a' = s.audit a' := by
  rw [lastCounted, audit, auditCommitted_audits, closing_audits, look_put_other _ _ _ _ _ (Ne.symm h),
    countTaken_decided hresult]
  exact setAudit_audit_other s h _

end

theorem lastCounted_done (ha : a < 16) : (s.lastCounted p b a book k e).AuditDone a
    (e.counted b book k (s.bayCounted e b book k)) (recordOf e.carousel e.carrier)
    ((s.lastCounted p b a book k e).carrier (recordOf e.carousel e.carrier)) := auditCommitted_done ha

theorem lastCounted_raised : (s.lastCounted p b a book k e).Raised (.audit a) Flag.auditCommitted :=
  auditCommitted_raised

theorem lastCounted_listed : .carrier (recordOf e.carousel e.carrier) ∈ (s.lastCounted p b a book k e).writeBack :=
  auditCommitted_listed (e := e.counted b book k (s.bayCounted e b book k))

/-! ## A slot known but for what is reserved in it -/

theorem slot_of_bare {z : Slot} (h : s.bare q = { z with reserved := 0 }) : (s.slot q).count = z.count ∧
    (s.slot q).blockReason = z.blockReason ∧ (s.slot q).article = z.article :=
  ⟨(congrArg Slot.count h :), (congrArg Slot.blockReason h :), (congrArg Slot.article h :)⟩

/-! ## The event -/

/-- The carousel and the lists have nothing to do once an audit of carrier record `r` in audit record `a` ends. -/
structure Unbusy (s : Store) (n a r : Nat) : Prop where
  queue : (s.channel n).queue = []
  waiting : s.waiting = []
  unwanted : ∀ r', r' < 96 → r' ≠ r → (s.carrier r').auditWanted = false
  unready : ∀ a' y, a' ≠ a → s.audit a' = .listed y → y.carousel ≠ n ∨ y.state = .waiting

/-- The store at the end of the event whose count decides the last bay. -/
def auditEnd (s : Store) (p b a book k : Nat) (e : AuditEntry) : Store :=
  ((s.lastCounted p b a book k e).windUp (p / 2) p).eventEnd

section

variable (hp : p < 8) (ha : a < 16) (hresult : s.bayCounted e b book k ≠ none) (hlt : e.carrier < 24)
  (hn : e.carousel = p / 2)

include hp ha hresult hlt hn in
/-- With nothing else to do only the face's display follows. -/
theorem auditEnd_idle (hunbusy : s.Unbusy e.carousel a (recordOf e.carousel e.carrier)) :
    ((s.auditEnd p b a book k e).carrier (recordOf e.carousel e.carrier)).faceOpen =
      false ∧ ∃ d, (s.auditEnd p b a book k e).face p =
        { (s.face p).ended .idle with desired := d } := by
  have hcleared := (lastCounted_carrier (s := s) (a := a) (b := b) (book := book) (k := k) hp hlt hn).1
  have hwanted : ∀ r, r < 96 → ¬ (s.lastCounted p b a book k e).Wanted r := by
    rintro r hr ⟨_, hw⟩
    by_cases hself : r = recordOf e.carousel e.carrier
    · subst hself
      exact Bool.false_ne_true (hcleared.auditWanted.symm.trans hw)
    · rw [lastCounted_carrier_other hself] at hw
      exact Bool.false_ne_true ((hunbusy.unwanted r hr hself).symm.trans hw)
  have hready : ∀ a' y, (s.lastCounted p b a book k e).audit a' = .listed y →
      y.carousel ≠ p / 2 ∨ y.state ≠ .ready := by
    intro a' y hy
    by_cases hself : a' = a
    · subst hself
      rw [(lastCounted_done ha).committed] at hy
      exact nomatch hy
    · rw [lastCounted_audit_other hresult hself] at hy
      rw [← hn]
      exact (hunbusy.unready a' y hself hy).imp_right fun hw hr => nomatch hw.symm.trans hr
  have hqueue : ((s.lastCounted p b a book k e).channel (p / 2)).queue = [] := by
    rw [lastCounted_channel hresult, ← hn]
    exact hunbusy.queue
  obtain ⟨hcarriers, d, hface⟩ := windUp_idle (i := p) hp hwanted hready hqueue
    ((lastCounted_waiting hresult).trans hunbusy.waiting)
  refine ⟨?_, d, ?_⟩
  · rw [auditEnd, carrier, hcarriers]
    exact hcleared.faceOpen
  · rw [auditEnd, hface, lastCounted_face hresult hp]

include hp ha hlt hn

theorem auditEnd_done : (s.auditEnd p b a book k e).AuditDone a (e.counted b book k (s.bayCounted e b book k))
    (recordOf e.carousel e.carrier) ((s.lastCounted p b a book k e).carrier (recordOf e.carousel e.carrier)) :=
  (lastCounted_done ha).windUp (lastCounted_carrier hp hlt hn).1.auditWanted (p / 2) p

/-- The marks of the carrier are cleared (R21). -/
theorem auditEnd_marks : ((s.auditEnd p b a book k e).carrier (recordOf e.carousel e.carrier)).suspect = false ∧
    ((s.auditEnd p b a book k e).carrier (recordOf e.carousel e.carrier)).auditWanted = false ∧
    ((s.auditEnd p b a book k e).carrier (recordOf e.carousel e.carrier)).frozen = false := by
  obtain ⟨hsuspect, hwanted, hfrozen⟩ := (auditEnd_done (s := s) (b := b) (book := book) (k := k) hp ha hlt hn).marks
  have hcleared := (lastCounted_carrier (s := s) (a := a) (b := b) (book := book) (k := k) hp hlt hn).1
  exact ⟨hsuspect.trans hcleared.suspect, hwanted.trans hcleared.auditWanted, hfrozen.trans hcleared.frozen⟩

/-- The slots of the carrier follow the results (R21). -/
theorem auditEnd_slot {b' : Nat} (hb' : b' < 3) :
    (s.auditEnd p b a book k e).bare (3 * recordOf e.carousel e.carrier + b') =
      { (s.slot (3 * recordOf e.carousel e.carrier + b')).committed
        (look (e.counted b book k (s.bayCounted e b book k)).bays BayCount.blank b').result with reserved := 0 } := by
  have hdone := auditEnd_done (s := s) (b := b) (book := book) (k := k) hp ha hlt hn
  rw [hdone.slot hb', (lastCounted_carrier hp hlt hn).2 b' hb']

omit hp ha hlt hn

/-- The slots of the other carriers keep their counts. -/
theorem auditEnd_count (hq : q / 3 ≠ recordOf e.carousel e.carrier) :
    ((s.auditEnd p b a book k e).slot q).count = (s.slot q).count := by
  rw [auditEnd, eventEnd_count, finishing_counts (windUp_moves _ _ p), slot, slot]
  rw [show slotRecord q = q / 3 from rfl, lastCounted_carrier_other hq]

theorem auditEnd_told : (s.auditEnd p b a book k e).Raised (.audit a) Flag.auditCommitted :=
  ((windUp_moves _ _ p).raised lastCounted_raised).eventEnd

theorem auditEnd_renewed :
    .carrier (recordOf e.carousel e.carrier) ∈ (s.auditEnd p b a book k e).writeBack ∧
    .status (4 + p) ∈ (s.auditEnd p b a book k e).writeBack :=
  ⟨eventEnd_keeps_listed _ ((windUp_moves _ _ p).listed lastCounted_listed),
    eventEnd_keeps_listed _ (windUp_listed _ _ p)⟩

end

/-- The record number of a carrier, as the statements write it (R1). -/
theorem recordOf_eq (n c : Nat) : recordOf n c = 24 * n + c := by
  unfold recordOf
  omega

theorem bayCounted_eq (hb : b < 3) : s.bayCounted e b book k =
    countResult (s.cfg.carousel (recordOf e.carousel e.carrier / 24)).bayDepth
      (s.slot (3 * recordOf e.carousel e.carrier + b)).article book k (look e.bays BayCount.blank b).counts := by
  have hplace : slotCarousel (recordOf e.carousel e.carrier * 3 + b) = recordOf e.carousel e.carrier / 24 := by
    unfold slotCarousel
    omega
  rw [bayCounted, depthOf, hplace, Nat.mul_comm _ 3]

end Store

end Sys2Proof.Machine

end

/-! # BAY_KEY_BREAK confirms the head item (R19 to R21, R62 to R66, R160 to R163) -/

section

namespace Sys2Proof.Machine

open Sys2Proof

theorem State.JobsAre.auditList {t : State} {x : Store} (h : t.JobsAre x) : t.store.auditList = x.auditList := by
  rw [h]

namespace Store

variable {s : Store} {p b : Nat} {rest : List Item}

/-- The store of a confirmation: the key taken off the panel's holder and the head item off the bay's list. -/
def confirming (s : Store) (p b : Nat) (rest : List Item) : Store := (s.emptyHolder p).headTaken p b rest

theorem confirming_face (hp : p < 8) : (s.confirming p b rest).face p =
    { s.released p b with bays := put (s.face p).bays b rest } := headTaken_face (s := s.emptyHolder p) hp rest

theorem confirming_bay_self (hp : p < 8) (hb : b < 3) : look ((s.confirming p b rest).face p).bays [] b = rest := by
  rw [confirming_face hp]
  exact look_put_same _ _ _ _ hb

theorem confirming_bay_other (hp : p < 8) {b' : Nat} (h : b' ≠ b) :
    look ((s.confirming p b rest).face p).bays [] b' = look (s.face p).bays [] b' := by
  rw [confirming_face hp]
  exact look_put_other _ _ _ _ _ (Ne.symm h)

theorem confirming_presenting (hp : p < 8) : ((s.confirming p b rest).face p).state = (s.face p).state ∧
    ((s.confirming p b rest).face p).kind = (s.face p).kind ∧
    ((s.confirming p b rest).face p).carrier = (s.face p).carrier := by
  rw [confirming_face hp]
  exact ⟨rfl, rfl, rfl⟩

/-! ### A count confirmed -/

section

variable {a book k : Nat} {e : AuditEntry} (hp : p < 8) (hb : b < 3) (ha : a < 16)

/-- The store at the end of a break that confirms a count. -/
def countBreak (s : Store) (p b : Nat) (rest : List Item) (a book k : Nat) (e : AuditEntry) : Store :=
  (s.confirming p b rest).countEnd p b a book k e

theorem countBreak_eq {it : Item} (href : it.ref = .count a) (he : s.audit a = .listed e)
    (hbook : (look e.bays BayCount.blank b).book = some book)
    (hlen : (look e.bays BayCount.blank b).counts.length ≤ 2) :
    (((s.confirming p b rest).dispatch p b it).checkPresentation (p / 2) (p % 2)).eventEnd =
      s.countBreak p b rest a book it.displayed e := by
  have he : (s.confirming p b rest).audit a = .listed e := he
  rw [dispatch_count href he hbook hlen]
  rfl

theorem confirming_bayCounted : (s.confirming p b rest).bayCounted e b book k = s.bayCounted e b book k := rfl

include hp hb in
/-- A bay of the face still has an item when the head item has left. -/
theorem confirming_goesOn {more : Prop}
    (hmore : more ∨ rest ≠ [] ∨ ∃ b', b' < 3 ∧ b' ≠ b ∧ look (s.face p).bays [] b' ≠ []) :
    more ∨ look ((s.confirming p b rest).face p).bays [] b ≠ [] ∨
      ∃ b', b' < 3 ∧ b' ≠ b ∧ look ((s.confirming p b rest).face p).bays [] b' ≠ [] := by
  rw [confirming_bay_self hp hb]
  refine hmore.imp_right (Or.imp_right fun ⟨b', hb', hne, hlook⟩ => ⟨b', hb', hne, ?_⟩)
  rw [confirming_bay_other hp hne]
  exact hlook

include hp hb in
theorem confirming_empty (hrest : rest = [])
    (hothers : ¬ ∃ b', b' < 3 ∧ b' ≠ b ∧ look (s.face p).bays [] b' ≠ []) (b' : Nat) (hb' : b' < 3) :
    look ((s.confirming p b rest).face p).bays [] b' = [] := by
  by_cases hself : b' = b
  · rw [hself, confirming_bay_self hp hb, hrest]
  · rw [confirming_bay_other hp hself]
    exact Classical.not_not.mp fun hlook => hothers ⟨b', hb', hself, hlook⟩

include hp hb ha in
theorem countBreak_goesOn (hs : s.passDue = false) (hmore : s.bayCounted e b book k = none ∨ rest ≠ [] ∨
      ∃ b', b' < 3 ∧ b' ≠ b ∧ look (s.face p).bays [] b' ≠ []) :
    (s.countBreak p b rest a book k e).audit a = .listed (e.counted b book k (s.bayCounted e b book k)) ∧
    ((s.countBreak p b rest a book k e).face p).bays =
      put (s.face p).bays b (if s.bayCounted e b book k = none then [countItem a] else rest) ∧
    ((s.countBreak p b rest a book k e).face p).state = (s.face p).state ∧
    (s.countBreak p b rest a book k e).carriers = s.carriers ∧
    (s.countBreak p b rest a book k e).auditList = s.auditList ∧
    .status (4 + p) ∈ (s.countBreak p b rest a book k e).writeBack := by
  obtain ⟨haudit, hbays, hstate, hcarriers, hlist, hlisted⟩ :=
    countEnd_goesOn (s := s.confirming p b rest) hp hb ha hs (confirming_goesOn hp hb hmore)
  refine ⟨haudit, hbays.trans ?_, hstate.trans (confirming_presenting hp).1, hcarriers, hlist, hlisted⟩
  rw [confirming_face hp, confirming_bayCounted]
  split
  · exact put_put _ _ _ _
  · rfl

section

variable (he : s.audit a = .listed e) (hresult : s.bayCounted e b book k ≠ none) (hlt : e.carrier < 24)
  (hn : e.carousel = p / 2)

include hp hb ha he hresult hn in
/-- The count that decides the last bay ends with the commit of its audit. -/
theorem countBreak_closes (hrest : rest = [])
    (hothers : ¬ ∃ b', b' < 3 ∧ b' ≠ b ∧ look (s.face p).bays [] b' ≠ []) (hkind : (s.face p).kind = some .count)
    (hcarrier : (s.face p).carrier = some e.carrier) (hof : s.entryOf (recordOf e.carousel e.carrier) = some a)
    (hall : ∀ b', b' < 3 → b' ≠ b → (look e.bays BayCount.blank b').result ≠ none) :
    s.countBreak p b rest a book k e = (s.confirming p b rest).auditEnd p b a book k e := by
  obtain ⟨_, hk, hc⟩ := confirming_presenting (s := s) (b := b) (rest := rest) hp
  have he : (s.confirming p b rest).audit a = .listed e := he
  have hof : (s.confirming p b rest).entryOf (recordOf e.carousel e.carrier) = some a := hof
  rw [← confirming_bayCounted (p := p) (rest := rest)] at hresult
  exact countEnd_closes hp hb ha he hresult hn (confirming_empty hp hb hrest hothers) (hk.trans hkind)
    (hc.trans hcarrier) hof hall

include hp ha hlt hn in
/-- The record of the committed audit, its place in the list and the marks of its carrier. -/
theorem confirmed_done : ((s.confirming p b rest).auditEnd p b a book k e).audit a =
      .committed (e.counted b book k (s.bayCounted e b book k)) ∧
    a ∉ ((s.confirming p b rest).auditEnd p b a book k e).auditList ∧
    (((s.confirming p b rest).auditEnd p b a book k e).carrier (recordOf e.carousel e.carrier)).suspect = false ∧
    (((s.confirming p b rest).auditEnd p b a book k e).carrier (recordOf e.carousel e.carrier)).auditWanted = false ∧
    (((s.confirming p b rest).auditEnd p b a book k e).carrier (recordOf e.carousel e.carrier)).frozen = false := by
  have hdone := auditEnd_done (s := s.confirming p b rest) (b := b) (book := book) (k := k) hp ha hlt hn
  rw [confirming_bayCounted] at hdone
  exact ⟨hdone.committed, hdone.unlisted, auditEnd_marks hp ha hlt hn⟩

include hp ha hlt hn in
theorem confirmed_slot {b' : Nat} (hb' : b' < 3) :
    ((s.confirming p b rest).auditEnd p b a book k e).bare (3 * recordOf e.carousel e.carrier + b') =
      { (s.slot (3 * recordOf e.carousel e.carrier + b')).committed
        (look (e.counted b book k (s.bayCounted e b book k)).bays BayCount.blank b').result with reserved := 0 } := by
  have hslot := auditEnd_slot (s := s.confirming p b rest) (b := b) (book := book) (k := k) hp ha hlt hn hb'
  rwa [confirming_bayCounted] at hslot

theorem confirmed_count {q : Nat} (hq : q / 3 ≠ recordOf e.carousel e.carrier) :
    (((s.confirming p b rest).auditEnd p b a book k e).slot q).count = (s.slot q).count :=
  auditEnd_count (s := s.confirming p b rest) hq

include hp ha hresult hlt hn in
/-- With nothing else to do the face is IDLE and the carrier not open at it. -/
theorem confirmed_idle (hunbusy : s.Unbusy e.carousel a (recordOf e.carousel e.carrier)) :
    (((s.confirming p b rest).auditEnd p b a book k e).face p).state = .idle ∧
    (((s.confirming p b rest).auditEnd p b a book k e).face p).carrier = none ∧
    (((s.confirming p b rest).auditEnd p b a book k e).face p).kind = none ∧
    (((s.confirming p b rest).auditEnd p b a book k e).face p).bays = #v[[], [], []] ∧
    (((s.confirming p b rest).auditEnd p b a book k e).carrier (recordOf e.carousel e.carrier)).faceOpen = false := by
  have hunbusy : (s.confirming p b rest).Unbusy e.carousel a (recordOf e.carousel e.carrier) :=
    ⟨hunbusy.queue, hunbusy.waiting, hunbusy.unwanted, hunbusy.unready⟩
  rw [← confirming_bayCounted (p := p) (rest := rest)] at hresult
  obtain ⟨hopen, d, hface⟩ := auditEnd_idle hp ha hresult hlt hn hunbusy
  rw [hface]
  exact ⟨rfl, rfl, rfl, rfl, hopen⟩

end

end

/-- A break of a bay with an empty list ends with the selection passed on. -/
theorem bayBreak_none_eventEnd (hp : p < 8) (hs : s.Attended) (hheld : b ∈ (s.face p).held)
    (hlook : look (s.face p).bays [] b = []) :
    (s.bayBreak p b).eventEnd.Alike (s.putFace p (s.released p b)) := by
  have hattended : ((s.putFace p (s.released p b)).list (.status (4 + p))).Attended := by
    refine hs.of_eq (list_passDue _ _) (list_panels _ _) fun q hq => ?_
    have hface : ((s.putFace p (s.released p b)).list (.status (4 + p))).face q =
        (s.putFace p (s.released p b)).face q := by
      rw [face, list_faces]
      rfl
    rw [hface]
    by_cases h : q = p
    · subst h
      rw [putFace_face_self s hp]
      rfl
    · rw [putFace_face_other s h]
  rw [bayBreak_confirms hheld, confirmBay_none hp hlook, eventEnd_still hattended]
  exact .list _ _

end Store

namespace State

variable {s : State} {p : Fin 8} {key : Key} {b : Nat}

section

variable (hw : s.path.condition = .working) (hs : s.store.Attended) (ht : s.store.takesKeys p)
  (hh : (s.store.panel p).holder = some ⟨key, false⟩) (hf : (s.store.face p).state = .presenting)
  (hk : (key, b) ∈ [(Key.bay0, 0), (.bay1, 1), (.bay2, 2)])

include hw hs ht hh hf hk

theorem bayBreak_unheld (h : b ∉ (s.store.face p).held) :
    s.Ends (.bayKeyBreak p) fun t => t.JobsAre (s.store.emptyHolder p) ∧ s.AddsNothing t := by
  have htaken := Store.emptyHolder_attended hs.pass (hs.shownBut p) ht
  have hsame : ((s.store.emptyHolder p).bayBreak p b).eventEnd = s.store.emptyHolder p := by
    rw [Store.bayBreak_ignored (s := s.store.emptyHolder p) h, Store.eventEnd_still htaken]
  have hends := bayKeyBreak_ends hw ht hh hf hk
  rw [hsame] at hends
  exact hends.imp fun t ⟨hjobs, hsettles⟩ => ⟨hjobs, hsettles.addsNothing rfl rfl⟩

theorem bayBreak_emptied (hheld : b ∈ (s.store.face p).held) (hlook : look (s.store.face p).bays [] b = []) :
    s.Ends (.bayKeyBreak p) fun t =>
      t.JobsAre ((s.store.emptyHolder p).putFace p (s.store.released p b)) := by
  have htaken := Store.emptyHolder_attended hs.pass (hs.shownBut p) ht
  exact (bayKeyBreak_ends hw ht hh hf hk).imp fun t ⟨hjobs, _⟩ =>
    hjobs.alike (Store.bayBreak_none_eventEnd p.isLt htaken hheld hlook)

omit hs in
theorem bayBreak_head {it : Item} {rest : List Item} (hheld : b ∈ (s.store.face p).held)
    (hlook : look (s.store.face p).bays [] b = it :: rest) {x : Store}
    (hx : (((s.store.confirming p b rest).dispatch p b it).checkPresentation (p.val / 2) (p.val % 2)).eventEnd = x) :
    s.Ends (.bayKeyBreak p) fun t => t.JobsAre x ∧ ({ s with store := x } : State).Settles t := by
  have hbreak : ((s.store.emptyHolder p).bayBreak p b).eventEnd = x := by
    rw [← hx, Store.bayBreak_confirms (s := s.store.emptyHolder p) hheld,
      Store.confirmBay_head (s := s.store.emptyHolder p) p.isLt hlook]
    rfl
  have hends := bayKeyBreak_ends hw ht hh hf hk
  rw [hbreak] at hends
  exact hends

end

end State

end Sys2Proof.Machine

end

section

open Sys2Proof Sys2Proof.Machine

/-- Settles O58: the break of a held bay confirms its head item, as a pick, a put or a count. -/
theorem bayBreakConfirmsTheHead : Obligations.BayBreakConfirmsTheHead := by
  intro s p key b hw hs _ ht hh hf hk f taken held selected
  obtain ⟨_, hb⟩ := keyBay_of_mem hk
  have hp : p.val < 8 := p.isLt
  refine ⟨State.bayBreak_unheld hw hs ht hh hf hk, State.bayBreak_emptied hw hs ht hh hf hk, ?_⟩
  intro it rest hheld hlook k
  have hhead {x : Store} := State.bayBreak_head hw ht hh hf hk hheld hlook (x := x)
  obtain ⟨hstate, hkind, hcarrier⟩ := Store.confirming_presenting (s := s.store) (b := b) (rest := rest) hp
  refine ⟨?_, ?_, ?_⟩
  · intro num r o l href hr hclaim _ hslot hwork
    have hpresenting := hstate.trans hf
    have hwork := hkind.trans hwork
    have hr : (s.store.confirming p b rest).reservation num = some r := hr
    refine (hhead (congrArg (fun u : Store => (u.checkPresentation _ _).eventEnd) (Store.dispatch_pick href p b))).imp
      fun t ⟨hjobs, hsettles⟩ => ?_
    obtain ⟨hself, hother⟩ := Store.pickEnd_count (k := k) hr hclaim hpresenting hwork hslot
    obtain ⟨harticles, hbatches⟩ := Store.pickEnd_tables (k := k) hr hclaim hpresenting hwork
    refine ⟨?_, fun q hq => ?_, fun hshort => ?_, fun x y _ ho ha hy => ?_, ?_, ?_, ?_⟩
    · rw [hjobs.slot]
      exact hself
    · rw [hjobs.slot]
      exact hother q hq
    · exact hsettles.told_of (Store.pickEnd_short hr hclaim hpresenting hwork hshort)
    · rw [hjobs.order]
      exact Store.pickEnd_line hr hclaim hpresenting hwork ho ha hy
    · intro x ln a z hk0 _ ho hlane ha hln hassigned hart hz expected tolerance
      have hends := Store.pickEnd_lane (k := k) hr hclaim hpresenting hwork ho ha hlane hln hk0 hassigned hart hz
      simp only [hjobs.lane, hjobs.order]
      refine ⟨hends.1, hends.2, fun y hy hord => ?_⟩
      have hcompletes :=
        Store.pickEnd_completes hr hclaim hpresenting hwork ho ha hlane hln hk0 hassigned hart hz hy hord
      refine ⟨fun he => ?_, hcompletes.2⟩
      obtain ⟨horder, hdone, hraised⟩ := hcompletes.1 he
      exact ⟨horder, hdone, hsettles.told_of hraised⟩
    · exact hjobs.articles.trans harticles
    · exact hjobs.batches.trans hbatches
  · intro num r m href hr hclaim _ hslot hwork
    have hpresenting := hstate.trans hf
    have hwork := hkind.trans hwork
    have hr : (s.store.confirming p b rest).reservation num = some r := hr
    refine (hhead (congrArg (fun u : Store => (u.checkPresentation _ _).eventEnd) (Store.dispatch_put href p b))).imp
      fun t ⟨hjobs, hsettles⟩ => ?_
    obtain ⟨hself, hother⟩ := Store.putEnd_count (k := k) hr hclaim hpresenting hwork hslot
    obtain ⟨harticles, hlanes⟩ := Store.putEnd_tables (k := k) hr hclaim hpresenting hwork
    refine ⟨?_, fun q hq => ?_, fun hshort => ?_,
      fun y hm hy => ⟨y.putIn k r.quantity, fun hle => ?_, fun hlt => ?_, rfl⟩, hjobs.articles.trans harticles, ?_⟩
    · rw [hjobs.slot]
      exact hself
    · rw [hjobs.slot]
      exact hother q hq
    · exact hsettles.told_of (Store.putEnd_short hr hclaim hpresenting hwork hshort)
    · obtain ⟨hdone, hraised⟩ := (Store.putEnd_batch hr hclaim hpresenting hwork hm hy).1 hle
      exact ⟨(hjobs.batch m).trans hdone, hsettles.told_of hraised⟩
    · exact (hjobs.batch m).trans ((Store.putEnd_batch hr hclaim hpresenting hwork hm hy).2 hlt)
    · exact congrArg (Vector.map fun l => l.expected) (hjobs.lanes.trans hlanes)
  · intro a e book href ha he
    rw [← Store.recordOf_eq]
    intro r old result e' others hbook hlen
    have hresult : result = s.store.bayCounted e b book k := (Store.bayCounted_eq hb).symm
    have hentry : e' = e.counted b book k (s.store.bayCounted e b book k) := congrArg (e.counted b book k) hresult
    have hcount := hhead (Store.countBreak_eq href he hbook hlen)
    refine ⟨fun hmore => hcount.imp fun t ⟨hjobs, hsettles⟩ => ?_, ?_⟩
    · rw [hresult] at hmore
      obtain ⟨haudit, hbays, hface, hcarriers, hlist, hlisted⟩ := Store.countBreak_goesOn hp hb ha hs.pass hmore
      rw [hentry, hresult, hjobs.audit, hjobs.face]
      exact ⟨haudit, hbays, hface.trans hf, hjobs.carriers.trans hcarriers, hjobs.auditList.trans hlist,
        hsettles.renewed_of hlisted⟩
    · intro x hx hrest hothers hwork hcar hlt hn hof hall given reason idle
      have hdecided : s.store.bayCounted e b book k ≠ none := by
        rw [← hresult, hx]
        exact nofun
      have hcloses := Store.countBreak_closes hp hb ha he hdecided hn hrest hothers hwork hcar hof hall
      rw [hcloses] at hcount
      refine hcount.imp fun t ⟨hjobs, hsettles⟩ => ?_
      obtain ⟨haudit, hlist, hsuspect, hwanted, hfrozen⟩ :=
        Store.confirmed_done (s := s.store) (b := b) (rest := rest) (book := book) (k := k) hp ha hlt hn
      obtain ⟨hrenewed, hstatus⟩ := Store.auditEnd_renewed (s := s.store.confirming p b rest) (p := p) (b := b) (a := a)
        (book := book) (k := k) (e := e)
      rw [hjobs.audit, hjobs.auditList, hjobs.carrier, hjobs.face, hentry]
      refine ⟨haudit, hlist, hsuspect, hwanted, hfrozen, fun b' hb' => ?_, fun q hq => ?_,
        hsettles.told_of Store.auditEnd_told, hsettles.renewed_of hrenewed, hsettles.renewed_of hstatus,
        fun ⟨hqueue, _, hwaiting, hunwanted, hunready⟩ => ?_⟩
      · have hgiven : (look (e.counted b book k (s.store.bayCounted e b book k)).bays BayCount.blank b').result =
            given b' := congrArg (fun e : AuditEntry => (look e.bays BayCount.blank b').result) hentry.symm
        have hslot :=
          Store.confirmed_slot (s := s.store) (b := b) (rest := rest) (book := book) (k := k) hp ha hlt hn hb'
        rw [hgiven] at hslot
        obtain ⟨hslotCount, hreason, harticle⟩ := Store.slot_of_bare hslot
        rw [hjobs.slot]
        refine ⟨?_, fun h => ?_, fun h => ?_, fun h => ?_, fun h => ?_⟩
        · refine (hslotCount.trans Slot.committed_count).trans ?_
          cases given b' with
          | none => rfl
          | some g => cases g <;> rfl
        · rw [hreason, h]
          exact Slot.committed_disputed
        · rw [hreason, h]
          exact Slot.committed_foreign
        · exact hreason.trans (Slot.committed_cleared h)
        · rw [hslotCount] at h
          exact harticle.trans (Slot.committed_article h)
      · rw [hjobs.slot]
        exact Store.confirmed_count hq
      · exact Store.confirmed_idle hp ha hdecided hlt hn ⟨hqueue, hwaiting, hunwanted, hunready⟩

end
